-- ==== Sys2Proof/Word.lean ====
section
/-! DEFINITION. The words of the FK-318: bytes, ticks of the station clock, and the 16-bit words of ages
and digests. Everything computed from them stands in files under `Sys2Proof/Machine/`. -/

namespace Sys2Proof

/-- One byte of a frame, of the constants image, of a console record or of the transfer FIFO. -/
abbrev Byte := BitVec 8

/-- A value of the station clock, in ticks of 100 µs, modulo 2³² (R7). -/
abbrev Tick := BitVec 32

/-- A value of the edge timer's free-running microsecond count, modulo 2³² (R82). -/
abbrev Micros := BitVec 32

/-- A 16-bit word: an age (R2), a CRC (R2) or a constants digest (R21). -/
abbrev Word16 := BitVec 16

end Sys2Proof
end

