-- ==== Sys2Proof/Syntax.lean ====
section
/-! DEFINITION. The commands the FK-318 takes: `Instr` has one constructor for each row of
spec/opcode_table.json, with the row's operands. The names and the frame contents of chapters 1 to 12
stand before it. -/

namespace Sys2Proof

/-! ## Names of the manual -/

/-- The start phase (section 4.1; codes 0 to 4 in chapter 12). -/
inductive Phase
  | idle | red | amber | green | gone
  deriving DecidableEq, Repr, Inhabited

/-- Void reasons (R52; codes 1 to 6). `repeatJump` is the manual's REPEAT. -/
inductive VoidReason
  | falseStart | late | dns | withdrawn | dsq | repeatJump
  deriving DecidableEq, Repr, Inhabited

/-- Landing quality (section 3.2; codes 0 to 3). -/
inductive Quality
  | both | one | manual | none
  deriving DecidableEq, Repr, Inhabited

/-- A station's condition (R31; codes 0 to 2). -/
inductive Condition
  | ok | degraded | invalid
  deriving DecidableEq, Repr, Inhabited

/-- Fault kinds (R32; codes 1 to 12, 0 standing for an empty latch). -/
inductive FaultKind
  | lineHung | txJabber | txEcho | txOverflow | duplicateStation | constantsInvalid
  | sensorHung | sensorMissing | headFault | barrierStuck | lampFail | tableEvict
  deriving DecidableEq, Repr, Inhabited

/-- One ski's landing trace. -/
inductive Track
  | left | right
  deriving DecidableEq, Repr, Inhabited

/-- Why a view claim ended (R119; codes 1 to 3). -/
inductive LostReason
  | presenceOff | bothTracks | viewLimit
  deriving DecidableEq, Repr, Inhabited

/-- The mode of an event (R151, R161). -/
inductive EventMode
  | competition | training
  deriving DecidableEq, Repr, Inhabited

/-- The state named by a ROUND frame (R165). -/
inductive RoundMsg
  | opened | refSet | closed
  deriving DecidableEq, Repr, Inhabited

/-- The state of the round record (section 9.1). -/
inductive RoundState
  | opened | closing | closed
  deriving DecidableEq, Repr, Inhabited

/-- The eight causes of the hold list, in the order of R59. -/
inductive HoldCause
  | wind | jury | track | coach | station | config | backlog | lamp
  deriving DecidableEq, Repr, Inhabited

/-- The three start lamps (R58). -/
inductive Lamp
  | red | amber | green
  deriving DecidableEq, Repr, Inhabited

/-- The three barriers of the EDGE role (R83). -/
inductive EdgeBarrier
  | a | b | t
  deriving DecidableEq, Repr, Inhabited

/-- The state of a coach request (sections 3.2 and 4.1). -/
inductive CoachState
  | none | pending | granted | withdrawn
  deriving DecidableEq, Repr, Inhabited

/-- Who drives the sensor bus (section 6.1). -/
inductive MasterSelect
  | auto | console
  deriving DecidableEq, Repr, Inhabited

/-! ## Sets of named things -/

/-- A role set (R23): any combination of the six roles. -/
structure RoleSet where
  start : Bool := false
  edge : Bool := false
  mast : Bool := false
  span : Bool := false
  jury : Bool := false
  board : Bool := false
  deriving DecidableEq, Repr, Inhabited

/-- A set of hold causes, one flag per cause (R80). -/
structure CauseSet where
  wind : Bool := false
  jury : Bool := false
  track : Bool := false
  coach : Bool := false
  station : Bool := false
  config : Bool := false
  backlog : Bool := false
  lamp : Bool := false
  deriving DecidableEq, Repr, Inhabited

/-- A set of lamps: the failed set (R77), or the lamps whose sense input shows the fault level (R78). -/
structure LampSet where
  red : Bool := false
  amber : Bool := false
  green : Bool := false
  deriving DecidableEq, Repr, Inhabited

/-- The part's one set of three barrier inputs: at a START station the first is the leave barrier, at an
EDGE station the three are A, B and T (pin summary, opening file). `true` shows the break. -/
structure BarrierInputs where
  first : Bool := false
  second : Bool := false
  third : Bool := false
  deriving DecidableEq, Repr, Inhabited

/-- One value for each of the five seats of the judge port. -/
structure Seats (α : Type) where
  s1 : α
  s2 : α
  s3 : α
  s4 : α
  s5 : α
  deriving DecidableEq, Repr, Inhabited

/-! ## Frame contents (chapters 1 and 12) -/

/-- What a frame says of itself beside its kind and payload (R2): the sender station and event number of its
header, and its age. -/
structure RxHdr where
  sender : Nat
  event : Nat
  age : Word16
  deriving DecidableEq, Repr, Inhabited

/-- What the line interface hands on with a received frame beside its payload (R2, R5): the sender
station and event number of its header, its age, and the station-clock value stamped at the start edge
of its kind byte. -/
structure LineHdr where
  sender : Nat
  event : Nat
  age : Word16
  stamp : Tick
  deriving DecidableEq, Repr, Inhabited

/-- What the frame itself says, its stamp left out. -/
def LineHdr.rx (l : LineHdr) : RxHdr := ⟨l.sender, l.event, l.age⟩

/-- What the line interface hands on with a frame that it stamps (R2). -/
def RxHdr.stamped (h : RxHdr) (stamp : Tick) : LineHdr := ⟨h.sender, h.event, h.age, stamp⟩

/-- The attempt header that opens every attempt-bearing payload (R35). -/
structure AttemptHdr where
  attempt : Nat
  bib : Nat
  round : Nat
  deriving DecidableEq, Repr, Inhabited

/-- The START part of STATUS (R80). -/
structure StartPart where
  phase : Phase
  attempt : Option Nat
  causes : CauseSet
  backlog : Nat
  deriving DecidableEq, Repr, Inhabited

/-- The JURY part of STATUS (R169). -/
structure JuryPart where
  lastAttempt : Option Nat
  round : Nat
  state : RoundState
  deriving DecidableEq, Repr, Inhabited

/-- The MAST part of STATUS (R110). -/
structure MastPart where
  mast : Nat
  stable : Bool
  deriving DecidableEq, Repr, Inhabited

/-- The SPAN part of STATUS (R121). -/
structure SpanPart where
  span : Nat
  headOk : Bool
  deriving DecidableEq, Repr, Inhabited

/-- The EDGE part of STATUS (R83). -/
structure EdgePart where
  barrierOk : Bool
  deriving DecidableEq, Repr, Inhabited

/-- The payload of a STATUS frame (R27): a part is present exactly when its role is announced. -/
structure StatusPayload where
  roles : RoleSet
  condition : Condition
  digest : Word16
  fault : Option FaultKind
  start : Option StartPart
  jury : Option JuryPart
  mast : Option MastPart
  span : Option SpanPart
  edge : Option EdgePart
  deriving DecidableEq, Repr, Inhabited

/-- The flags of a CORRIDOR frame (R105). -/
structure CorridorFlags where
  held : Bool := false
  stale : Bool := false
  service : Bool := false
  deriving DecidableEq, Repr, Inhabited

/-- The flags of a RESULT frame (R146). -/
structure ResultFlags where
  trial : Bool := false
  windUnavailable : Bool := false
  styleScaled : Bool := false
  coachRequest : Bool := false
  coachQualified : Bool := false
  manualDistance : Bool := false
  timeSaturated : Bool := false
  partialWind : Bool := false
  deriving DecidableEq, Repr, Inhabited

/-- The payload of a RESULT frame (R146, RESULT table of chapter 12). Points are in tenths. -/
structure ResultPayload where
  hdr : AttemptHdr
  revision : Nat
  flags : ResultFlags
  distance : Nat
  quality : Quality
  speed : Option Nat
  gateUsed : Nat
  wind : Option Int
  marks : Seats (Option Nat)
  distancePoints : Int
  stylePoints : Nat
  gateComp : Int
  windComp : Int
  total : Nat
  deriving DecidableEq, Repr, Inhabited

/-- The content of a hill-line frame, one constructor for each frame kind of section 12.1. -/
inductive Body
  | status (p : StatusPayload)
  | corridor (mast : Nat) (meanX meanY : Int) (used : Nat) (flags : CorridorFlags)
  | event (number : Nat) (mode : EventMode) (rounds : Nat)
  | call (h : AttemptHdr) (gate : Nat)
  | go (h : AttemptHdr)
  | gate (h : AttemptHdr) (gate : Nat) (ack : Bool)
  | hold (set : Bool)
  | round (round : Nat) (state : RoundMsg) (refGate : Nat)
  | text (chars : List Byte)
  | phase (h : AttemptHdr) (phase : Phase) (gate seconds greenCount : Nat)
  | coach (h : AttemptHdr) (juryGate requested : Nat) (withdrawn : Bool)
  | leave (h : AttemptHdr) (leftOnHold : Bool)
  | void (h : AttemptHdr) (reason : VoidReason)
  | speed (h : AttemptHdr) (speed : Nat)
  | takeoff (h : AttemptHdr) (noSpeed : Bool)
  | inView (h : AttemptHdr) (span : Nat)
  | viewLost (h : AttemptHdr) (span : Nat) (reason : LostReason)
  | contact (h : AttemptHdr) (span : Nat) (track : Track) (position : Nat)
  | landing (h : AttemptHdr) (distance : Nat) (quality : Quality) (noTakeoff lateContact : Bool)
  | mastMean (h : AttemptHdr) (mast : Nat) (mean : Option Int) (used : Nat) (partialMean : Bool)
  | result (r : ResultPayload)
  deriving DecidableEq, Repr, Inhabited

/-- A frame as it passes on the line: what the line interface adds, and its content. -/
structure LineFrame where
  line : LineHdr
  body : Body
  deriving DecidableEq, Repr, Inhabited

/-! ## Operands of the sensor bus -/

/-- How a poll transaction ended, as the poller sees it on the bus (R93): all six data bytes came in, or
an address or pointer byte was not acknowledged, or arbitration was lost. `sent` is how many of the transaction's
conditions and bytes had gone out by then, the failed one included. A hang is a command of its own
(CLOCK_STRETCH_TIMEOUT, POLL_TIME). -/
inductive PollResult
  | data (x y : Word16) (status sequence : Byte)
  | noAck (sent : Nat)
  | arbLost (sent : Nat)
  deriving DecidableEq, Repr, Inhabited

/-- Why a head record is discarded (R114): the time since its last character, a character with its stop bit
low, or complete characters that fail a check. -/
inductive HeadDiscard
  | gap (ticks : Nat)
  | lowStop
  | chars (cs : List Byte)
  deriving DecidableEq, Repr

/-- Why a keypad record that is not complete is discarded (R188): the time since its last character, or a character
with its stop bit low. -/
inductive KeypadDiscard
  | gap (ticks : Nat)
  | lowStop
  deriving DecidableEq, Repr

/-- How a sensor-bus transaction ended (R93, R99), a hang apart. `sent` is how many of its conditions and bytes had
gone out by then, the failed one included. -/
inductive TransferOutcome
  | ok
  | noAck (sent : Nat)
  | arbLost (sent : Nat)
  deriving DecidableEq, Repr, Inhabited

/-- How the transaction of a poll ended. -/
def PollResult.outcome : PollResult → TransferOutcome
  | .data .. => .ok
  | .noAck k => .noAck k
  | .arbLost k => .arbLost k

/-- The number of conditions and bytes that an outcome reports as sent; none where all of them were. -/
def TransferOutcome.sentCount : TransferOutcome → Option Nat
  | .ok => none
  | .noAck k | .arbLost k => some k

/-! ## The commands -/

/-- The commands and events of spec/opcode_table.json, one constructor per row, in the table's order. A
row that reports a frame carries the fields of the frame; a row whose event is timed on a pin that the
station does not drive carries the interval measured there; a console command carries the fields of its record (section 12.3). -/
inductive Instr
  | resetAssert
  | resetRelease (straps : BitVec 4)
  | eepromReadEnd (bytes : List Byte) (broken : BarrierInputs)
  | eepromRetryTimer
  | transmissionStart (quietUs : Nat)
  | txEcho
  | txJabber (assertedUs : Nat)
  | lineHung (busyUs : Nat)
  | lineHungEnd (quietUs : Nat)
  | rxCharacterGap (gapUs : Nat)
  | invalidFrame (bytes : List Byte)
  | statusFrame (l : RxHdr) (p : StatusPayload)
  | corridorFrame (l : RxHdr) (mast : Nat) (meanX meanY : Int) (used : Nat) (flags : CorridorFlags)
  | eventFrame (l : RxHdr) (number : Nat) (mode : EventMode) (rounds : Nat)
  | callFrame (l : RxHdr) (h : AttemptHdr) (gate : Nat)
  | goFrame (l : RxHdr) (h : AttemptHdr)
  | gateFrame (l : RxHdr) (h : AttemptHdr) (gate : Nat) (ack : Bool)
  | holdFrame (l : RxHdr) (set : Bool)
  | roundFrame (l : RxHdr) (round : Nat) (state : RoundMsg) (refGate : Nat)
  | textFrame (l : RxHdr) (chars : List Byte)
  | phaseFrame (l : RxHdr) (h : AttemptHdr) (phase : Phase) (gate seconds greenCount : Nat)
  | coachFrame (l : RxHdr) (h : AttemptHdr) (juryGate requested : Nat) (withdrawn : Bool)
  | leaveFrame (l : RxHdr) (h : AttemptHdr) (leftOnHold : Bool)
  | voidFrame (l : RxHdr) (h : AttemptHdr) (reason : VoidReason)
  | speedFrame (l : RxHdr) (h : AttemptHdr) (speed : Nat)
  | takeoffFrame (l : RxHdr) (h : AttemptHdr) (noSpeed : Bool)
  | inViewFrame (l : RxHdr) (h : AttemptHdr) (span : Nat)
  | viewLostFrame (l : RxHdr) (h : AttemptHdr) (span : Nat) (reason : LostReason)
  | contactFrame (l : RxHdr) (h : AttemptHdr) (span : Nat) (track : Track) (position : Nat)
  | landingFrame (l : RxHdr) (h : AttemptHdr) (distance : Nat) (quality : Quality)
      (noTakeoff lateContact : Bool)
  | mastmeanFrame (l : RxHdr) (h : AttemptHdr) (mast : Nat) (mean : Option Int) (used : Nat)
      (partialMean : Bool)
  | resultFrame (l : RxHdr) (r : ResultPayload)
  | statusOffer
  | corridorOffer
  | stationSilent (station : Nat)
  | readyTimerExpiry
  | windowTimerExpiry
  | graceTimerExpiry
  | settleTimerExpiry
  | corridorEntryAged (mast : Nat)
  | countdownTick
  | leaveBreak
  | leaveBarrierClear
  | leaveBarrierStuck
  | trackHold
  | trackRelease
  | coachRequestPress (selector : BitVec 4)
  | rejectLampEnd
  | lampFail (lamp : Lamp)
  | lampCheck (faulty : LampSet)
  | barrierABreak
  | barrierBBreak
  | barrierTBreak
  | edgeBarrierClear (barrier : EdgeBarrier)
  | edgeBarrierStuck (barrier : EdgeBarrier)
  | pollTime (dataLow : Bool)
  | pollComplete (result : PollResult)
  | clockStretchTimeout (read : List Byte)
  | releaseBurstEnd (dataHigh : Bool)
  | sensorMode (mode : Nat)
  | sensorTransfer (address readCount : Nat) (write : List Byte) (dataLow : Bool)
  | sensorTransferEnd (outcome : TransferOutcome) (read : List Byte)
  | sensorRelease
  | heartbeat (stamp : Tick)
  | presence (on : Bool) (stamp : Tick)
  | headContact (track : Track) (offset : Nat) (stamp : Tick)
  | headRecordDiscard (why : HeadDiscard)
  | headLinkSilent
  | viewLimitExpiry
  | inrunTimerExpiry (attempt : Nat)
  | flightTimerExpiry (attempt : Nat)
  | claimLimitReached (attempt span : Nat)
  | resolutionTime (attempt : Nat)
  | closingEnd (attempt : Nat)
  | manualDistance (attempt distance : Nat)
  | gatherDeadline (attempt : Nat)
  | keypadRecord (channel : Nat) (seat mark check : Byte)
  | keypadGapTimeout (channel : Nat) (why : KeypadDiscard)
  | lampFlashToggle (channel : Nat)
  | lampAnswerEnd (channel : Nat)
  | forceScore (attempt : Nat)
  | correctDistance (attempt distance : Nat)
  | correctMark (attempt seat mark : Nat)
  | void (attempt reason : Nat)
  | newEvent (number mode rounds : Nat)
  | startList (bibs : List Nat)
  | dns (bib : Nat)
  | call (gate forerunner : Nat)
  | callLapsed
  | go (attempt : Nat)
  | setGate (attempt gate : Nat)
  | coachAck (attempt : Nat)
  | hold
  | release
  | closeRound
  | text (chars : List Byte)
  | pageTimeEnd
  | liveSecondsTick
  | panelRowPeriod
  | statusQuery
  | restart
  | noticeMask (flags : Nat)
  | clearFault
  | unknownCommand (kind : Nat) (payload : List Byte)
  | consoleGapTimeout (gapTicks : Nat)
  | consoleTransmit
  | rxFramingError
  | consoleFramingError
  deriving DecidableEq, Repr, Inhabited

end Sys2Proof
end

