-- ==== Sys2Proof/Decode.lean ====
section
/-! DEFINITION. The command that a word of opcode-table bits spells. No row of spec/opcode_table.json gives
bits: the FK-318 takes events and records, not coded words. -/

namespace Sys2Proof

/-- The command that a word spells by the table's bits: none, for no row of the table gives any. -/
def decodeTableWord (_nbits _w : Nat) : Option Instr := none

end Sys2Proof
end

