-- ==== Sys2Proof/Machine/Glyphs.lean ====
section
/-! DEFINITION. The panel glyphs of section 12.5. -/

namespace Sys2Proof.Machine

open Sys2Proof

/-- The glyphs of the characters 0x20 to 0x2F, seven dot rows each. -/
def glyphs20 : List (List Nat) := [
  [0x00, 0x00, 0x00, 0x00, 0x00, 0x00, 0x00],
  [0x04, 0x04, 0x04, 0x04, 0x00, 0x00, 0x04],
  [0x0A, 0x0A, 0x0A, 0x00, 0x00, 0x00, 0x00],
  [0x0A, 0x0A, 0x1F, 0x0A, 0x1F, 0x0A, 0x0A],
  [0x04, 0x0F, 0x14, 0x0E, 0x05, 0x1E, 0x04],
  [0x18, 0x19, 0x02, 0x04, 0x08, 0x13, 0x03],
  [0x0C, 0x12, 0x14, 0x08, 0x15, 0x12, 0x0D],
  [0x0C, 0x04, 0x08, 0x00, 0x00, 0x00, 0x00],
  [0x02, 0x04, 0x08, 0x08, 0x08, 0x04, 0x02],
  [0x08, 0x04, 0x02, 0x02, 0x02, 0x04, 0x08],
  [0x00, 0x04, 0x15, 0x0E, 0x15, 0x04, 0x00],
  [0x00, 0x04, 0x04, 0x1F, 0x04, 0x04, 0x00],
  [0x00, 0x00, 0x00, 0x00, 0x0C, 0x04, 0x08],
  [0x00, 0x00, 0x00, 0x1F, 0x00, 0x00, 0x00],
  [0x00, 0x00, 0x00, 0x00, 0x00, 0x0C, 0x0C],
  [0x00, 0x01, 0x02, 0x04, 0x08, 0x10, 0x00]]

/-- The glyphs of the characters 0x30 to 0x3F, seven dot rows each. -/
def glyphs30 : List (List Nat) := [
  [0x0E, 0x11, 0x13, 0x15, 0x19, 0x11, 0x0E],
  [0x04, 0x0C, 0x04, 0x04, 0x04, 0x04, 0x0E],
  [0x0E, 0x11, 0x01, 0x02, 0x04, 0x08, 0x1F],
  [0x1F, 0x02, 0x04, 0x02, 0x01, 0x11, 0x0E],
  [0x02, 0x06, 0x0A, 0x12, 0x1F, 0x02, 0x02],
  [0x1F, 0x10, 0x1E, 0x01, 0x01, 0x11, 0x0E],
  [0x06, 0x08, 0x10, 0x1E, 0x11, 0x11, 0x0E],
  [0x1F, 0x01, 0x02, 0x04, 0x08, 0x08, 0x08],
  [0x0E, 0x11, 0x11, 0x0E, 0x11, 0x11, 0x0E],
  [0x0E, 0x11, 0x11, 0x0F, 0x01, 0x02, 0x0C],
  [0x00, 0x0C, 0x0C, 0x00, 0x0C, 0x0C, 0x00],
  [0x00, 0x0C, 0x0C, 0x00, 0x0C, 0x04, 0x08],
  [0x02, 0x04, 0x08, 0x10, 0x08, 0x04, 0x02],
  [0x00, 0x00, 0x1F, 0x00, 0x1F, 0x00, 0x00],
  [0x08, 0x04, 0x02, 0x01, 0x02, 0x04, 0x08],
  [0x0E, 0x11, 0x01, 0x02, 0x04, 0x00, 0x04]]

/-- The glyphs of the characters 0x40 to 0x4F, seven dot rows each. -/
def glyphs40 : List (List Nat) := [
  [0x0E, 0x11, 0x01, 0x0D, 0x15, 0x15, 0x0E],
  [0x0E, 0x11, 0x11, 0x11, 0x1F, 0x11, 0x11],
  [0x1E, 0x11, 0x11, 0x1E, 0x11, 0x11, 0x1E],
  [0x0E, 0x11, 0x10, 0x10, 0x10, 0x11, 0x0E],
  [0x1C, 0x12, 0x11, 0x11, 0x11, 0x12, 0x1C],
  [0x1F, 0x10, 0x10, 0x1E, 0x10, 0x10, 0x1F],
  [0x1F, 0x10, 0x10, 0x1E, 0x10, 0x10, 0x10],
  [0x0E, 0x11, 0x10, 0x17, 0x11, 0x11, 0x0F],
  [0x11, 0x11, 0x11, 0x1F, 0x11, 0x11, 0x11],
  [0x0E, 0x04, 0x04, 0x04, 0x04, 0x04, 0x0E],
  [0x07, 0x02, 0x02, 0x02, 0x02, 0x12, 0x0C],
  [0x11, 0x12, 0x14, 0x18, 0x14, 0x12, 0x11],
  [0x10, 0x10, 0x10, 0x10, 0x10, 0x10, 0x1F],
  [0x11, 0x1B, 0x15, 0x15, 0x11, 0x11, 0x11],
  [0x11, 0x11, 0x19, 0x15, 0x13, 0x11, 0x11],
  [0x0E, 0x11, 0x11, 0x11, 0x11, 0x11, 0x0E]]

/-- The glyphs of the characters 0x50 to 0x5F, seven dot rows each. -/
def glyphs50 : List (List Nat) := [
  [0x1E, 0x11, 0x11, 0x1E, 0x10, 0x10, 0x10],
  [0x0E, 0x11, 0x11, 0x11, 0x15, 0x12, 0x0D],
  [0x1E, 0x11, 0x11, 0x1E, 0x14, 0x12, 0x11],
  [0x0F, 0x10, 0x10, 0x0E, 0x01, 0x01, 0x1E],
  [0x1F, 0x04, 0x04, 0x04, 0x04, 0x04, 0x04],
  [0x11, 0x11, 0x11, 0x11, 0x11, 0x11, 0x0E],
  [0x11, 0x11, 0x11, 0x11, 0x11, 0x0A, 0x04],
  [0x11, 0x11, 0x11, 0x15, 0x15, 0x15, 0x0A],
  [0x11, 0x11, 0x0A, 0x04, 0x0A, 0x11, 0x11],
  [0x11, 0x11, 0x11, 0x0A, 0x04, 0x04, 0x04],
  [0x1F, 0x01, 0x02, 0x04, 0x08, 0x10, 0x1F],
  [0x0E, 0x08, 0x08, 0x08, 0x08, 0x08, 0x0E],
  [0x00, 0x10, 0x08, 0x04, 0x02, 0x01, 0x00],
  [0x0E, 0x02, 0x02, 0x02, 0x02, 0x02, 0x0E],
  [0x04, 0x0A, 0x11, 0x00, 0x00, 0x00, 0x00],
  [0x00, 0x00, 0x00, 0x00, 0x00, 0x00, 0x1F]]

/-- All glyphs, from the character 0x20 on. -/
def glyphTable : List (List Nat) := glyphs20 ++ glyphs30 ++ glyphs40 ++ glyphs50

/-- The seven dot rows of a character 0x20 to 0x5F; blank for any other. -/
def glyphRows (c : Byte) : List Nat :=
  if c.toNat < 0x20 then List.replicate 7 0 else glyphTable.getD (c.toNat - 0x20) (List.replicate 7 0)

/-- Whether the dot at a row 0 to 6 and a column 0 to 4 of a character is lit: bit 4 is the leftmost
column. -/
def glyphDot (c : Byte) (row col : Nat) : Bool := ((glyphRows c).getD row 0).testBit (4 - col)

end Sys2Proof.Machine
end

