-- ==== Sys2Proof/Machine/State.lean ====
section
/-! DEFINITION. The state of one FK-318: every register, table, queue, record, timer and mode that the
manual gives the part, as plain data, with its value right after a cold reset. -/

namespace Sys2Proof.Machine

open Sys2Proof

/-! ## Hill constants (R23) -/

/-- One STATIONS entry. -/
structure StationEntry where
  station : Nat
  roles : RoleSet
  mast : Nat
  span : Nat
  deriving DecidableEq, Repr, Inhabited

/-- One MASTS entry. -/
structure MastEntry where
  mast : Nat
  weight : Nat
  corridor : Bool
  scoring : Bool
  deriving DecidableEq, Repr, Inhabited

/-- One SPANS entry, in centimetres from the table edge. -/
structure SpanEntry where
  span : Nat
  startCm : Nat
  endCm : Nat
  deriving DecidableEq, Repr, Inhabited

/-- HILL: K-point and hill size in half-metres, base points and meter value in tenths. -/
structure HillConsts where
  kPoint : Nat := 0
  hillSize : Nat := 0
  basePoints : Nat := 0
  meterValue : Nat := 0
  deriving DecidableEq, Repr, Inhabited

/-- GATES: gate count, spacing in centimetres, gate factor in tenths per metre. -/
structure GatesConsts where
  count : Nat := 0
  spacing : Nat := 0
  factor : Nat := 0
  deriving DecidableEq, Repr, Inhabited

/-- WIND: factors in tenths per m/s, pre-window in milliseconds. -/
structure WindConsts where
  headFactor : Nat := 0
  tailFactor : Nat := 0
  minMasts : Nat := 0
  minSamples : Nat := 0
  preWindowMs : Nat := 0
  deriving DecidableEq, Repr, Inhabited

/-- CORRIDOR: limits in cm/s, window and settle time in seconds. -/
structure CorridorConsts where
  xMin : Int := 0
  xMax : Int := 0
  yMax : Nat := 0
  windowS : Nat := 0
  settleS : Nat := 0
  minMasts : Nat := 0
  deriving DecidableEq, Repr, Inhabited

/-- CYCLE: ready time and green window in seconds, leave grace in milliseconds, backlog limit. -/
structure CycleConsts where
  readyS : Nat := 0
  greenS : Nat := 0
  graceMs : Nat := 0
  backlogLimit : Nat := 0
  deriving DecidableEq, Repr, Inhabited

/-- FLIGHT: limits in seconds, pairing window in milliseconds. -/
structure FlightConsts where
  inrunS : Nat := 0
  flightS : Nat := 0
  viewS : Nat := 0
  pairingMs : Nat := 0
  gatherS : Nat := 0
  deriving DecidableEq, Repr, Inhabited

/-- EDGE: barrier spacing in millimetres, speeds in tenths of km/h. -/
structure EdgeConsts where
  spacingMm : Nat := 0
  speedMin : Nat := 0
  speedMax : Nat := 0
  deriving DecidableEq, Repr, Inhabited

/-- BOARD: the panel's size and active area, and the page times in seconds. -/
structure BoardConsts where
  colsTotal : Nat := 0
  colStart : Nat := 0
  colEnd : Nat := 0
  rowsTotal : Nat := 0
  rowStart : Nat := 0
  rowEnd : Nat := 0
  liveHoldS : Nat := 0
  resultS : Nat := 0
  standingsS : Nat := 0
  deriving DecidableEq, Repr, Inhabited

/-- The hill constants held after a load that ended in RUN (R25). Before it, and in INVALID, nothing is
held: every field is zero or empty, and no active block reads it. -/
structure Constants where
  hill : HillConsts := {}
  gates : GatesConsts := {}
  wind : WindConsts := {}
  corridor : CorridorConsts := {}
  cycle : CycleConsts := {}
  flight : FlightConsts := {}
  edge : EdgeConsts := {}
  stations : List StationEntry := []
  masts : List MastEntry := []
  spans : List SpanEntry := []
  qualifiers : Nat := 0
  board : BoardConsts := {}
  sensorAddress : Nat := 0
  deriving DecidableEq, Repr, Inhabited

/-! ## Station identity and the constants loader (chapter 2) -/

/-- The station state (R26). MUTED remembers the state it came from: `muted true` from RUN, `muted false`
from INVALID. -/
inductive StationState
  | loading | run | invalid
  | muted (fromRun : Bool)
  deriving DecidableEq, Repr, Inhabited

/-! ## The two-wire buses (sections 2.2 and 6.2) -/

/-- One thing that the part does on a two-wire bus (R21, section 6.2, R95, R99): a start, repeated start or stop
condition, an address byte in the read or the write direction, the memory address of an EEPROM, a byte sent, a byte
read, or a clock pulse with the data line released. -/
inductive BusItem
  | start
  | repeatedStart
  | address (address : Nat) (read : Bool)
  | memoryAddress (address : Nat)
  | send (value : Byte)
  | receive
  | stop
  | clockPulse
  deriving DecidableEq, Repr, Inhabited

/-- How the loader opens a read of the image: the EEPROM at device address 0x51, from memory address 0 (R21). That the
memory address goes out first in the write direction: PRESUMED, log entry 57. -/
def eepromOpening : List BusItem :=
  [.start, .address 0x51 false, .memoryAddress 0, .repeatedStart, .address 0x51 true]

/-- What the constants loader holds (R19 to R26). -/
structure Loader where
  /-- The station number sampled from the straps (R19). -/
  station : Nat := 0
  state : StationState := .loading
  /-- Failed reads in a row (R21). -/
  failedReads : Nat := 0
  /-- The end of the 5 ms wait after a failed read (R21). -/
  retryAt : Option Tick := none
  /-- The output on the EEPROM bus: what the read under way has sent, or what the last one sent (R21). Empty while RESET
  is asserted, which releases the bus (R20). -/
  eeprom : List BusItem := []
  digest : Word16 := 0
  consts : Constants := {}
  /-- The role set of the station's own STATIONS entry (R25); empty unless the load ended in RUN. -/
  roles : RoleSet := {}
  mast : Nat := 0
  span : Nat := 0
  deriving DecidableEq, Repr, Inhabited

/-- A record of the fault latch (R32). -/
structure FaultRecord where
  kind : FaultKind
  time : Tick
  detail : Nat
  deriving DecidableEq, Repr, Inhabited

/-- The fault latch and its overflow mark (R32). -/
structure FaultLatch where
  record : Option FaultRecord := none
  overflow : Bool := false
  deriving DecidableEq, Repr, Inhabited

/-- Presence of a roster entry (section 2.5). -/
inductive Presence
  | absent | present | silent
  deriving DecidableEq, Repr, Inhabited

/-- What the latest STATUS of a station gave: its payload and its header event number (R28). -/
structure StatusHeard where
  payload : StatusPayload
  event : Nat
  deriving DecidableEq, Repr, Inhabited

/-- One roster entry (section 2.5). -/
structure RosterEntry where
  presence : Presence := .absent
  lastHeard : Option Tick := none
  status : Option StatusHeard := none
  deriving DecidableEq, Repr, Inhabited

/-! ## The line interface (chapter 1) -/

/-- A frame waiting in a transmit queue: its content, the event number of its header, fixed at the offer
(R9), and its event time where its kind carries one (R7). -/
structure QueuedFrame where
  body : Body
  event : Nat
  eventTime : Option Tick
  deriving DecidableEq, Repr, Inhabited

/-- The receive assembler (R2, R3): the characters gathered so far, and the mark of a frame whose length
byte was above 32 and whose characters are ignored until the line is idle. -/
structure RxAssembler where
  gathered : List Byte := []
  skipping : Bool := false
  deriving DecidableEq, Repr, Inhabited

/-- The line interface's state (R18). -/
structure LineState where
  urgent : List QueuedFrame := []
  routine : List QueuedFrame := []
  /-- The frame in transmission, with the age computed and the stamp taken at its first start bit. -/
  tx : Option LineFrame := none
  yieldMark : Bool := false
  eventNumber : Nat := 0
  hung : Bool := false
  /-- After a hung condition: no start before 1 ms plus the candidate's gap (R15; log entry 14). -/
  resumeGuard : Bool := false
  /-- The quiet time in microseconds (R1). -/
  quietUs : Nat := 0
  /-- The busy period under way, in microseconds since its first edge; none while the line is idle (R1). -/
  busyUs : Option Nat := none
  rx : RxAssembler := {}
  /-- When the next STATUS is offered (R16). -/
  nextStatus : Option Tick := none
  /-- When the next CORRIDOR is offered (R17). -/
  nextCorridor : Option Tick := none
  deriving DecidableEq, Repr, Inhabited

/-! ## Scoring parts and attempt records (chapters 3 and 8) -/

/-- The collection of mast means (section 8.1). -/
inductive GatherState
  | notOpen | opened | done
  deriving DecidableEq, Repr, Inhabited

/-- The stage of a scoring part (section 8.1). -/
inductive Stage
  | waiting | sent | published
  deriving DecidableEq, Repr, Inhabited

/-- An entry of the means list (R134): the mean is absent when the mast reported NONE. -/
structure MeanEntry where
  mast : Nat
  mean : Option Int
  used : Nat
  partialMean : Bool
  deriving DecidableEq, Repr, Inhabited

/-- The scoring part of a jury record (section 8.1). The distance status is KNOWN when `distance` is
present. -/
structure ScoringPart where
  distance : Option (Nat × Quality) := none
  gather : GatherState := .notOpen
  deadline : Option Tick := none
  means : List MeanEntry := []
  marks : Seats (Option Nat) := ⟨none, none, none, none, none⟩
  force : Bool := false
  stage : Stage := .waiting
  refGateUsed : Option Nat := none
  computed : Option ResultPayload := none
  revision : Option Nat := none
  copy : Option ResultPayload := none
  deriving DecidableEq, Repr, Inhabited

/-- The states of an attempt record (section 3.3). -/
inductive AttemptState
  | called | green | onInrun | airborne | landed | published | void
  deriving DecidableEq, Repr, Inhabited

/-- The flags of an attempt record (section 3.2). -/
structure AttemptFlags where
  leftOnHold : Bool := false
  noTakeoff : Bool := false
  lateContact : Bool := false
  timeSaturated : Bool := false
  missed : Bool := false
  deriving DecidableEq, Repr, Inhabited

/-- An attempt record (section 3.2). -/
structure AttemptRecord where
  hdr : AttemptHdr
  state : AttemptState := .called
  created : Tick := 0
  juryGate : Option Nat := none
  gateUsed : Option Nat := none
  coach : CoachState := .none
  requested : Option Nat := none
  greenCount : Nat := 0
  leaveTime : Option Tick := none
  takeoffTime : Option Tick := none
  landingTime : Option Tick := none
  speed : Option Nat := none
  quality : Option Quality := none
  distance : Option Nat := none
  voidReason : Option VoidReason := none
  revision : Option Nat := none
  flags : AttemptFlags := {}
  /-- R43 forced the record to LANDED out of GREEN, so R55 leaves it out of the backlog count. -/
  forcedFromGreen : Bool := false
  scoring : Option ScoringPart := none
  deriving DecidableEq, Repr, Inhabited

/-! ## The start sequencer (chapter 4) -/

/-- A debounced barrier input (R79, R83): BROKEN since its break's instant. -/
inductive BarrierState
  | clear
  | broken (since : Tick)
  | stuck
  deriving DecidableEq, Repr, Inhabited

/-- An entry of the hold list (R59). -/
structure Hold where
  cause : HoldCause
  raisedAt : Tick
  source : Nat
  detail : Nat
  deriving DecidableEq, Repr, Inhabited

/-- An entry of the corridor table (R73). `aged` records that its 3000 ms have been taken as passed. -/
structure CorridorEntry where
  mast : Nat
  sender : Nat
  meanX : Int
  meanY : Int
  used : Nat
  flags : CorridorFlags
  arrival : Tick
  aged : Bool := false
  deriving DecidableEq, Repr, Inhabited

/-- A kept frame: its content and its event time (R69, R89, R120). -/
structure KeptFrame where
  body : Body
  eventTime : Option Tick
  deriving DecidableEq, Repr, Inhabited

/-- The start sequencer's state (section 4.1). Lamps and countdown follow the phase (R58); `shown` is the
countdown's whole seconds. -/
structure StartState where
  phase : Phase := .idle
  current : Option AttemptHdr := none
  juryGate : Nat := 0
  gate : Nat := 0
  goMark : Bool := false
  greenCount : Nat := 0
  readyAt : Option Tick := none
  windowAt : Option Tick := none
  graceAt : Option Tick := none
  coach : CoachState := .none
  requested : Option Nat := none
  keptPhase : Option KeptFrame := none
  keptLeave : Option KeptFrame := none
  keptVoid : Option KeptFrame := none
  holds : List Hold := []
  corridor : List CorridorEntry := []
  settleAt : Option Tick := none
  failed : LampSet := {}
  barrier : BarrierState := .clear
  rejectUntil : Option Tick := none
  backlog : Nat := 0
  shown : Nat := 0
  deriving DecidableEq, Repr, Inhabited

/-! ## The edge timer (chapter 5) -/

/-- The run record (section 5.1): the A time holds the break's instants on the station clock and on the
microsecond timer. -/
structure RunRecord where
  hdr : AttemptHdr
  aTime : Option (Tick × Micros) := none
  bTaken : Bool := false
  tTaken : Bool := false
  speedOffered : Bool := false
  deriving DecidableEq, Repr, Inhabited

/-- The edge timer's state (section 5.1). R90 has the microsecond timer stopped from the cold reset through LOADING, and
does not say at what count: 0, DESIGN CHOICE, log entry 6. -/
structure EdgeState where
  micros : Micros := 0
  a : BarrierState := .clear
  b : BarrierState := .clear
  t : BarrierState := .clear
  run : Option RunRecord := none
  keptSpeed : Option KeptFrame := none
  keptTakeoff : Option KeptFrame := none
  deriving DecidableEq, Repr, Inhabited

/-! ## The wind unit (chapter 6) -/

/-- The state of the sensor bus (section 6.1). BUSY tells a poll from a console transfer; RELEASING tells
whether the burst was ordered by SENSOR_RELEASE, and whether the bus was HUNG before it. -/
inductive BusState
  | free
  | busyPoll
  | busyTransfer
  | releasing (ordered fromHung : Bool)
  | hung
  deriving DecidableEq, Repr, Inhabited

/-- One wind sample (R100). -/
structure Sample where
  time : Tick
  x : Int
  y : Int
  held : Bool
  deriving DecidableEq, Repr, Inhabited

/-- A sensor command taken and not yet answered (R97). -/
inductive SensorOp
  | mode (mode : MasterSelect)
  | transfer (address readCount : Nat) (write : List Byte)
  | release
  deriving DecidableEq, Repr, Inhabited

/-- A mean record (R109): the copy is present until the MASTMEAN is delivered at echo. -/
structure MeanRecord where
  attempt : Nat
  copy : Option Body
  delivered : Bool
  deriving DecidableEq, Repr, Inhabited

/-- The wind unit's state (section 6.1). `dataLow` is the level of the sensor data pin as last reported. `sends` is the
output on the sensor bus: what the transaction or the burst under way sends, or what the last one sent. -/
structure WindState where
  master : MasterSelect := .auto
  bus : BusState := .free
  nextPoll : Option Tick := none
  lastSequence : Option Byte := none
  lastGood : Option (Int × Int) := none
  heldCount : Nat := 0
  goodCount : Nat := 0
  noAnswer : Nat := 0
  /-- SENSOR_MISSING has been reported, and no poll outcome has set the no-answer count to 0 since (R93). -/
  missingReported : Bool := false
  stable : Bool := false
  ring : List Sample := []
  fifo : List Byte := []
  pendingOp : Option SensorOp := none
  means : List MeanRecord := []
  dataLow : Bool := false
  sends : List BusItem := []
  deriving DecidableEq, Repr, Inhabited

/-! ## The span unit (chapter 7) -/

/-- The view claim of a flight record (section 7.1). -/
inductive ClaimState
  | none | opened | ended
  deriving DecidableEq, Repr, Inhabited

/-- The flight record (section 7.1), with the moment of its creation (R118). -/
structure FlightRecord where
  attempt : Nat
  created : Tick := 0
  left : Bool := false
  right : Bool := false
  claim : ClaimState := .none
  claimStart : Tick := 0
  viewLimitAt : Tick := 0
  deriving DecidableEq, Repr, Inhabited

/-- The span unit's state (section 7.1). `head` holds the characters of a head record being assembled. -/
structure SpanState where
  heard : Bool := true
  lastRecord : Tick := 0
  presence : Bool := false
  presenceChanged : Tick := 0
  flight : Option FlightRecord := none
  /-- IN_VIEW, VIEW_LOST and CONTACT copies, in the order of their first offers (R120). -/
  kept : List KeptFrame := []
  head : List Byte := []
  deriving DecidableEq, Repr, Inhabited

/-! ## The landing resolver (chapter 7) -/

/-- The phase of a landing context (section 7.6). -/
inductive ContextPhase
  | inrunWait | flightWait | pairing | closing | sent
  deriving DecidableEq, Repr, Inhabited

/-- The flight timer of a context: running to an expiry, suspended with the ticks remaining, or stopped. -/
inductive FlightTimer
  | stopped
  | running (expiry : Tick)
  | suspended (remaining : Tick)
  deriving DecidableEq, Repr, Inhabited

/-- A claim of the claim set (R125). -/
structure Claim where
  station : Nat
  span : Nat
  limit : Tick
  deriving DecidableEq, Repr, Inhabited

/-- A report of the contact set (R126). -/
structure ContactReport where
  span : Nat
  track : Track
  position : Nat
  time : Tick
  deriving DecidableEq, Repr, Inhabited

/-- A landing context (section 7.6). -/
structure LandingContext where
  attempt : Nat
  phase : ContextPhase := .inrunWait
  inrunAt : Tick := 0
  timer : FlightTimer := .stopped
  claims : List Claim := []
  /-- The span numbers that have claimed in this attempt. -/
  claimed : List Nat := []
  contacts : List ContactReport := []
  anchor : Tick := 0
  resolveAt : Tick := 0
  /-- The flight expiry held as the landing time in CLOSING. -/
  landingTime : Tick := 0
  late : Bool := false
  manual : Option Nat := none
  copy : Option KeptFrame := none
  deriving DecidableEq, Repr, Inhabited

/-! ## The scoring unit's own state (section 8.1) -/

/-- A VOID frame kept until its echo (R149). -/
structure VoidCopy where
  hdr : AttemptHdr
  reason : VoidReason
  deriving DecidableEq, Repr, Inhabited

/-- The scoring unit's state beside the scoring parts. -/
structure ScoringState where
  mode : Option EventMode := none
  lastMarked : Seats (Option Nat) := ⟨none, none, none, none, none⟩
  voidCopies : List VoidCopy := []
  deriving DecidableEq, Repr, Inhabited

/-! ## The standings unit (chapter 9) -/

/-- The pending call (section 9.1). -/
structure PendingCall where
  attempt : Nat
  bib : Nat
  forerunner : Bool
  lapseAt : Tick
  deriving DecidableEq, Repr, Inhabited

/-- A round status of a results-list entry (R166). -/
inductive RoundStatus
  | none
  | ok (total attempt revision : Nat)
  | dsq (attempt : Nat)
  | dns (attempt : Nat)
  | withdrawn (attempt : Nat)
  deriving DecidableEq, Repr, Inhabited

/-- The round statuses of an entry, rounds 1 to 4. -/
structure FourRounds where
  r1 : RoundStatus := .none
  r2 : RoundStatus := .none
  r3 : RoundStatus := .none
  r4 : RoundStatus := .none
  deriving DecidableEq, Repr, Inhabited

/-- An entry of the results list (R166). -/
structure ResultsEntry where
  bib : Nat
  rounds : FourRounds := {}
  deriving DecidableEq, Repr, Inhabited

/-- The round record (section 9.1). -/
structure RoundRecord where
  number : Nat := 0
  state : RoundState := .closed
  refGate : Option Nat := none
  deriving DecidableEq, Repr, Inhabited

/-- The standings unit's state (section 9.1). The results list stands in the order of R168. -/
structure StandingsState where
  startList : List Nat := []
  pendingCall : Option PendingCall := none
  lastAttempt : Option Nat := none
  roundsPlanned : Option Nat := none
  round : RoundRecord := {}
  eventCopy : Option Body := none
  roundCopies : List Body := []
  results : List ResultsEntry := []
  deriving DecidableEq, Repr, Inhabited

/-! ## The board unit (chapter 10) -/

/-- What a page shows (section 10.1). A LIVE page keeps the phase of the latest PHASE taken, and of the
latest PHASE GREEN the seconds remaining and the stamp. -/
inductive Page
  | live (attempt : Nat) (phase : Phase) (green : Option (Nat × Tick))
  | hold
  | result (r : ResultPayload)
  | text (chars : List Byte)
  | standings (index : Nat)
  deriving DecidableEq, Repr, Inhabited

/-- A page entry: its page and its duration in ticks, absent when open. -/
structure PageEntry where
  page : Page
  duration : Option Nat
  deriving DecidableEq, Repr, Inhabited

/-- The current page with the end of its time, absent when open. -/
structure CurrentPage where
  entry : PageEntry
  endsAt : Option Tick
  deriving DecidableEq, Repr, Inhabited

/-- One thing that the panel scanner does at the panel scan outputs (R181): blank asserted or released, the dot of one
column sent on column data, latch asserted or released, and row select set to a row. -/
inductive ScanItem
  | blank (asserted : Bool)
  | column (dot : Bool)
  | latch (asserted : Bool)
  | rowSelect (row : Nat)
  deriving DecidableEq, Repr, Inhabited

/-- The panel scan outputs (section 10.6): the row selected, the dots sent on column data since blank was last asserted,
and the levels of latch and blank. -/
structure PanelOutputs where
  rowSelect : Nat := 0
  columnData : List Bool := []
  latch : Bool := false
  blank : Bool := true
  deriving DecidableEq, Repr, Inhabited

/-- The board unit's state (section 10.1). `panel` holds the panel scan outputs, and `scan` what the row period under way
does at them, in order (log entry 61). `shownSeconds` is what line 2 of a current LIVE page in GREEN shows. -/
structure BoardState where
  queue : List PageEntry := []
  current : Option CurrentPage := none
  knownHolds : CauseSet := {}
  knownAttempt : Option Nat := none
  front : List (List Byte) := List.replicate 6 (List.replicate 32 0x20)
  back : List (List Byte) := List.replicate 6 (List.replicate 32 0x20)
  ready : Bool := false
  shownSeconds : Option Nat := none
  nextRow : Option Tick := none
  row : Nat := 0
  panel : PanelOutputs := {}
  scan : List ScanItem := []
  deriving DecidableEq, Repr, Inhabited

/-! ## Console port and judge port (chapter 11) -/

/-- A set of notice classes (R186). -/
structure ClassSet where
  cycle : Bool := false
  attempt : Bool := false
  wind : Bool := false
  distance : Bool := false
  score : Bool := false
  fault : Bool := false
  deriving DecidableEq, Repr, Inhabited

/-- The notices of section 12.3, with the contents that their owning rules give them. -/
inductive NoticeBody
  -- CYCLE
  | frameIgnored (kind sender : Nat)
  | callIgnored (attempt : Nat) (phase : Phase)
  | goIgnored
  | gateIgnored
  | holdRaised (cause : HoldCause) (source detail : Nat)
  | holdReleased (cause : HoldCause) (source detail : Nat)
  | leaveIgnored
  | strayLeave
  | coachRefused (phase : Phase) (coach : CoachState) (steps : Nat)
  | callSent (attempt bib : Nat)
  | callTaken (attempt bib : Nat)
  | callLapsed (attempt bib : Nat)
  | repeatLost (bib : Nat)
  | startListHead (bib : Nat)
  | roundClosing (round : Nat)
  | roundClosed (round discarded : Nat)
  | roundOpen (round length : Nat)
  -- ATTEMPT
  | attemptState (hdr : AttemptHdr) (state : AttemptState) (missed : Bool)
  | attemptIgnored (attempt kind sender : Nat)
  | attemptMismatch (record : AttemptHdr) (kind sender bib round : Nat)
  | strayBreak (barrier : EdgeBarrier) (instant : Tick)
  | breakIgnored (attempt : Nat) (barrier : EdgeBarrier)
  | speedMissing (attempt : Nat)
  | speedImplausible (attempt : Nat) (micros : Option Micros)
  -- WIND
  | corridorIgnored
  | mastStability (mast : Nat) (stable : Bool)
  | sensorBus (mast : Nat) (bus : BusState)
  | meanSent (attempt : Nat) (mean : Option Int) (used : Nat) (partialMean : Bool)
  | meanNotSent (attempt : Nat)
  -- DISTANCE
  | headLink (span : Nat) (heard : Bool)
  | strayContact (track : Track) (offset : Nat) (stamp : Tick)
  | contactOutOfSpan (attempt : Nat) (track : Track) (offset : Nat)
  | landingResolved (attempt distance : Nat) (quality : Quality) (left right : Option ContactReport)
      (notUsed : Nat)
  | contactLate (attempt : Nat) (report : ContactReport)
  | contactDiscarded (attempt : Nat) (report : ContactReport)
  | takeoffLate (attempt : Nat)
  | landingAbandoned (attempt : Nat)
  | landingUntracked (attempt kind sender : Nat)
  | spanMismatch (kind sender span : Nat)
  | manualTaken (attempt distance : Nat) (phase : Option ContextPhase)
  -- SCORE
  | meanIgnored (attempt mast reason : Nat)
  | gatherDone (attempt entries : Nat) (deadline : Bool)
  | markTaken (attempt seat mark : Nat) (replaced : Bool)
  | markRefused (seat mark cause : Nat)
  | resultSent (attempt revision total : Nat)
  | voidSent (attempt : Nat) (reason : VoidReason)
  | resultsFull (bib : Nat)
  | pageDropped (kind which : Nat)
  -- FAULT
  | stationHeard (station : Nat)
  | stationChanged (station : Nat)
  | stationSilent (station : Nat)
  | faultReported (kind : FaultKind) (detail : Nat)
  deriving DecidableEq, Repr, Inhabited

/-- A notice, with the station clock at its raise (section 12.3). -/
structure Notice where
  time : Tick
  body : NoticeBody
  deriving DecidableEq, Repr, Inhabited

/-- Reply codes (section 12.3). -/
inductive ReplyCode
  | ok | state | range | role | full | notFound | event
  deriving DecidableEq, Repr, Inhabited

/-- A record the console transmitter sends: kind byte and payload. -/
structure ConsoleRecord where
  kind : Nat
  payload : List Byte
  deriving DecidableEq, Repr, Inhabited

/-- A reply: command kind, code, what follows the code, and the report records of a STATUS_QUERY, which
go out with it as one unit (R185, R186). -/
structure Reply where
  command : Nat
  code : ReplyCode
  extra : List Byte := []
  reports : List ConsoleRecord := []
  deriving DecidableEq, Repr, Inhabited

/-- The console port's state (R189). `gathered` is the partial record of the receive assembler,
`skipping` its mark of a record whose length byte was above 60, `rxQuietUs` the microseconds for which console
RX has been quiet (R184); `sending` is the record in transmission, `unit` the records that go out after it
before any other. -/
structure ConsoleState where
  gathered : List Byte := []
  skipping : Bool := false
  rxQuietUs : Nat := 0
  replies : List Reply := []
  notices : List Notice := []
  mask : ClassSet := { fault := true }
  overrun : Bool := false
  commandLost : Bool := false
  sending : Option ConsoleRecord := none
  unit : List ConsoleRecord := []
  deriving DecidableEq, Repr, Inhabited

/-- A seat's lamp answer (R188). -/
inductive LampAnswer
  | off | accept | reject
  deriving DecidableEq, Repr, Inhabited

/-- One seat channel of the judge port (R188). -/
structure SeatChannel where
  gathered : List Byte := []
  answer : LampAnswer := .off
  endsAt : Tick := 0
  toggleAt : Tick := 0
  lit : Bool := false
  deriving DecidableEq, Repr, Inhabited

/-- The judge port's state (R188): its five seat channels. -/
structure JudgeState where
  seats : Seats SeatChannel := ⟨{}, {}, {}, {}, {}⟩
  deriving DecidableEq, Repr, Inhabited

/-! ## The station -/

/-- The state of one FK-318, and the queue of the commands waiting to be taken. -/
structure State where
  /-- The commands waiting, first in, first out (the model's own). -/
  pending : List Instr := []
  /-- RESET is asserted (R20). -/
  resetAsserted : Bool := false
  /-- The station clock (R7). -/
  clock : Tick := 0
  /-- Microseconds passed in the current tick, 0 to 99 (the model's own). -/
  subTick : Nat := 0
  loader : Loader := {}
  latch : FaultLatch := {}
  /-- The roster: sixteen entries, indexed by station number. -/
  roster : List RosterEntry := List.replicate 16 {}
  line : LineState := {}
  /-- The attempt table: the records held, at most eight (R35). -/
  table : List AttemptRecord := []
  start : StartState := {}
  edge : EdgeState := {}
  wind : WindState := {}
  span : SpanState := {}
  /-- The landing resolver's contexts. -/
  contexts : List LandingContext := []
  scoring : ScoringState := {}
  standings : StandingsState := {}
  board : BoardState := {}
  console : ConsoleState := {}
  judge : JudgeState := {}
  deriving DecidableEq, Repr, Inhabited

/-- No command of this block ends in a fault: the manual gives every command of the table an effect, and
what goes wrong on the hill is recorded in the fault latch (R32), which is state. -/
inductive Fault
  deriving DecidableEq, Repr

/-- Why a command is refused. -/
inductive Refusal
  /-- Raised by `exec` alone, for a command that has no meaning yet; no command is left so. Safe: the
  model stops where the part goes on. -/
  | notModelled (mnemonic : String)
  deriving DecidableEq, Repr

/-- What a command answers. -/
abbrev Result := Host.Outcome State Fault Refusal

/-- The machine right after a cold reset (R20): RESET has just been released with the straps at 0, the
station is LOADING, its clock is 0, every table, queue and list is empty, and the read of the image has begun. -/
def State.reset : State := { loader := { eeprom := eepromOpening } }

end Sys2Proof.Machine
end

