-- ==== Sys2Proof/Machine/Arith.lean ====
section
/-! DEFINITION. Integer arithmetic, byte order, station-clock comparison and the CRC: the conventions of
the opening file and R2, R7. -/

namespace Sys2Proof.Machine

open Sys2Proof

/-! ## Rounding (opening file, Integer arithmetic) -/

/-- round-half-up(a / b), for quantities that cannot be negative. -/
def roundHalfUp (a b : Nat) : Nat := (2 * a + b) / (2 * b)

/-- round-half-away(a / b): a half rounds away from zero. -/
def roundHalfAway (a : Int) (b : Nat) : Int :=
  if 0 ≤ a then (roundHalfUp a.toNat b : Nat) else -((roundHalfUp (-a).toNat b : Nat) : Int)

/-! ## Byte order: little-endian, two's complement (opening file, Byte order) -/

/-- One byte. -/
def byte (n : Nat) : Byte := BitVec.ofNat 8 n

/-- A 16-bit number, low byte first. -/
def le16 (n : Nat) : List Byte := [byte n, byte (n / 256)]

/-- A signed 16-bit number in two's complement, low byte first. -/
def le16s (n : Int) : List Byte := le16 (BitVec.ofInt 16 n).toNat

/-- A 32-bit number, low byte first. -/
def le32 (n : Nat) : List Byte := [byte n, byte (n / 256), byte (n / 65536), byte (n / 16777216)]

/-- The number that two bytes give, the low one first. -/
def u16 (lo hi : Byte) : Nat := lo.toNat + 256 * hi.toNat

/-- The signed number that two bytes give, the low one first. -/
def s16 (lo hi : Byte) : Int := (BitVec.ofNat 16 (u16 lo hi)).toInt

/-- A truth value as a byte: 1 for yes, 0 for no. -/
def boolByte (b : Bool) : Byte := if b then 1 else 0

/-- A field coded 0 or 1; no other code is given. -/
def byteBool (b : Byte) : Option Bool := if b = 0 then some false else if b = 1 then some true else none

/-- Whether an integer fits a signed 16-bit field. -/
def fitsS16 (n : Int) : Bool := -32768 ≤ n && n ≤ 32767

/-! ## Station-clock times (R7) -/

/-- The signed difference `now − t` of two station-clock times, modulo 2³² (R7). -/
def since (now t : Tick) : Int := (now - t).toInt

/-- The time `t` lies at or before the present. -/
def reached (now t : Tick) : Bool := 0 ≤ since now t

/-- The time `a` lies before the time `b`. -/
def before (a b : Tick) : Bool := 0 < since b a

/-- The optional time is set, and lies at or before the present: its timer has run out. -/
def expired (now : Tick) (t : Option Tick) : Bool :=
  match t with
  | none => false
  | some e => reached now e

/-- A count of ticks. -/
def ticks (n : Nat) : Tick := BitVec.ofNat 32 n

/-- The microseconds of a tick of the station clock (R7). -/
def tickUs : Nat := 100

/-- Seconds in ticks of 100 µs. -/
def secondsT (s : Nat) : Tick := ticks (s * 10000)

/-- Milliseconds in ticks of 100 µs. -/
def millisT (ms : Nat) : Tick := ticks (ms * 10)

/-! ## The CRC of frames and of the constants image (R2) -/

/-- One bit of the CRC, with generator x¹⁶ + x¹² + x⁵ + 1. -/
def crcBit (crc : Word16) : Word16 :=
  if crc.msb then (crc <<< 1) ^^^ 0x1021#16 else crc <<< 1

/-- One byte, entered most significant bit first. -/
def crcByte (crc : Word16) (b : Byte) : Word16 :=
  Nat.repeat crcBit 8 (crc ^^^ (b.zeroExtend 16 <<< 8))

/-- The CRC of a list of bytes: initial value 0xFFFF, no final inversion. -/
def crc16 (bytes : List Byte) : Word16 := bytes.foldl crcByte 0xFFFF#16

end Sys2Proof.Machine
end

