-- ==== Sys2Proof/Machine/Flags.lean ====
section
/-! DEFINITION. Sets of flags: their bytes (chapter 12: a flag byte lists its flags from bit 0 upward)
and the sets of roles, hold causes, lamps and notice classes. -/

namespace Sys2Proof.Machine

open Sys2Proof

/-- The number whose bits are the given flags, bit 0 first. -/
def packNat : List Bool → Nat
  | [] => 0
  | b :: bs => (if b then 1 else 0) + 2 * packNat bs

/-- A flag byte, bit 0 first. -/
def packByte (flags : List Bool) : Byte := byte (packNat flags)

/-- The first `n` flags of a byte, or none where a higher, undefined bit is set (R190). -/
def unpackByte (n : Nat) (b : Byte) : Option (List Bool) :=
  if b.toNat < 2 ^ n then some ((List.range n).map b.getLsbD) else none

end Sys2Proof.Machine

namespace Sys2Proof

open Sys2Proof.Machine

/-! ## Role sets -/

def RoleSet.toFlags (r : RoleSet) : List Bool := [r.start, r.edge, r.mast, r.span, r.jury, r.board]

def RoleSet.toByte (r : RoleSet) : Byte := packByte r.toFlags

def RoleSet.ofFlags : List Bool → Option RoleSet
  | [s, e, m, sp, j, b] => some ⟨s, e, m, sp, j, b⟩
  | _ => none

/-- A role byte; none where an undefined bit is set. -/
def RoleSet.ofByte (b : Byte) : Option RoleSet := (unpackByte 6 b).bind RoleSet.ofFlags

/-- The set holds at least one role (R23). -/
def RoleSet.nonempty (r : RoleSet) : Bool := r.start || r.edge || r.mast || r.span || r.jury || r.board

/-! ## Hold causes -/

/-- The causes in the order of R59. -/
def HoldCause.all : List HoldCause :=
  [.wind, .jury, .track, .coach, .station, .config, .backlog, .lamp]

/-- The bit number of a cause in the hold cause set (chapter 12). -/
def HoldCause.code : HoldCause → Nat
  | .wind => 0 | .jury => 1 | .track => 2 | .coach => 3
  | .station => 4 | .config => 5 | .backlog => 6 | .lamp => 7

/-- Whether a cause stands in a set. -/
def CauseSet.has (s : CauseSet) : HoldCause → Bool
  | .wind => s.wind | .jury => s.jury | .track => s.track | .coach => s.coach
  | .station => s.station | .config => s.config | .backlog => s.backlog | .lamp => s.lamp

/-- The causes standing, in the order of R59. -/
def CauseSet.toList (s : CauseSet) : List HoldCause := HoldCause.all.filter s.has

def CauseSet.isEmpty (s : CauseSet) : Bool := s.toList.isEmpty

def CauseSet.toFlags (s : CauseSet) : List Bool := HoldCause.all.map s.has

def CauseSet.toByte (s : CauseSet) : Byte := packByte s.toFlags

def CauseSet.ofFlags : List Bool → Option CauseSet
  | [w, j, t, c, s, f, b, l] => some ⟨w, j, t, c, s, f, b, l⟩
  | _ => none

def CauseSet.ofByte (b : Byte) : Option CauseSet := (unpackByte 8 b).bind CauseSet.ofFlags

/-! ## Lamps -/

def Lamp.code : Lamp → Nat
  | .red => 0 | .amber => 1 | .green => 2

def LampSet.has (s : LampSet) : Lamp → Bool
  | .red => s.red | .amber => s.amber | .green => s.green

def LampSet.insert (s : LampSet) : Lamp → LampSet
  | .red => { s with red := true }
  | .amber => { s with amber := true }
  | .green => { s with green := true }

def LampSet.isEmpty (s : LampSet) : Bool := !(s.red || s.amber || s.green)

def LampSet.toByte (s : LampSet) : Byte := packByte [s.red, s.amber, s.green]

/-! ## Frame flags -/

def CorridorFlags.toByte (f : CorridorFlags) : Byte := packByte [f.held, f.stale, f.service]

def CorridorFlags.ofByte (b : Byte) : Option CorridorFlags :=
  match unpackByte 3 b with
  | some [h, s, v] => some ⟨h, s, v⟩
  | _ => none

def ResultFlags.toByte (f : ResultFlags) : Byte :=
  packByte [f.trial, f.windUnavailable, f.styleScaled, f.coachRequest, f.coachQualified,
    f.manualDistance, f.timeSaturated, f.partialWind]

def ResultFlags.ofByte (b : Byte) : Option ResultFlags :=
  match unpackByte 8 b with
  | some [t, w, s, c, q, m, x, p] => some ⟨t, w, s, c, q, m, x, p⟩
  | _ => none

/-! ## Seats -/

/-- The value of a seat 1 to 5; seat 5's for any other number. -/
def Seats.get {α : Type} (s : Seats α) (seat : Nat) : α :=
  match seat with
  | 1 => s.s1
  | 2 => s.s2
  | 3 => s.s3
  | 4 => s.s4
  | _ => s.s5

/-- The seats with one of them, 1 to 5, changed; a number outside 1 to 5 changes none. -/
def Seats.set {α : Type} (s : Seats α) (seat : Nat) (v : α) : Seats α :=
  match seat with
  | 1 => { s with s1 := v }
  | 2 => { s with s2 := v }
  | 3 => { s with s3 := v }
  | 4 => { s with s4 := v }
  | 5 => { s with s5 := v }
  | _ => s

def Seats.toList {α : Type} (s : Seats α) : List α := [s.s1, s.s2, s.s3, s.s4, s.s5]

/-- The marks held, in seat order. -/
def Seats.held (s : Seats (Option Nat)) : List Nat := s.toList.filterMap id

end Sys2Proof

namespace Sys2Proof.Machine

open Sys2Proof

/-- The set of causes standing in a hold list (R80). -/
def CauseSet.ofHolds (holds : List Hold) : CauseSet :=
  let has := fun c => holds.any (fun h => h.cause == c)
  ⟨has .wind, has .jury, has .track, has .coach, has .station, has .config, has .backlog, has .lamp⟩

/-! ## Notice classes (R186) -/

def ClassSet.toByte (m : ClassSet) : Byte :=
  packByte [m.cycle, m.attempt, m.wind, m.distance, m.score, m.fault]

/-- The class set of a NOTICE_MASK byte; none where a flag outside the six classes is set. -/
def ClassSet.ofByte (b : Byte) : Option ClassSet :=
  match unpackByte 6 b with
  | some [c, a, w, d, s, f] => some ⟨c, a, w, d, s, f⟩
  | _ => none

end Sys2Proof.Machine
end

