-- ==== Sys2Proof/Machine/Formats.lean ====
section
/-! DEFINITION. Hill line frames: kinds, classes, ranges and byte layouts (section 12.1, R2, R3, R9, R190),
with the encoder that a sending station uses and the decoder with every check of R3. -/

namespace Sys2Proof

open Sys2Proof.Machine

/-! ## Enumeration codes (chapter 12) -/

def Phase.all : List Phase := [.idle, .red, .amber, .green, .gone]

def Phase.code : Phase → Nat
  | .idle => 0 | .red => 1 | .amber => 2 | .green => 3 | .gone => 4

def Phase.ofCode (n : Nat) : Option Phase := Phase.all.find? (fun p => p.code == n)

def VoidReason.all : List VoidReason := [.falseStart, .late, .dns, .withdrawn, .dsq, .repeatJump]

def VoidReason.code : VoidReason → Nat
  | .falseStart => 1 | .late => 2 | .dns => 3 | .withdrawn => 4 | .dsq => 5 | .repeatJump => 6

def VoidReason.ofCode (n : Nat) : Option VoidReason := VoidReason.all.find? (fun p => p.code == n)

def Quality.all : List Quality := [.both, .one, .manual, .none]

def Quality.code : Quality → Nat
  | .both => 0 | .one => 1 | .manual => 2 | .none => 3

def Quality.ofCode (n : Nat) : Option Quality := Quality.all.find? (fun p => p.code == n)

def Condition.all : List Condition := [.ok, .degraded, .invalid]

def Condition.code : Condition → Nat
  | .ok => 0 | .degraded => 1 | .invalid => 2

def Condition.ofCode (n : Nat) : Option Condition := Condition.all.find? (fun p => p.code == n)

def FaultKind.all : List FaultKind :=
  [.lineHung, .txJabber, .txEcho, .txOverflow, .duplicateStation, .constantsInvalid, .sensorHung,
    .sensorMissing, .headFault, .barrierStuck, .lampFail, .tableEvict]

def FaultKind.code : FaultKind → Nat
  | .lineHung => 1 | .txJabber => 2 | .txEcho => 3 | .txOverflow => 4 | .duplicateStation => 5
  | .constantsInvalid => 6 | .sensorHung => 7 | .sensorMissing => 8 | .headFault => 9
  | .barrierStuck => 10 | .lampFail => 11 | .tableEvict => 12

/-- A fault kind byte: 0 is no fault. -/
def FaultKind.codeOpt : Option FaultKind → Nat
  | none => 0
  | some k => k.code

/-- The fault kind of a byte: `some none` for 0, none for a code that the table does not give. -/
def FaultKind.ofCode (n : Nat) : Option (Option FaultKind) :=
  if n = 0 then some none else (FaultKind.all.find? (fun p => p.code == n)).map some

def Track.code : Track → Nat
  | .left => 0 | .right => 1

def Track.ofCode (n : Nat) : Option Track :=
  if n = 0 then some .left else if n = 1 then some .right else none

def LostReason.all : List LostReason := [.presenceOff, .bothTracks, .viewLimit]

def LostReason.code : LostReason → Nat
  | .presenceOff => 1 | .bothTracks => 2 | .viewLimit => 3

def LostReason.ofCode (n : Nat) : Option LostReason := LostReason.all.find? (fun p => p.code == n)

def EventMode.code : EventMode → Nat
  | .competition => 0 | .training => 1

def EventMode.ofCode (n : Nat) : Option EventMode :=
  if n = 0 then some .competition else if n = 1 then some .training else none

def RoundMsg.all : List RoundMsg := [.opened, .refSet, .closed]

def RoundMsg.code : RoundMsg → Nat
  | .opened => 0 | .refSet => 1 | .closed => 2

def RoundMsg.ofCode (n : Nat) : Option RoundMsg := RoundMsg.all.find? (fun p => p.code == n)

def RoundState.all : List RoundState := [.opened, .closing, .closed]

def RoundState.code : RoundState → Nat
  | .opened => 0 | .closing => 1 | .closed => 2

def RoundState.ofCode (n : Nat) : Option RoundState := RoundState.all.find? (fun p => p.code == n)

/-! ## Kinds and classes -/

/-- The code of a frame's kind (section 12.1). -/
def Body.kind : Body → Nat
  | .status _ => 0x01
  | .corridor .. => 0x02
  | .event .. => 0x10
  | .call .. => 0x11
  | .go _ => 0x12
  | .gate .. => 0x13
  | .hold _ => 0x14
  | .round .. => 0x15
  | .text _ => 0x16
  | .phase .. => 0x20
  | .coach .. => 0x21
  | .leave .. => 0x22
  | .void .. => 0x23
  | .speed .. => 0x30
  | .takeoff .. => 0x31
  | .inView .. => 0x40
  | .viewLost .. => 0x41
  | .contact .. => 0x42
  | .landing .. => 0x50
  | .mastMean .. => 0x51
  | .result _ => 0x52

/-- The codes of the routine class (section 1.4): STATUS, CORRIDOR, RESULT, ROUND, TEXT. -/
def routineKinds : List Nat := [0x01, 0x02, 0x52, 0x15, 0x16]

/-- The codes of the frame kinds of this manual. -/
def frameKinds : List Nat :=
  [0x01, 0x02, 0x10, 0x11, 0x12, 0x13, 0x14, 0x15, 0x16, 0x20, 0x21, 0x22, 0x23, 0x30, 0x31, 0x40,
    0x41, 0x42, 0x50, 0x51, 0x52]

/-- The class of a kind: urgent (true) or routine. -/
def urgentKind (kind : Nat) : Bool := !routineKinds.contains kind

/-- A frame's class (section 1.4). -/
def Body.urgent (b : Body) : Bool := urgentKind b.kind

/-- Kinds that carry an event time (R7). -/
def Body.carriesTime : Body → Bool
  | .leave .. | .speed .. | .takeoff .. | .inView .. | .viewLost .. | .contact .. | .landing .. => true
  | _ => false

/-- The kinds of which at most one waits (R10). -/
def Body.replaces (b : Body) : Bool := b.kind == 0x01 || b.kind == 0x02

/-- The event time of a delivered frame (R8). -/
def LineHdr.eventTime (l : LineHdr) : Tick := l.stamp - l.age.zeroExtend 32

/-- The saturated mark (R8). -/
def LineHdr.saturated (l : LineHdr) : Bool := l.age == 0xFFFF

/-- The attempt header of an attempt-bearing frame. -/
def Body.hdr? : Body → Option AttemptHdr
  | .call h _ | .go h | .gate h _ _ | .phase h _ _ _ _ | .coach h _ _ _ | .leave h _ | .void h _
  | .speed h _ | .takeoff h _ | .inView h _ | .viewLost h _ _ | .contact h _ _ _
  | .landing h _ _ _ _ | .mastMean h _ _ _ _ => some h
  | .result r => some r.hdr
  | .status _ | .corridor .. | .event .. | .hold _ | .round .. | .text _ => none

/-! ## Ranges (R190) -/

/-- The ranges of the attempt header. -/
def AttemptHdr.inRange (h : AttemptHdr) : Bool :=
  1 ≤ h.attempt && h.attempt ≤ 65535 && h.bib ≤ 199 && 1 ≤ h.round && h.round ≤ 4

/-- A number lies in a range, both ends included. -/
def within (lo hi n : Nat) : Bool := lo ≤ n && n ≤ hi

/-- A character of a TEXT. -/
def textChar (b : Byte) : Bool := within 0x20 0x7E b.toNat

/-- A part of a STATUS stands exactly where its role is announced, and its fields are in range. -/
def partOk {α : Type} (role : Bool) (part : Option α) (ok : α → Bool) : Bool :=
  match part with
  | none => !role
  | some p => role && ok p

/-- The fields of a STATUS are in range, and its parts those of its roles (R190). The phase of the START part and its
current attempt are not held against each other: DESIGN CHOICE, log entry 60. The mast number and the span number have
the range 1 to 8, which section 12.1 gives them in other frames: DESIGN CHOICE, log entry 65. -/
def StatusPayload.inRange (p : StatusPayload) : Bool :=
  partOk p.roles.start p.start (fun q =>
    (match q.attempt with | none => true | some a => within 1 65535 a) && q.backlog ≤ 8) &&
  partOk p.roles.jury p.jury (fun q =>
    (match q.lastAttempt with | none => true | some a => within 1 65535 a) && q.round ≤ 4) &&
  partOk p.roles.mast p.mast (fun q => within 1 8 q.mast) &&
  partOk p.roles.span p.span (fun q => within 1 8 q.span) &&
  partOk p.roles.edge p.edge (fun _ => true)

/-- The fields of a RESULT are in range (R190). Its flags, WIND_UNAVAILABLE among them, are not held against its other
fields: DESIGN CHOICE, log entry 60. -/
def ResultPayload.inRange (r : ResultPayload) : Bool :=
  r.hdr.inRange && r.revision ≤ 15 && r.distance ≤ 600 && r.quality != .none &&
  (match r.speed with | none => true | some v => within 400 1300 v) && within 1 40 r.gateUsed &&
  (match r.wind with | none => true | some w => -4000 ≤ w && w ≤ 4000) &&
  r.marks.held.all (· ≤ 40) && fitsS16 r.distancePoints && r.stylePoints ≤ 600 &&
  fitsS16 r.gateComp && fitsS16 r.windComp && r.total ≤ 46300

/-- Every field of the payload holds a value that chapter 12 gives it (R190). Two fields that another chapter ties to
each other at the sender are not held against each other: DESIGN CHOICE, log entry 60. -/
def Body.inRange : Body → Bool
  | .status p => p.inRange
  | .corridor m x y u _ => within 1 8 m && fitsS16 x && fitsS16 y && u ≤ 100
  | .event n _ r => within 1 255 n && within 1 4 r
  | .call h g => h.inRange && within 1 40 g
  | .go h => h.inRange
  | .gate h g _ => h.inRange && within 1 40 g
  | .hold _ => true
  | .round r .opened g => within 1 4 r && g == 0
  | .round r .refSet g => within 1 4 r && within 1 40 g
  | .round r .closed g => within 1 4 r && g ≤ 40
  | .text cs => within 1 32 cs.length && cs.all textChar
  | .phase h p g sec n =>
    h.inRange && p != .idle && within 1 40 g && sec ≤ 60 && (p == .green || sec == 0) && n ≤ 255
  | .coach h g q _ => h.inRange && within 1 40 g && within 1 40 q
  | .leave h _ => h.inRange
  | .void h _ => h.inRange
  | .speed h v => h.inRange && within 400 1300 v
  | .takeoff h _ => h.inRange
  | .inView h sp => h.inRange && within 1 8 sp
  | .viewLost h sp _ => h.inRange && within 1 8 sp
  | .contact h sp _ pos => h.inRange && within 1 8 sp && pos ≤ 30000
  | .landing h d q _ _ => h.inRange && d ≤ 600 && (q != .none || d == 0)
  | .mastMean h m mean used _ =>
    h.inRange && within 1 8 m && used ≤ 160 && (match mean with | none => true | some x => fitsS16 x)
  | .result r => r.inRange

/-- The ranges of a frame's header. -/
def RxHdr.inRange (h : RxHdr) : Bool := h.sender ≤ 15 && h.event ≤ 255

/-- The ranges of what the line interface hands on with a frame. -/
def LineHdr.inRange (l : LineHdr) : Bool := l.rx.inRange

/-! ## Payload layouts, written -/

def AttemptHdr.bytes (h : AttemptHdr) : List Byte := le16 h.attempt ++ [byte h.bib, byte h.round]

/-- An optional number, 0 when absent. -/
def orZero (n : Option Nat) : Nat := n.getD 0

/-- The parts of a STATUS, in the order of the table. -/
def StatusPayload.parts (p : StatusPayload) : List Byte :=
  (match p.start with
    | none => []
    | some q => byte q.phase.code :: le16 (orZero q.attempt) ++ [q.causes.toByte, byte q.backlog]) ++
  (match p.jury with
    | none => []
    | some q => le16 (orZero q.lastAttempt) ++ [byte q.round, byte q.state.code]) ++
  (match p.mast with
    | none => []
    | some q => [byte q.mast, boolByte q.stable]) ++
  (match p.span with
    | none => []
    | some q => [byte q.span, boolByte q.headOk]) ++
  (match p.edge with
    | none => []
    | some q => [boolByte q.barrierOk])

def StatusPayload.bytes (p : StatusPayload) : List Byte :=
  [p.roles.toByte, byte p.condition.code] ++ le16 p.digest.toNat ++ [byte (FaultKind.codeOpt p.fault)] ++
    p.parts

/-- A seat's mark byte: 0xFF without a mark. -/
def markByte : Option Nat → Byte
  | none => 0xFF
  | some m => byte m

def ResultPayload.bytes (r : ResultPayload) : List Byte :=
  r.hdr.bytes ++ [byte r.revision, r.flags.toByte, packByte [r.speed.isSome, r.wind.isSome]] ++
  le16 r.distance ++ [byte r.quality.code] ++ le16 (orZero r.speed) ++ [byte r.gateUsed] ++
  le16s (r.wind.getD 0) ++ [byte r.marks.held.length] ++ r.marks.toList.map markByte ++
  le16s r.distancePoints ++ le16 r.stylePoints ++ le16s r.gateComp ++ le16s r.windComp ++ le16 r.total

/-- The payload of a frame (section 12.1). -/
def Body.payload : Body → List Byte
  | .status p => p.bytes
  | .corridor m x y u f => byte m :: le16s x ++ le16s y ++ [byte u, f.toByte]
  | .event n m r => [byte n, byte m.code, byte r]
  | .call h g => h.bytes ++ [byte g]
  | .go h => h.bytes
  | .gate h g a => h.bytes ++ [byte g, boolByte a]
  | .hold set => [boolByte set]
  | .round r m g => [byte r, byte m.code, byte g]
  | .text cs => cs
  | .phase h p g sec n => h.bytes ++ [byte p.code, byte g, byte sec, byte n]
  | .coach h g q w => h.bytes ++ [byte g, byte q, boolByte w]
  | .leave h l => h.bytes ++ [packByte [l]]
  | .void h r => h.bytes ++ [byte r.code]
  | .speed h v => h.bytes ++ le16 v
  | .takeoff h n => h.bytes ++ [packByte [n]]
  | .inView h sp => h.bytes ++ [byte sp]
  | .viewLost h sp r => h.bytes ++ [byte sp, byte r.code]
  | .contact h sp t pos => h.bytes ++ [byte sp, byte t.code] ++ le16 pos
  | .landing h d q n l => h.bytes ++ le16 d ++ [byte q.code, packByte [n, l]]
  | .mastMean h m mean used p =>
    h.bytes ++ [byte m] ++ le16s (mean.getD 0) ++ [byte used, packByte [p, mean.isNone]]
  | .result r => r.bytes

/-! ## Payload layouts, read -/

/-- The number of two bytes; none where it is 0. -/
def nonzero (n : Nat) : Option Nat := if n = 0 then none else some n

/-- Reads the START part where the role is announced, with what follows it. -/
def readStart (role : Bool) (bs : List Byte) : Option (Option StartPart × List Byte) :=
  if role then
    match bs with
    | p :: lo :: hi :: c :: n :: rest => do
      let phase ← Phase.ofCode p.toNat
      let causes ← CauseSet.ofByte c
      some (some ⟨phase, nonzero (u16 lo hi), causes, n.toNat⟩, rest)
    | _ => none
  else some (none, bs)

def readJury (role : Bool) (bs : List Byte) : Option (Option JuryPart × List Byte) :=
  if role then
    match bs with
    | lo :: hi :: r :: st :: rest => do
      let state ← RoundState.ofCode st.toNat
      some (some ⟨nonzero (u16 lo hi), r.toNat, state⟩, rest)
    | _ => none
  else some (none, bs)

def readMast (role : Bool) (bs : List Byte) : Option (Option MastPart × List Byte) :=
  if role then
    match bs with
    | m :: st :: rest => do
      let stable ← byteBool st
      some (some ⟨m.toNat, stable⟩, rest)
    | _ => none
  else some (none, bs)

def readSpan (role : Bool) (bs : List Byte) : Option (Option SpanPart × List Byte) :=
  if role then
    match bs with
    | sp :: ok :: rest => do
      let headOk ← byteBool ok
      some (some ⟨sp.toNat, headOk⟩, rest)
    | _ => none
  else some (none, bs)

def readEdge (role : Bool) (bs : List Byte) : Option (Option EdgePart × List Byte) :=
  if role then
    match bs with
    | ok :: rest => do
      let barrierOk ← byteBool ok
      some (some ⟨barrierOk⟩, rest)
    | _ => none
  else some (none, bs)

/-- A STATUS payload: the common fields, then exactly the parts that its role set calls for. -/
def readStatus : List Byte → Option StatusPayload
  | r :: c :: dl :: dh :: f :: rest => do
    let roles ← RoleSet.ofByte r
    let condition ← Condition.ofCode c.toNat
    let fault ← FaultKind.ofCode f.toNat
    let (start, rest) ← readStart roles.start rest
    let (jury, rest) ← readJury roles.jury rest
    let (mast, rest) ← readMast roles.mast rest
    let (span, rest) ← readSpan roles.span rest
    let (edge, rest) ← readEdge roles.edge rest
    if rest.isEmpty then
      some ⟨roles, condition, BitVec.ofNat 16 (u16 dl dh), fault, start, jury, mast, span, edge⟩
    else none
  | _ => none

/-- The attempt header that opens a payload, with what follows it. -/
def readHdr : List Byte → Option (AttemptHdr × List Byte)
  | lo :: hi :: b :: r :: rest => some (⟨u16 lo hi, b.toNat, r.toNat⟩, rest)
  | _ => none

/-- A mark byte: 0xFF is no mark. -/
def readMark (b : Byte) : Option Nat := if b = 0xFF then none else some b.toNat

/-- What follows the attempt header of a RESULT. -/
def readResult (h : AttemptHdr) (bs : List Byte) : Option Body :=
  match bs with
  | rev :: fl :: pres :: dl :: dh :: q :: sl :: sh :: g :: wl :: wh :: mc :: m1 :: m2 :: m3 :: m4 :: m5 ::
      dpl :: dph :: spl :: sph :: gl :: gh :: wcl :: wch :: tl :: th :: [] => do
    let flags ← ResultFlags.ofByte fl
    let presence ← unpackByte 2 pres
    let quality ← Quality.ofCode q.toNat
    let marks : Seats (Option Nat) :=
      ⟨readMark m1, readMark m2, readMark m3, readMark m4, readMark m5⟩
    let speedIn := presence.headD false
    let windIn := (presence.drop 1).headD false
    if mc.toNat = marks.held.length && (speedIn || u16 sl sh == 0) && (windIn || s16 wl wh == 0) then
      some (.result ⟨h, rev.toNat, flags, u16 dl dh, quality,
        if speedIn then some (u16 sl sh) else none, g.toNat,
        if windIn then some (s16 wl wh) else none, marks, s16 dpl dph, u16 spl sph, s16 gl gh,
        s16 wcl wch, u16 tl th⟩)
    else none
  | _ => none

/-- What follows the attempt header of a frame of the given kind. -/
def readAttemptBody (kind : Nat) (h : AttemptHdr) (bs : List Byte) : Option Body :=
  match kind, bs with
  | 0x11, [g] => some (.call h g.toNat)
  | 0x12, [] => some (.go h)
  | 0x13, [g, a] => (byteBool a).map (.gate h g.toNat)
  | 0x20, [p, g, sec, n] => (Phase.ofCode p.toNat).map (.phase h · g.toNat sec.toNat n.toNat)
  | 0x21, [g, q, w] => (byteBool w).map (.coach h g.toNat q.toNat)
  | 0x22, [f] => (byteBool f).map (.leave h)
  | 0x23, [r] => (VoidReason.ofCode r.toNat).map (.void h)
  | 0x30, [lo, hi] => some (.speed h (u16 lo hi))
  | 0x31, [f] => (byteBool f).map (.takeoff h)
  | 0x40, [sp] => some (.inView h sp.toNat)
  | 0x41, [sp, r] => (LostReason.ofCode r.toNat).map (.viewLost h sp.toNat)
  | 0x42, [sp, t, lo, hi] => (Track.ofCode t.toNat).map (.contact h sp.toNat · (u16 lo hi))
  | 0x50, [lo, hi, q, f] =>
    match Quality.ofCode q.toNat, unpackByte 2 f with
    | some quality, some [nt, lc] => some (.landing h (u16 lo hi) quality nt lc)
    | _, _ => none
  | 0x51, [m, lo, hi, u, f] =>
    match unpackByte 2 f with
    | some [p, isNone] =>
      if isNone then
        if s16 lo hi == 0 then some (.mastMean h m.toNat none u.toNat p) else none
      else some (.mastMean h m.toNat (some (s16 lo hi)) u.toNat p)
    | _ => none
  | 0x52, bs => readResult h bs
  | _, _ => none

/-- The content that a payload of the given kind spells, before its ranges are tested. -/
def readBody (kind : Nat) (bs : List Byte) : Option Body :=
  match kind, bs with
  | 0x01, bs => (readStatus bs).map .status
  | 0x02, [m, xl, xh, yl, yh, u, f] =>
    (CorridorFlags.ofByte f).map (.corridor m.toNat (s16 xl xh) (s16 yl yh) u.toNat)
  | 0x10, [n, m, r] => (EventMode.ofCode m.toNat).map (.event n.toNat · r.toNat)
  | 0x14, [b] => (byteBool b).map .hold
  | 0x15, [r, m, g] => (RoundMsg.ofCode m.toNat).map (.round r.toNat · g.toNat)
  | 0x16, bs => some (.text bs)
  | k, bs =>
    match readHdr bs with
    | none => none
    | some (h, rest) => readAttemptBody k h rest

/-! ## Frames as bytes (R2, R3) -/

/-- The station byte: the station number, and the urgent mark of the kind's class. -/
def stationByte (station : Nat) (urgent : Bool) : Byte := byte (station + if urgent then 128 else 0)

/-- Header, payload and age: what the CRC covers (R2). -/
def frameCore (sender event : Nat) (age : Word16) (b : Body) : List Byte :=
  [byte b.kind, stationByte sender b.urgent, byte b.payload.length, byte event] ++ b.payload ++
    le16 age.toNat

/-- The bytes of a frame, in the order in which they go out (R2). -/
def frameBytes (sender event : Nat) (age : Word16) (b : Body) : List Byte :=
  frameCore sender event age b ++ le16 (crc16 (frameCore sender event age b)).toNat

/-- The duration of a bit on the line, in microseconds (section 1.1). -/
def bitUs : Nat := 2

/-- The duration of a character, in microseconds: ten bits (R1). -/
def charUs : Nat := 10 * bitUs

/-- The levels of a character on the line, in order (R1), `false` dominant: the start bit, eight data bits with
the least significant first, and the stop bit. -/
def charLevels (b : Byte) : List Bool := false :: (List.range 8).map b.getLsbD ++ [true]

/-- The character that ten levels spell; none where the start bit is recessive or the stop bit dominant, a
framing error (R1). -/
def readLevels : List Bool → Option Byte
  | [false, b0, b1, b2, b3, b4, b5, b6, b7, true] => some (packByte [b0, b1, b2, b3, b4, b5, b6, b7])
  | _ => none

/-- The levels of a frame on the line: its characters back to back (R1). -/
def frameLevels (bytes : List Byte) : List Bool := bytes.flatMap charLevels

/-- The duration of a frame with a body, from its first start bit to the end of its last stop bit, in
microseconds (R1, R2): eight bytes beside the payload. -/
def Body.lineUs (b : Body) : Nat := charUs * (8 + b.payload.length)

/-- What a frame's bytes give, where the frame passes every check of R3 that its bytes can fail. -/
def decodeFrame (bytes : List Byte) : Option (Nat × Nat × Word16 × Body) :=
  match bytes with
  | k :: st :: len :: ev :: rest =>
    let n := len.toNat
    let payload := rest.take n
    match rest.drop n with
    | [al, ah, cl, ch] =>
      if n ≤ 32 && frameKinds.contains k.toNat && (st.toNat / 128 == 1) == urgentKind k.toNat &&
          st.toNat % 128 < 16 && crc16 (bytes.take (6 + n)) == BitVec.ofNat 16 (u16 cl ch) then
        match readBody k.toNat payload with
        | some b =>
          if b.inRange then some (st.toNat % 16, ev.toNat, BitVec.ofNat 16 (u16 al ah), b) else none
        | none => none
      else none
    | _ => none
  | _ => none

/-! ## Span head records and keypad records (section 12.4) -/

/-- A record of the span sensor head. -/
inductive HeadRecord
  | heartbeat
  | presence (on : Bool)
  | contact (track : Track) (offset : Nat)
  deriving DecidableEq, Repr

/-- The sum of bytes, modulo 256. -/
def sum8 (bs : List Byte) : Byte := bs.foldl (· + ·) 0

/-- The record that complete characters spell, where sync byte, layout, values and check byte hold
(R114). -/
def readHeadRecord (bs : List Byte) : Option HeadRecord :=
  match bs with
  | [0xA5#8, 0x01#8, c] => if c = sum8 [0xA5, 0x01] then some .heartbeat else none
  | [0xA5#8, 0x02#8, v, c] =>
    if c = sum8 [0xA5, 0x02, v] then (byteBool v).map .presence else none
  | [0xA5#8, 0x03#8, t, lo, hi, c] =>
    if c = sum8 [0xA5, 0x03, t, lo, hi] && u16 lo hi ≤ 30000 then
      (Track.ofCode t.toNat).map (.contact · (u16 lo hi)) else none
  | _ => none

/-- The length of a head record of a kind, in characters. -/
def headRecordLength (kind : Byte) : Option Nat :=
  if kind = 1 then some 3 else if kind = 2 then some 4 else if kind = 3 then some 6 else none

/-- The check byte of a keypad record: 255 less the sum of seat and mark, modulo 256. -/
def keypadCheck (seat mark : Byte) : Byte := 255 - (seat + mark)

end Sys2Proof
end

