-- ==== Sys2Proof/Machine/Image.lean ====
section
/-! DEFINITION. The constants image: its shape, its packets and the station map's checks (R21 to R24,
section 12.2). -/

namespace Sys2Proof.Machine

open Sys2Proof

/-! ## The shape of the image (R21) -/

/-- A packet: identifier and data bytes. -/
abbrev Packet := Nat × List Byte

/-- What the packet sequence of an image gives: a byte that the EEPROM did not acknowledge, a failed
check 3 or 4, or the packets up to the termination packet with the bytes that follow it. -/
inductive Shape
  | short
  | bad
  | good (packets : List Packet) (rest : List Byte)
  deriving DecidableEq, Repr

/-- Puts a packet before those found. -/
def Shape.cons (p : Packet) : Shape → Shape
  | .good ps rest => .good (p :: ps) rest
  | sh => sh

/-- Reads packets; `room` counts the bytes left before the stored digest (R21, checks 3 and 4). -/
def readPackets : Nat → Nat → List Byte → Shape
  | 0, _, _ => .bad
  | fuel + 1, room, bs =>
    if room < 2 then .bad
    else match bs with
      | id :: len :: rest =>
        if id = 0xFF then
          if len = 0 && room == 2 then .good [] rest else .bad
        else if 2 + len.toNat ≤ room then
          if rest.length < len.toNat then .short
          else
            (readPackets fuel (room - 2 - len.toNat) (rest.drop len.toNat)).cons
              (id.toNat, rest.take len.toNat)
        else .bad
      | _ => .short

/-! ## The packets (R22, R23) -/

/-- Entries of four bytes each. -/
def chunks4 : List Byte → Option (List (Nat × Nat × Nat × Nat))
  | [] => some []
  | a :: b :: c :: d :: rest => (chunks4 rest).map ((a.toNat, b.toNat, c.toNat, d.toNat) :: ·)
  | _ => none

/-- Entries of three bytes each. -/
def chunks3 : List Byte → Option (List (Nat × Nat × Nat))
  | [] => some []
  | a :: b :: c :: rest => (chunks3 rest).map ((a.toNat, b.toNat, c.toNat) :: ·)
  | _ => none

/-- Entries of a byte and two 16-bit numbers each. -/
def chunks5 : List Byte → Option (List (Nat × Nat × Nat))
  | [] => some []
  | a :: b :: c :: d :: e :: rest => (chunks5 rest).map ((a.toNat, u16 b c, u16 d e) :: ·)
  | _ => none

/-- Keeps a value whose test holds. -/
def keep {α : Type} (ok : Bool) (v : α) : Option α := if ok then some v else none

/-- One STATIONS entry (R23). -/
def readStation : Nat × Nat × Nat × Nat → Option StationEntry := fun (n, r, m, sp) => do
  let roles ← RoleSet.ofByte (byte r)
  keep (n ≤ 15 && roles.nonempty && m ≤ 8 && sp ≤ 8) ⟨n, roles, m, sp⟩

/-- One MASTS entry (R23). -/
def readMastEntry : Nat × Nat × Nat → Option MastEntry := fun (m, w, f) =>
  keep (within 1 8 m && w ≤ 4 && f < 4) ⟨m, w, f % 2 == 1, f / 2 == 1⟩

/-- One SPANS entry (R23). -/
def readSpanEntry : Nat × Nat × Nat → Option SpanEntry := fun (n, a, b) =>
  keep (within 1 8 n && a < b && b ≤ 30000) ⟨n, a, b⟩

/-- Takes one known packet into the constants: its length and every field of it (R22, R23). -/
def readPacket (id : Nat) (data : List Byte) (k : Constants) : Option Constants :=
  match id, data with
  | 0x01, [a, b, c, d, e, f, g] =>
    let kp := u16 a b; let hs := u16 c d; let base := u16 e f; let mv := g.toNat
    keep (within 40 500 kp && kp ≤ hs && hs ≤ 600 && (base == 600 || base == 1200) &&
      within 8 60 mv && mv % 2 == 0) { k with hill := ⟨kp, hs, base, mv⟩ }
  | 0x02, [a, b, c] =>
    keep (within 1 40 a.toNat && within 20 150 b.toNat && c.toNat ≤ 200)
      { k with gates := ⟨a.toNat, b.toNat, c.toNat⟩ }
  | 0x03, [a, b, c, d, e, f, g, h] =>
    keep (u16 a b ≤ 300 && u16 c d ≤ 400 && within 1 8 e.toNat && within 1 50 f.toNat &&
      u16 g h ≤ 2000 && u16 g h % 100 == 0)
      { k with wind := ⟨u16 a b, u16 c d, e.toNat, f.toNat, u16 g h⟩ }
  | 0x04, [a, b, c, d, e, f, g, h, i] =>
    keep (-1500 ≤ s16 a b && s16 a b ≤ 0 && 0 ≤ s16 c d && s16 c d ≤ 1500 && u16 e f ≤ 1500 &&
      within 1 10 g.toNat && h.toNat ≤ 30 && within 1 8 i.toNat)
      { k with corridor := ⟨s16 a b, s16 c d, u16 e f, g.toNat, h.toNat, i.toNat⟩ }
  | 0x05, [a, b, c, d, e] =>
    keep (within 3 10 a.toNat && within 5 60 b.toNat && u16 c d ≤ 1000 && u16 c d % 100 == 0 &&
      e.toNat ≤ 4) { k with cycle := ⟨a.toNat, b.toNat, u16 c d, e.toNat⟩ }
  | 0x06, [a, b, c, d, e, f] =>
    keep (within 5 30 a.toNat && within 2 15 b.toNat && within 1 6 c.toNat &&
      within 100 800 (u16 d e) && within 1 5 f.toNat)
      { k with flight := ⟨a.toNat, b.toNat, c.toNat, u16 d e, f.toNat⟩ }
  | 0x07, [a, b, c, d, e, f] =>
    keep (within 1000 20000 (u16 a b) && within 400 1300 (u16 c d) && within 400 1300 (u16 e f) &&
      u16 c d < u16 e f) { k with edge := ⟨u16 a b, u16 c d, u16 e f⟩ }
  | 0x08, data => do
    let es ← (← chunks4 data).mapM readStation
    keep (within 1 16 es.length) { k with stations := es }
  | 0x09, data => do
    let es ← (← chunks3 data).mapM readMastEntry
    keep (es.length ≤ 8) { k with masts := es }
  | 0x0A, data => do
    let es ← (← chunks5 data).mapM readSpanEntry
    keep (within 1 8 es.length) { k with spans := es }
  | 0x0B, [q] => keep (q.toNat ≤ 80) { k with qualifiers := q.toNat }
  | 0x0C, [a, b, c, d, e, f, g, h, i, j, l, m] =>
    let ct := u16 a b; let cs := u16 c d; let ce := u16 e f
    keep (within 1 256 ct && cs ≤ ce && ce < ct && within 1 64 g.toNat && h.toNat ≤ i.toNat &&
      i.toNat < g.toNat && within 2 20 j.toNat && within 3 30 l.toNat && within 3 30 m.toNat)
      { k with board := ⟨ct, cs, ce, g.toNat, h.toNat, i.toNat, j.toNat, l.toNat, m.toNat⟩ }
  | 0x0D, [a] => keep (within 0x08 0x77 a.toNat) { k with sensorAddress := a.toNat }
  | _, _ => none

/-- Identifiers of the packet table. -/
def knownPackets : List Nat := [1, 2, 3, 4, 5, 6, 7, 8, 9, 10, 11, 12, 13]

/-- Takes the packets in the order they appear (R22): the identifiers seen and the constants, or the
identifier of the first packet that fails. -/
def readKnown : List Packet → List Nat → Constants → Except Nat (List Nat × Constants)
  | [], seen, k => .ok (seen, k)
  | (id, data) :: rest, seen, k =>
    if knownPackets.contains id then
      if seen.contains id then .error id
      else match readPacket id data k with
        | none => .error id
        | some k' => readKnown rest (id :: seen) k'
    else readKnown rest seen k

/-! ## The station map (R24) -/

/-- No number appears twice. -/
def distinct : List Nat → Bool
  | [] => true
  | n :: ns => !ns.contains n && distinct ns

/-- How many entries hold a role. -/
def countRole (es : List StationEntry) (role : RoleSet → Bool) : Nat :=
  (es.filter (fun e => role e.roles)).length

/-- The STATIONS checks of R24: rows 1 to 6. -/
def stationsOk (own : Nat) (es : List StationEntry) : Bool :=
  distinct (es.map (·.station)) &&
  countRole es (·.start) == 1 && countRole es (·.edge) == 1 && countRole es (·.jury) == 1 &&
  es.all (fun e => !(e.roles.start && e.roles.edge)) &&
  countRole es (·.board) ≤ 2 && countRole es (·.mast) ≤ 8 && within 1 8 (countRole es (·.span)) &&
  es.all (fun e => if e.roles.mast then within 1 8 e.mast else e.mast == 0) &&
  distinct ((es.map (·.mast)).filter (· != 0)) &&
  es.all (fun e => if e.roles.span then within 1 8 e.span else e.span == 0) &&
  distinct ((es.map (·.span)).filter (· != 0)) &&
  es.any (fun e => e.station == own)

/-- Row 7 of R24. -/
def mastsOk (k : Constants) : Bool :=
  distinct (k.masts.map (·.mast)) &&
  k.stations.all (fun e => e.mast == 0 || k.masts.any (fun m => m.mast == e.mast))

/-- Row 8 of R24. -/
def spansOk (k : Constants) : Bool :=
  distinct (k.spans.map (·.span)) &&
  k.stations.all (fun e => e.span == 0 || k.spans.any (fun m => m.span == e.span))

/-- The detail of the first failing check across packets, none where all pass (R24). -/
def crossCheck (own : Nat) (k : Constants) : Option Nat :=
  if !stationsOk own k.stations then some 0x08
  else if !mastsOk k then some 0x09
  else if !spansOk k then some 0x0A
  else none

/-- The constants of a well-shaped image, or the detail of the first check that fails (R22 to R24). -/
def readConstants (own : Nat) (ps : List Packet) : Except Nat Constants :=
  match readKnown ps [] {} with
  | .error id => .error id
  | .ok (seen, k) =>
    match knownPackets.find? (fun id => !seen.contains id) with
    | some missing => .error missing
    | none =>
      match crossCheck own k with
      | some detail => .error detail
      | none => .ok k

/-! ## A pass over the image -/

/-- What one pass over the EEPROM gives: a byte that it did not acknowledge, an end in INVALID with the
detail and the station's digest, or an end in RUN with the digest and the constants. -/
inductive LoadResult
  | failedRead
  | invalid (detail : Nat) (digest : Word16)
  | run (digest : Word16) (k : Constants)
  deriving DecidableEq, Repr

/-- Reads an image whose bytes, as far as the EEPROM acknowledges them, are given (R21). A byte that the
loader needs and that the list does not hold is one the EEPROM did not acknowledge (log entry 10). -/
def loadImage (own : Nat) (bytes : List Byte) : LoadResult :=
  match bytes with
  | m0 :: m1 :: rest =>
    if m0 ≠ 0x48 ∨ m1 ≠ 0x4C then .invalid 0 0
    else match rest with
      | l0 :: l1 :: body =>
        let len := u16 l0 l1
        if len < 8 ∨ 1024 < len then .invalid 0 0
        else match readPackets 512 (len - 6) body with
          | .short => .failedRead
          | .bad => .invalid 0 0
          | .good ps (d0 :: d1 :: _) =>
            let digest := crc16 (bytes.take (len - 2))
            if digest ≠ BitVec.ofNat 16 (u16 d0 d1) then .invalid 0 digest
            else match readConstants own ps with
              | .error detail => .invalid detail digest
              | .ok k => .run digest k
          | .good _ _ => .failedRead
      | _ => .failedRead
  | _ => .failedRead

/-- The number of bytes that the loader reads of those that the EEPROM would give: it reads byte after byte until the
bytes read decide the load, or the EEPROM gives no more (R21). -/
def bytesTaken (own : Nat) (bytes : List Byte) : Nat :=
  ((List.range bytes.length).find? (fun k => loadImage own (bytes.take k) != .failedRead)).getD bytes.length

/-- What a read that ends sends on the EEPROM bus: its opening, the bytes read and a stop condition (R21). The stop
condition: PRESUMED, log entry 57. -/
def eepromSends (own : Nat) (bytes : List Byte) : List BusItem :=
  eepromOpening ++ List.replicate (bytesTaken own bytes) .receive ++ [.stop]

end Sys2Proof.Machine
end

