-- ==== Sys2Proof/Config.lean ====
section
/-! DEFINITION. The free values of the model: what the manual leaves open and no rule gives. Each is an
`opaque` constant without a body, so that no proof can see what it is. -/

namespace Sys2Proof

/-- The condition that the Station report of STATUS_QUERY carries in LOADING (R186). R27 and R31 give a
condition for RUN and INVALID alone, so the manual states no value here (DESIGN CHOICE: free; log
entry 13). -/
opaque Config.loadingCondition : Condition

end Sys2Proof
end

