-- ==== Sys2Proof/Machine/Ops.lean ====
section
/-! DEFINITION. The named operations that every block uses: the constants and the roster read, the attempt
table read and written, a notice raised, a fault reported, a frame offered, a reply made, and a console
command taken. -/

namespace Sys2Proof.Machine

open Sys2Proof

/-! ## The constants, read -/

/-- The station that the map names for a role that one station holds. -/
def Constants.stationWith (k : Constants) (role : RoleSet → Bool) : Option Nat :=
  (k.stations.find? (fun e => role e.roles)).map (·.station)

/-- The station that holds a mast number. -/
def Constants.mastStation (k : Constants) (mast : Nat) : Option Nat :=
  (k.stations.find? (fun e => e.mast == mast && mast != 0)).map (·.station)

/-- The station that holds a span number. -/
def Constants.spanStation (k : Constants) (span : Nat) : Option Nat :=
  (k.stations.find? (fun e => e.span == span && span != 0)).map (·.station)

def Constants.mastEntry (k : Constants) (mast : Nat) : Option MastEntry :=
  k.masts.find? (fun m => m.mast == mast)

def Constants.spanEntry (k : Constants) (span : Nat) : Option SpanEntry :=
  k.spans.find? (fun m => m.span == span)

/-- The required stations (R30): those whose entry holds START, EDGE, SPAN or JURY. -/
def Constants.required (k : Constants) : List Nat :=
  (k.stations.filter (fun e => e.roles.start || e.roles.edge || e.roles.span || e.roles.jury)).map
    (·.station)

/-! ## The roster, read (R30) -/

/-- The entry of a station number. -/
def State.rosterAt (s : State) (n : Nat) : RosterEntry := s.roster.getD n {}

/-- A station is ready: PRESENT, condition OK and the local digest. -/
def State.ready (s : State) (n : Nat) : Bool :=
  let e := s.rosterAt n
  e.presence == .present &&
    match e.status with
    | none => false
    | some h => h.payload.condition == .ok && h.payload.digest == s.loader.digest

/-- A PRESENT station differs: its digest is heard and is not the local one. -/
def State.differs (s : State) (n : Nat) : Bool :=
  let e := s.rosterAt n
  e.presence == .present &&
    match e.status with
    | none => false
    | some h => h.payload.digest != s.loader.digest

/-! ## The attempt table -/

/-- The record of an attempt number. -/
def State.attempt? (s : State) (n : Nat) : Option AttemptRecord :=
  s.table.find? (fun r => r.hdr.attempt == n)

/-- Changes the record of an attempt number in its place. -/
def State.setRecord (s : State) (n : Nat) (f : AttemptRecord → AttemptRecord) : State :=
  { s with table := s.table.map (fun r => if r.hdr.attempt == n then f r else r) }

/-- Live: in any state other than PUBLISHED or VOID. -/
def AttemptState.live : AttemptState → Bool
  | .published | .void => false
  | _ => true

/-- The flight states (section 3.3): GREEN, ON_INRUN, AIRBORNE. -/
def AttemptState.flight : AttemptState → Bool
  | .green | .onInrun | .airborne => true
  | _ => false

/-! ## Notices (R187, section 12.3) -/

/-- A notice's class, 1 to 6 in mask bit order, and its number within the class. -/
def NoticeBody.number : NoticeBody → Nat × Nat
  | .frameIgnored .. => (1, 1)
  | .callIgnored .. => (1, 2)
  | .goIgnored => (1, 3)
  | .gateIgnored => (1, 4)
  | .holdRaised .. => (1, 5)
  | .holdReleased .. => (1, 6)
  | .leaveIgnored => (1, 7)
  | .strayLeave => (1, 8)
  | .coachRefused .. => (1, 9)
  | .callSent .. => (1, 10)
  | .callTaken .. => (1, 11)
  | .callLapsed .. => (1, 12)
  | .repeatLost .. => (1, 13)
  | .startListHead .. => (1, 14)
  | .roundClosing .. => (1, 15)
  | .roundClosed .. => (1, 16)
  | .roundOpen .. => (1, 17)
  | .attemptState .. => (2, 1)
  | .attemptIgnored .. => (2, 2)
  | .attemptMismatch .. => (2, 3)
  | .strayBreak .. => (2, 4)
  | .breakIgnored .. => (2, 5)
  | .speedMissing .. => (2, 6)
  | .speedImplausible .. => (2, 7)
  | .corridorIgnored => (3, 1)
  | .mastStability .. => (3, 2)
  | .sensorBus .. => (3, 3)
  | .meanSent .. => (3, 4)
  | .meanNotSent .. => (3, 5)
  | .headLink .. => (4, 1)
  | .strayContact .. => (4, 2)
  | .contactOutOfSpan .. => (4, 3)
  | .landingResolved .. => (4, 4)
  | .contactLate .. => (4, 5)
  | .contactDiscarded .. => (4, 6)
  | .takeoffLate .. => (4, 7)
  | .landingAbandoned .. => (4, 8)
  | .landingUntracked .. => (4, 9)
  | .spanMismatch .. => (4, 10)
  | .manualTaken .. => (4, 11)
  | .meanIgnored .. => (5, 1)
  | .gatherDone .. => (5, 2)
  | .markTaken .. => (5, 3)
  | .markRefused .. => (5, 4)
  | .resultSent .. => (5, 5)
  | .voidSent .. => (5, 6)
  | .resultsFull .. => (5, 7)
  | .pageDropped .. => (5, 8)
  | .stationHeard .. => (6, 1)
  | .stationChanged .. => (6, 2)
  | .stationSilent .. => (6, 3)
  | .faultReported .. => (6, 4)

/-- Whether the mask names a class 1 to 6. -/
def ClassSet.has (m : ClassSet) (c : Nat) : Bool :=
  match c with
  | 1 => m.cycle
  | 2 => m.attempt
  | 3 => m.wind
  | 4 => m.distance
  | 5 => m.score
  | _ => m.fault

/-- The most notices that the queue holds (R187). -/
def noticeLimit : Nat := 32

/-- The notice queue after a raise (R187). -/
def ConsoleState.raise (c : ConsoleState) (station : StationState) (now : Tick) (n : NoticeBody) :
    ConsoleState :=
  if station == .loading || !c.mask.has n.number.1 then c
  else if noticeLimit ≤ c.notices.length then { c with overrun := true }
  else { c with notices := c.notices ++ [⟨now, n⟩] }

/-- A block raises a notice (R187). -/
def State.raise (s : State) (n : NoticeBody) : State :=
  { s with console := s.console.raise s.loader.state s.clock n }

/-! ## The fault latch (R32) -/

/-- The latch after a report. -/
def FaultLatch.take (l : FaultLatch) (kind : FaultKind) (now : Tick) (detail : Nat) : FaultLatch :=
  match l.record with
  | none => { l with record := some ⟨kind, now, detail⟩ }
  | some _ => { l with overflow := true }

/-- A block reports a fault (R32): the latch takes it, and FAULT_REPORTED is raised. -/
def State.report (s : State) (kind : FaultKind) (detail : Nat) : State :=
  { s with
    latch := s.latch.take kind s.clock detail
    console := s.console.raise s.loader.state s.clock (.faultReported kind detail) }

/-! ## Offering a frame (R9, R10) -/

/-- The most frames that a transmit queue holds (section 1.4). -/
def queueLimit : Nat := 8

/-- The queue of a class. -/
def LineState.queue (l : LineState) (urgent : Bool) : List QueuedFrame :=
  if urgent then l.urgent else l.routine

/-- The line with the queue of a class changed. -/
def LineState.withQueue (l : LineState) (urgent : Bool) (q : List QueuedFrame) : LineState :=
  if urgent then { l with urgent := q } else { l with routine := q }

/-- Puts a frame in the place of the first waiting frame of its kind. -/
def replaceFrame (f : QueuedFrame) : List QueuedFrame → List QueuedFrame
  | [] => []
  | g :: gs => if g.body.kind == f.body.kind then f :: gs else g :: replaceFrame f gs

/-- What an offer comes to. -/
inductive Offered
  /-- The station is MUTED: the frame is discarded (R4). -/
  | discarded
  /-- The frame takes the place of a waiting one (R10). -/
  | replaced
  /-- The queue holds eight frames: dropped, with TX_OVERFLOW (R9). -/
  | overflow
  /-- The frame joins the tail (R9). -/
  | joined
  deriving DecidableEq, Repr

/-- Whether MUTED. -/
def StationState.isMuted : StationState → Bool
  | .muted _ => true
  | _ => false

/-- What an offer of a frame comes to (R4, R9, R10). -/
def State.offerFate (s : State) (b : Body) : Offered :=
  let q := s.line.queue b.urgent
  if s.loader.state.isMuted then .discarded
  else if b.replaces && q.any (fun g => g.body.kind == b.kind) then .replaced
  else if queueLimit ≤ q.length then .overflow
  else .joined

/-- The line interface after an offer. -/
def LineState.offered (l : LineState) (fate : Offered) (f : QueuedFrame) : LineState :=
  match fate with
  | .discarded | .overflow => l
  | .replaced => l.withQueue f.body.urgent (replaceFrame f (l.queue f.body.urgent))
  | .joined => l.withQueue f.body.urgent (l.queue f.body.urgent ++ [f])

/-- A block offers a frame (R9): the header takes the current event number now. The notice of TX_OVERFLOW comes before
the offer's own: DESIGN CHOICE, log entry 46. -/
def State.offer (s : State) (b : Body) (eventTime : Option Tick) : State :=
  { s with
    line := s.line.offered (s.offerFate b) ⟨b, s.line.eventNumber, eventTime⟩
    latch := if s.offerFate b = .overflow then s.latch.take .txOverflow s.clock b.kind else s.latch
    console :=
      if s.offerFate b = .overflow then
        s.console.raise s.loader.state s.clock (.faultReported .txOverflow b.kind)
      else s.console }

/-- Offers a kept copy again, with its event time (R69, R89, R120). -/
def State.reoffer (s : State) (k : Option KeptFrame) : State :=
  match k with
  | none => s
  | some f => s.offer f.body f.eventTime

/-! ## Replies and console commands (R185) -/

/-- The most replies that wait (R185). -/
def replyLimit : Nat := 8

/-- A reply joins the reply queue. Where eight replies wait, it is lost and the command-lost mark is set
(R185; log entry 26). -/
def ConsoleState.reply (c : ConsoleState) (r : Reply) : ConsoleState :=
  if replyLimit ≤ c.replies.length then { c with commandLost := true }
  else { c with replies := c.replies ++ [r] }

def State.reply (s : State) (r : Reply) : State := { s with console := s.console.reply r }

/-- Answers a command with a code alone. -/
def State.answer (s : State) (kind : Nat) (code : ReplyCode) : State :=
  s.reply { command := kind, code := code }

/-- The receive assembler holds nothing: a complete record has been taken, or one has been dropped. -/
def State.clearAssembler (s : State) : State :=
  { s with console := { s.console with gathered := [], skipping := false, rxQuietUs := 0 } }

/-- Takes a complete console record (R184, R185): nothing is received under RESET, nor while the assembler
ignores every character after a record whose length byte was above 60, though they end the quiet; eight
replies waiting lose the command; then LOADING answers STATE to every kind but STATUS_QUERY, a length that the kind does
not have answers RANGE, and a role that the station does not hold answers ROLE. -/
def State.command (s : State) (kind : Nat) (lengthOk : Bool) (role : RoleSet → Bool)
    (act : State → State) : State :=
  if s.resetAsserted then s
  else if s.console.skipping then { s with console := { s.console with rxQuietUs := 0 } }
  else
    let s := s.clearAssembler
    if replyLimit ≤ s.console.replies.length then
      { s with console := { s.console with commandLost := true } }
    else if s.loader.state == .loading && kind != 0x01 then s.answer kind .state
    else if !lengthOk then s.answer kind .range
    else if !role s.loader.roles then s.answer kind .role
    else act s

/-- The role test of a command that every station answers. -/
def anyRole (_ : RoleSet) : Bool := true

/-- The jury station's EVENT test (R154): with no event, the command is answered EVENT. -/
def State.eventTest (s : State) (kind : Nat) (act : State → State) : State :=
  if s.line.eventNumber = 0 then s.answer kind .event else act s

/-! ## Condition and STATUS content (R27, R31) -/

/-- A barrier is STUCK. -/
def BarrierState.isStuck : BarrierState → Bool
  | .stuck => true
  | _ => false

/-- Any barrier of the station is STUCK (R31). -/
def State.anyStuck (s : State) : Bool :=
  (s.loader.roles.start && s.start.barrier.isStuck) ||
    (s.loader.roles.edge && (s.edge.a.isStuck || s.edge.b.isStuck || s.edge.t.isStuck))

/-- The sensor bus source of R31 stands: HUNG, or the burst that SENSOR_RELEASE ordered out of HUNG. -/
def BusState.hungSource : BusState → Bool
  | .hung | .releasing _ true => true
  | _ => false

/-- A source of DEGRADED stands (R31). -/
def State.degraded (s : State) : Bool :=
  (s.loader.roles.mast && s.wind.bus.hungSource) ||
    (s.loader.roles.span && !s.span.heard) || s.anyStuck ||
    (s.loader.roles.start && !s.start.failed.isEmpty)

/-- The station state, MUTED seen as the state it came from. -/
def StationState.base : StationState → StationState
  | .muted true => .run
  | .muted false => .invalid
  | st => st

/-- The condition (R27, R31). In LOADING the manual gives none: a free value. -/
def State.condition (s : State) : Condition :=
  match s.loader.state.base with
  | .run => if s.degraded then .degraded else .ok
  | .loading => Config.loadingCondition
  | _ => .invalid

/-- The content of a STATUS offered now (R27, R80, R83, R110, R121, R169). -/
def State.statusNow (s : State) : StatusPayload :=
  let r := s.loader.roles
  { roles := r
    condition := s.condition
    digest := s.loader.digest
    fault := s.latch.record.map (·.kind)
    start := if r.start then
        some ⟨s.start.phase, s.start.current.map (·.attempt), CauseSet.ofHolds s.start.holds,
          s.start.backlog⟩
      else none
    jury := if r.jury then
        some ⟨s.standings.lastAttempt, s.standings.round.number, s.standings.round.state⟩
      else none
    mast := if r.mast then some ⟨s.loader.mast, s.wind.stable⟩ else none
    span := if r.span then some ⟨s.loader.span, s.span.heard⟩ else none
    edge := if r.edge then
        some ⟨!(s.edge.a.isStuck || s.edge.b.isStuck || s.edge.t.isStuck)⟩
      else none }

end Sys2Proof.Machine
end

