-- ==== Sys2Proof/Machine/Tracker.lean ====
section
/-! DEFINITION. The attempt tracker: what a delivered frame does to the attempt table (chapter 3). -/

namespace Sys2Proof.Machine

open Sys2Proof

/-- A change of the table, as it is handed to the blocks that keep state under an attempt number. -/
inductive Change
  /-- A record was removed whole (R42, R54, R57). -/
  | removed (r : AttemptRecord)
  /-- A record was created (`before` absent) or changed its state; `r` is the record after it. `forced`
  marks R43. -/
  | entered (r : AttemptRecord) (before : Option AttemptState) (forced : Bool)
  deriving DecidableEq, Repr

/-! ## States (section 3.3) -/

/-- The place of a state in the order of section 3.3; VOID stands outside it. -/
def AttemptState.rank : AttemptState → Nat
  | .called => 0 | .green => 1 | .onInrun => 2 | .airborne => 3 | .landed => 4 | .published => 5
  | .void => 6

/-- The state that an attempt-bearing frame implies (R36). -/
def impliedState : Body → AttemptState
  | .phase _ .green _ _ _ => .green
  | .phase _ .gone _ _ _ | .leave .. | .speed .. => .onInrun
  | .takeoff .. | .inView .. | .viewLost .. | .contact .. => .airborne
  | .landing .. | .mastMean .. => .landed
  | .result _ => .published
  | .void .. => .void
  | _ => .called

/-- The state of a known record, not VOID, after a frame other than VOID (R36, R38, R39). `bound` says
that R39 holds it: a frame of another station, at the start station. -/
def nextState (bound : Bool) (b : Body) (st : AttemptState) : AttemptState :=
  if bound && (st == .called || st == .green) then st
  else if st == .green && (match b with
      | .phase _ .red _ _ _ | .phase _ .amber _ _ _ => true
      | _ => false) then .called
  else if st.rank < (impliedState b).rank then impliedState b
  else st

/-! ## What each frame writes (section 3.7) -/

/-- Sets TIME_SATURATED when the frame's mark is set (R44). -/
def AttemptRecord.markSaturated (r : AttemptRecord) (l : LineHdr) : AttemptRecord :=
  if l.saturated then { r with flags := { r.flags with timeSaturated := true } } else r

/-- A GATE whose acknowledge flag is set and whose gate is the requested gate (R45). -/
def acknowledging (requested : Option Nat) (gate : Nat) (ack : Bool) : Bool :=
  ack && requested == some gate

/-- What a GATE writes (R45). -/
def AttemptRecord.writeGate (r : AttemptRecord) (gate : Nat) (ack : Bool) : AttemptRecord :=
  if r.state ≠ .called then r
  else match r.coach with
    | .none | .withdrawn => { r with juryGate := some gate, gateUsed := some gate }
    | .pending =>
      if acknowledging r.requested gate ack then { r with gateUsed := some gate, coach := .granted }
      else { r with juryGate := some gate, gateUsed := some gate, coach := .withdrawn }
    | .granted =>
      if acknowledging r.requested gate ack then r
      else { r with juryGate := some gate, gateUsed := some gate, coach := .withdrawn }

/-- What a COACH writes (R46). -/
def AttemptRecord.writeCoach (r : AttemptRecord) (juryGate requested : Nat) (withdrawn : Bool) :
    AttemptRecord :=
  if r.state ≠ .called then r
  else if withdrawn then
    if r.coach = .pending then { r with coach := .withdrawn } else r
  else match r.coach with
    | .none | .withdrawn =>
      { r with coach := .pending, requested := some requested, juryGate := some juryGate }
    | .pending | .granted => r

/-- What a LANDING writes (R50). -/
def AttemptRecord.writeLanding (r : AttemptRecord) (time : Tick) (distance : Nat) (q : Quality)
    (noTakeoff lateContact : Bool) : AttemptRecord :=
  if r.quality.isSome then r
  else
    { r with
      landingTime := some time
      quality := some q
      distance := if q = .none then r.distance else some distance
      flags := { r.flags with
        noTakeoff := r.flags.noTakeoff || noTakeoff
        lateContact := r.flags.lateContact || lateContact } }

/-- A RESULT is newer than what the record holds (R51). -/
def newerRevision (held : Option Nat) (revision : Nat) : Bool :=
  match held with
  | none => true
  | some h => h < revision

/-- What a RESULT writes (R51). -/
def AttemptRecord.writeResult (r : AttemptRecord) (l : LineHdr) (p : ResultPayload) : AttemptRecord :=
  if newerRevision r.revision p.revision then
    let r := r.markSaturated l
    { r with
      revision := some p.revision
      distance := some p.distance
      quality := some (if p.flags.manualDistance then .manual else p.quality)
      speed := if p.speed.isSome then p.speed else r.speed
      gateUsed := some p.gateUsed
      flags := { r.flags with timeSaturated := r.flags.timeSaturated || p.flags.timeSaturated } }
  else r

/-- The fields that a frame writes into a record it does not create (R44 to R51). A saturated CALL, GO, GATE or COACH sets
TIME_SATURATED, as R44 says of every frame, also where it writes nothing else: DESIGN CHOICE, log entry 44; of an older
RESULT see log entry 20. -/
def AttemptRecord.writeFields (r : AttemptRecord) (l : LineHdr) (b : Body) : AttemptRecord :=
  match b with
  | .gate _ g ack => (r.writeGate g ack).markSaturated l
  | .coach _ g q w => (r.writeCoach g q w).markSaturated l
  | .phase _ _ g _ n =>
    { r.markSaturated l with
      gateUsed := some g
      greenCount := n
      juryGate := if r.juryGate.isSome then r.juryGate else some g }
  | .leave _ held =>
    let r := r.markSaturated l
    { r with
      leaveTime := if r.leaveTime.isSome then r.leaveTime else some l.eventTime
      flags := { r.flags with leftOnHold := r.flags.leftOnHold || held } }
  | .speed _ v => { r.markSaturated l with speed := some v }
  | .takeoff _ _ =>
    { r.markSaturated l with
      takeoffTime := if r.takeoffTime.isSome then r.takeoffTime else some l.eventTime }
  | .landing _ d q nt lc => (r.writeLanding l.eventTime d q nt lc).markSaturated l
  | .result p => r.writeResult l p
  | .void _ reason => { r.markSaturated l with voidReason := some reason }
  | _ => r.markSaturated l

/-- A known record after a frame (R36 to R39, R52). -/
def AttemptRecord.take (r : AttemptRecord) (bound : Bool) (l : LineHdr) (b : Body) : AttemptRecord :=
  if r.state = .void then r
  else match b with
    | .void .. => { r with state := .void }.writeFields l b
    | _ => { r with state := nextState bound b r.state }.writeFields l b

/-- The record that a frame creates (R41, R44). -/
def newRecord (h : AttemptHdr) (l : LineHdr) (b : Body) : AttemptRecord :=
  let r : AttemptRecord := { hdr := h, state := impliedState b, created := l.stamp }
  match b with
  | .void _ reason => { r with voidReason := some reason }
  | .call _ g => { r.markSaturated l with juryGate := some g, gateUsed := some g }
  | _ => r.writeFields l b

/-! ## Room in the table (R42) -/

/-- The most records that the table holds (R35). -/
def tableLimit : Nat := 8

/-- The record with the oldest creation stamp, measured back from the present. -/
def oldest (now : Tick) : List AttemptRecord → Option AttemptRecord
  | [] => none
  | r :: rs =>
    match oldest now rs with
    | none => some r
    | some o => if since now r.created < since now o.created then some o else some r

/-- How room is made for a new record. -/
inductive Room
  | free
  | reuse (r : AttemptRecord)
  | evict (r : AttemptRecord)
  | none
  deriving DecidableEq, Repr

/-- The slot that a new record takes (R42). -/
def State.roomFor (s : State) (live : Bool) : Room :=
  if s.table.length < tableLimit then .free
  else match oldest s.clock (s.table.filter (fun r => !r.state.live)) with
    | some r => .reuse r
    | none =>
      if live then
        match oldest s.clock s.table with
        | some r => .evict r
        | none => .none
      else .none

/-- Takes a record out of the table. -/
def State.dropRecord (s : State) (n : Nat) : State :=
  { s with table := s.table.filter (fun r => r.hdr.attempt != n) }

/-- Whether a frame may create a record at this station (R40). -/
def State.mayCreate (s : State) (own : Bool) (b : Body) : Bool :=
  if s.loader.roles.jury then own && (match b with | .call .. => true | _ => false)
  else if s.loader.roles.start then own && (match b with | .phase .. => true | _ => false)
  else true

/-! ## Acting on a frame -/

/-- Raises ATTEMPT_STATE for a change (R56). -/
def State.raiseChange (s : State) (c : Change) : State :=
  match c with
  | .removed _ => s
  | .entered r _ forced => s.raise (.attemptState r.hdr r.state forced)

/-- Forces to LANDED, with MISSED, a record in a flight state (R43). -/
def AttemptRecord.forceLanded (r : AttemptRecord) : AttemptRecord :=
  { r with
    state := .landed
    flags := { r.flags with missed := true }
    forcedFromGreen := r.state == .green }

/-- Whether R43 forces a record, when attempt `n` enters a flight state. -/
def AttemptRecord.forcedBy (r : AttemptRecord) (n : Nat) : Bool := r.hdr.attempt != n && r.state.flight

/-- Applies R43 when the record just written is in a flight state into which the frame put it. -/
def State.forceOthers (s : State) (n : Nat) (put : Bool) : State × List Change :=
  if put then
    ({ s with table := s.table.map (fun r => if r.forcedBy n then r.forceLanded else r) },
      (s.table.filter (fun r => r.forcedBy n)).map
        (fun r => .entered r.forceLanded (some r.state) true))
  else (s, [])

/-- Raises the notices of changes, in order. -/
def State.raiseChanges (s : State) (cs : List Change) : State := cs.foldl State.raiseChange s

/-- Adds a created record (R41, R43). The slot has been made. The notices of the records forced come before its own:
DESIGN CHOICE, log entry 46. -/
def State.addRecord (s : State) (r : AttemptRecord) : State × List Change :=
  let (s, forced) := ({ s with table := s.table ++ [r] }).forceOthers r.hdr.attempt r.state.flight
  let changes := forced ++ [.entered r none false]
  (s.raiseChanges changes, changes)

/-- Takes a frame for a record held (R36 to R39, R43). ATTEMPT_MISMATCH comes before the ATTEMPT_STATE that the same
frame raises: DESIGN CHOICE, log entry 36. -/
def State.takeKnown (s : State) (own : Bool) (l : LineHdr) (b : Body) (h : AttemptHdr)
    (r : AttemptRecord) : State × List Change :=
  let s := if r.hdr = h then s else s.raise (.attemptMismatch r.hdr b.kind l.sender h.bib h.round)
  let r' := r.take (s.loader.roles.start && !own) l b
  let s := s.setRecord h.attempt (fun _ => r')
  if r'.state = r.state then (s, [])
  else
    let (s, forced) := s.forceOthers h.attempt r'.state.flight
    let changes := forced ++ [.entered r' (some r.state) false]
    (s.raiseChanges changes, changes)

/-- The local void of R53: the record moves to VOID with no reason. -/
def State.voidLocally (s : State) (n : Nat) : State × List Change :=
  match s.attempt? n with
  | none => (s, [])
  | some r =>
    if r.state = .void then (s, [])
    else
      let r' := { r with state := .void }
      let changes : List Change := [.entered r' (some r.state) false]
      ((s.setRecord n (fun _ => r')).raiseChanges changes, changes)

/-- The backlog count of R55. -/
def State.countBacklog (s : State) : Nat :=
  (s.table.filter (fun r =>
    (r.state == .onInrun || r.state == .airborne || r.state == .landed) && !r.forcedFromGreen)).length

end Sys2Proof.Machine
end

