-- ==== Sys2Proof/Machine/Start.lean ====
section
/-! DEFINITION. The start sequencer: cycle, lamps, hold list, corridor table, coach request and panels
(chapter 4). -/

namespace Sys2Proof.Machine

open Sys2Proof

/-- Changes the start sequencer's own state. -/
def State.modStart (s : State) (f : StartState → StartState) : State := { s with start := f s.start }

/-- The sequencer is active and the station is not MUTED: it runs cycles (R58). -/
def State.startRuns (s : State) : Bool := s.loader.roles.start && s.loader.state == .run

/-! ## Lamps and countdown (R58) -/

/-- The lamps that a phase commands on. -/
def phaseLamps : Phase → LampSet
  | .amber => { amber := true }
  | .green => { green := true }
  | _ => { red := true }

/-- The lamp outputs: the reset levels until the load ends in RUN with START, then the phase's. -/
def State.lampOutputs (s : State) : LampSet :=
  if s.startRuns && !s.resetAsserted then phaseLamps s.start.phase else { red := true }

/-- The countdown: dark, or the whole seconds shown. -/
def State.countdown (s : State) : Option Nat :=
  if s.startRuns && !s.resetAsserted && s.start.phase == .green then some s.start.shown else none

/-- Whole seconds of the green window remaining, rounded up. -/
def secondsLeft (now : Tick) (windowAt : Option Tick) : Nat :=
  match windowAt with
  | none => 0
  | some e => ((since e now).toNat + 9999) / 10000

/-! ## Phases and their frames (R60, R69) -/

/-- The PHASE frame that the sequencer offers now. -/
def StartState.phaseBody (st : StartState) (h : AttemptHdr) : Body :=
  .phase h st.phase st.gate (if st.phase = .green then st.shown else 0) st.greenCount

/-- Offers PHASE for the phase just entered, and keeps its copy (R60, R69). -/
def State.offerPhase (s : State) : State :=
  match s.start.current with
  | none => s
  | some h =>
    let b := s.start.phaseBody h
    (s.modStart (fun st => { st with keptPhase := some ⟨b, none⟩ })).offer b none

/-- Enters RED from AMBER or GREEN, or at a CALL. -/
def State.enterRed (s : State) : State :=
  (s.modStart (fun st => { st with phase := .red, readyAt := none, windowAt := none })).offerPhase

/-- Enters AMBER: the ready timer starts (R62). -/
def State.enterAmber (s : State) : State :=
  (s.modStart (fun st => { st with
    phase := .amber
    readyAt := some (s.clock + secondsT s.loader.consts.cycle.readyS)
    graceAt := none })).offerPhase

/-- Enters GREEN with a full window (R63). -/
def State.enterGreen (s : State) : State :=
  let w := s.loader.consts.cycle.greenS
  (s.modStart (fun st => { st with
    phase := .green
    readyAt := none
    greenCount := if st.greenCount < 255 then st.greenCount + 1 else 255
    windowAt := some (s.clock + secondsT w)
    shown := w })).offerPhase

/-- Enters GONE at a leave (R66): LEAVE with the break's event time, then PHASE GONE. -/
def State.enterGone (s : State) (h : AttemptHdr) (onHold : Bool) (eventTime : Tick) : State :=
  let leave : Body := .leave h onHold
  let s := s.modStart (fun st => { st with
    phase := .gone
    windowAt := none
    graceAt := none
    keptLeave := some ⟨leave, some eventTime⟩ })
  (s.offer leave (some eventTime)).offerPhase

/-! ## The hold list (R59) and its effect on the phase (R62, R64) -/

/-- The entry of a cause. -/
def StartState.hold? (st : StartState) (c : HoldCause) : Option Hold := st.holds.find? (·.cause == c)

/-- A cause stands in the hold list. -/
def StartState.standing (st : StartState) (c : HoldCause) : Bool := st.holds.any (·.cause == c)

/-- Replaces the source and detail of a cause in its place. -/
def replaceHold (c : HoldCause) (source detail : Nat) (hs : List Hold) : List Hold :=
  hs.map (fun h => if h.cause == c then { h with source := source, detail := detail } else h)

/-- A cause raised in AMBER or GREEN closes the start (R64). -/
def State.closeStart (s : State) : State :=
  match s.start.phase with
  | .amber => s.enterRed
  | .green =>
    let g := s.loader.consts.cycle.graceMs
    (s.modStart (fun st => { st with
      graceAt := if 0 < g then some (s.clock + millisT g) else none })).enterRed
  | _ => s

/-- An empty hold list in RED with the GO mark set brings AMBER (R62). -/
def State.openStart (s : State) : State :=
  if s.start.holds.isEmpty && s.start.phase == .red && s.start.goMark then s.enterAmber else s

/-- Appends an entry to the hold list (R59): it goes to the tail, but before an entry of the same instant whose
cause comes later in R59's list. Instants are told apart by the station clock (log entry 38). -/
def appendHold (h : Hold) : List Hold → List Hold
  | [] => [h]
  | x :: xs =>
    if x.raisedAt = h.raisedAt ∧ h.cause.code < x.cause.code then h :: x :: xs else x :: appendHold h xs

/-- Raises a cause (R59): a new cause is appended and closes the start; a standing one only takes the
source and detail. -/
def State.raiseHold (s : State) (c : HoldCause) (source detail : Nat) : State :=
  if s.start.standing c then
    s.modStart (fun st => { st with holds := replaceHold c source detail st.holds })
  else
    let s' := (s.modStart (fun st => { st with holds := appendHold ⟨c, s.clock, source, detail⟩ st.holds })).raise
      (.holdRaised c source detail)
    s'.closeStart

/-- Removes a cause from the list, with its notice. -/
def State.removeHold (s : State) (c : HoldCause) : State :=
  match s.start.hold? c with
  | none => s
  | some h =>
    (s.modStart (fun st => { st with holds := st.holds.filter (·.cause != c) })).raise
      (.holdReleased c h.source h.detail)

/-- Releases a cause (R59): a list that becomes empty is handed to the phase rules. -/
def State.releaseHold (s : State) (c : HoldCause) : State :=
  if s.start.standing c then (s.removeHold c).openStart else s

/-- Raises or releases a cause as its condition gives. -/
def State.holdWhile (s : State) (c : HoldCause) (why : Option (Nat × Nat)) : State :=
  match why with
  | some (source, detail) => s.raiseHold c source detail
  | none => s.releaseHold c

/-! ## The end of a cycle (R68) -/

/-- The cycle ends: IDLE, with the COACH cause released. -/
def State.endCycle (s : State) : State :=
  (s.modStart (fun st => { st with
    phase := .idle
    current := none
    goMark := false
    readyAt := none
    windowAt := none
    graceAt := none
    coach := .none
    requested := none
    keptPhase := none
    keptLeave := none
    shown := 0 })).releaseHold .coach

/-- Offers a VOID of the sequencer's own, keeps its copy and ends the cycle (R66, R67, R69). -/
def State.ownVoid (s : State) (reason : VoidReason) : State :=
  match s.start.current with
  | none => s
  | some h =>
    let b : Body := .void h reason
    ((s.modStart (fun st => { st with keptVoid := some ⟨b, none⟩ })).offer b none).endCycle

/-- Entry into MUTED (R58, R81): the cycle ends with no frame, and the reject lamp goes off. -/
def State.startMuted (s : State) : State :=
  s.endCycle.modStart (fun st => { st with keptVoid := none, rejectUntil := none })

/-! ## STATION, CONFIG and BACKLOG (R71, R72) -/

/-- The lowest number of a list. -/
def lowest : List Nat → Option Nat
  | [] => none
  | n :: ns =>
    match lowest ns with
    | none => some n
    | some m => some (min n m)

/-- The STATION condition: source and detail while a required station is not ready. -/
def State.stationCause (s : State) : Option (Nat × Nat) :=
  let bad := s.loader.consts.required.filter (fun n => !s.ready n)
  (lowest bad).map (fun n => (n, bad.length))

/-- A PRESENT entry does not announce the local digest: it differs, or no STATUS has been heard. -/
def State.notAnnouncing (s : State) (n : Nat) : Bool :=
  let e := s.rosterAt n
  e.presence == .present &&
    match e.status with
    | none => true
    | some h => h.payload.digest != s.loader.digest

/-- The CONFIG condition: source and detail while a PRESENT entry does not announce the local digest. -/
def State.configCause (s : State) : Option (Nat × Nat) :=
  (lowest ((List.range 16).filter s.notAnnouncing)).map (fun n =>
    (n, match (s.rosterAt n).status with
      | none => 0
      | some h => h.payload.digest.toNat))

/-- Evaluates STATION and CONFIG (R71). -/
def State.evalRosterHolds (s : State) : State :=
  let s := s.holdWhile .station s.stationCause
  s.holdWhile .config s.configCause

/-- The BACKLOG condition. -/
def State.backlogCause (s : State) : Option (Nat × Nat) :=
  let limit := s.loader.consts.cycle.backlogLimit
  if 0 < limit && limit ≤ s.start.backlog then some (s.loader.station, s.start.backlog) else none

/-- Evaluates BACKLOG (R72). -/
def State.evalBacklog (s : State) : State := s.holdWhile .backlog s.backlogCause

/-- Recomputes the backlog count; a change is handed to the sequencer (R55). -/
def State.recountBacklog (s : State) : State :=
  if s.loader.roles.start && s.countBacklog != s.start.backlog then
    (s.modStart (fun st => { st with backlog := s.countBacklog })).evalBacklog
  else s

/-! ## The corridor and WIND (R73, R74) -/

/-- A corridor entry is counted. -/
def State.counted (s : State) (e : CorridorEntry) : Bool :=
  match s.loader.consts.mastEntry e.mast with
  | none => false
  | some m => m.corridor

/-- The age in ticks at which a corridor entry ceases to be fresh. -/
def corridorLife : Int := 30000

/-- A corridor entry is fresh at a time. -/
def CorridorEntry.fresh (e : CorridorEntry) (now : Tick) : Bool :=
  !e.aged && since now e.arrival ≤ corridorLife && !e.flags.stale && !e.flags.service

/-- The wind of an entry is in band. -/
def CorridorEntry.inBand (e : CorridorEntry) (k : CorridorConsts) : Bool :=
  k.xMin ≤ e.meanX && e.meanX ≤ k.xMax && e.meanY.natAbs ≤ k.yMax

/-- The entry that arrived last; of two that arrived in one tick, the one that stands first in the table: DESIGN CHOICE,
log entry 63. -/
def latestArrival (now : Tick) : List CorridorEntry → Option CorridorEntry
  | [] => none
  | e :: es =>
    match latestArrival now es with
    | none => some e
    | some f => if since now f.arrival < since now e.arrival then some f else some e

/-- The WIND condition, with source and detail while it holds (R74). Only counted entries that are fresh give a source of
their own; out of band or not, any other entry is left aside, and with too few of them fresh and all of those in band
the source is the own number, with detail 0: DESIGN CHOICE, log entry 63. -/
def State.windCause (s : State) : Option (Nat × Nat) :=
  let fresh := s.start.corridor.filter (fun e => s.counted e && e.fresh s.clock)
  match latestArrival s.clock (fresh.filter (fun e => !e.inBand s.loader.consts.corridor)) with
  | some e => some (e.sender, e.mast)
  | none =>
    if fresh.length < s.loader.consts.corridor.minMasts then some (s.loader.station, 0) else none

/-- Evaluates the WIND condition (R74). -/
def State.evalWind (s : State) : State :=
  match s.windCause with
  | some (source, detail) =>
    (s.modStart (fun st => { st with settleAt := none })).raiseHold .wind source detail
  | none =>
    if s.start.standing .wind then
      if s.loader.consts.corridor.settleS = 0 then s.releaseHold .wind
      else if s.start.settleAt.isSome then s
      else s.modStart (fun st => { st with
        settleAt := some (s.clock + secondsT s.loader.consts.corridor.settleS) })
    else s

/-- Puts a corridor entry in the place of its mast's, or at the end. -/
def putCorridor (e : CorridorEntry) : List CorridorEntry → List CorridorEntry
  | [] => [e]
  | f :: fs => if f.mast = e.mast then e :: fs else f :: putCorridor e fs

/-- A CORRIDOR at the start station (R73). -/
def State.startCorridor (s : State) (l : LineHdr) (mast : Nat) (x y : Int) (used : Nat)
    (flags : CorridorFlags) : State :=
  if s.loader.consts.mastStation mast = some l.sender then
    (s.modStart (fun st => { st with
      corridor := putCorridor ⟨mast, l.sender, x, y, used, flags, l.stamp, false⟩ st.corridor })).evalWind
  else s.raise .corridorIgnored

/-! ## The coach request (R75, R76) -/

/-- The steps that the selector shows: exactly one position, or 0. -/
def selectorSteps (sel : BitVec 4) : Nat :=
  match sel.toNat with
  | 1 => 1
  | 2 => 2
  | 4 => 3
  | 8 => 4
  | _ => 0

/-- The reject lamp's time: 2 s. -/
def rejectTime : Tick := secondsT 2

/-- Refuses a press (R75): the reject lamp, but at a MUTED station, and the notice. -/
def State.refuseCoach (s : State) (steps : Nat) : State :=
  (s.modStart (fun st => { st with
    rejectUntil := if s.startRuns then some (s.clock + rejectTime) else none })).raise
    (.coachRefused s.start.phase s.start.coach steps)

/-- Takes a press of the request button (R75). -/
def State.pressCoach (s : State) (sel : BitVec 4) : State :=
  let steps := selectorSteps sel
  let st := s.start
  let accepted := s.startRuns && (st.phase == .red || st.phase == .amber) &&
    (st.coach == .none || st.coach == .withdrawn) && 0 < steps && steps < st.juryGate
  match st.current with
  | none => s.refuseCoach steps
  | some h =>
    if accepted then
      let req := st.juryGate - steps
      let s := s.modStart (fun st => { st with coach := .pending, requested := some req })
      (s.raiseHold .coach s.loader.station req).offer (.coach h st.juryGate req false) none
    else s.refuseCoach steps

/-- R65 past the coach request: the GATE's gate against the sequencer's. -/
def State.applyGate (s : State) (gate : Nat) : State :=
  if gate = s.start.gate then s
  else
    let s := s.modStart (fun st => { st with juryGate := gate, gate := gate })
    if s.start.phase = .amber then (s.modStart (fun st => { st with goMark := false })).enterRed else s

/-- A GATE that the sequencer takes (R65, R76). -/
def State.takeGate (s : State) (h : AttemptHdr) (gate : Nat) (ack : Bool) : State :=
  if s.start.coach = .pending ∨ s.start.coach = .granted then
    if acknowledging s.start.requested gate ack then
      if s.start.coach = .pending then
        (s.modStart (fun st => { st with gate := gate, coach := .granted })).releaseHold .coach
      else s
    else
      let b : Body := .coach h s.start.juryGate (orZero s.start.requested) true
      (((s.modStart (fun st => { st with coach := .withdrawn })).offer b none).applyGate gate).releaseHold
        .coach
  else s.applyGate gate

/-! ## Frames (R58, R61, R62, R65, R68 to R70) -/

/-- The sender is the station that the map names as JURY. -/
def State.fromJury (s : State) (l : LineHdr) : Bool :=
  s.loader.consts.stationWith (·.jury) == some l.sender

/-- The frame is the station's own. -/
def State.isOwn (s : State) (l : LineHdr) : Bool := l.sender == s.loader.station

/-- The current attempt has a number. -/
def StartState.isCurrent (st : StartState) (n : Nat) : Bool :=
  match st.current with
  | none => false
  | some h => h.attempt == n

/-- A CALL from the jury (R61). -/
def State.startCall (s : State) (h : AttemptHdr) (gate : Nat) : State :=
  if s.start.phase = .idle ∧ s.loader.state = .run ∧ s.attempt? h.attempt = none ∧
      gate ≤ s.loader.consts.gates.count then
    (s.modStart (fun st => { st with
      current := some h
      juryGate := gate
      gate := gate
      goMark := false
      greenCount := 0
      coach := .none
      requested := none
      keptVoid := none })).enterRed
  else s.raise (.callIgnored h.attempt s.start.phase)

/-- A GO from the jury (R62). -/
def State.startGo (s : State) (h : AttemptHdr) : State :=
  if s.start.phase = .idle ∨ !s.start.isCurrent h.attempt then s.raise .goIgnored
  else if s.start.phase = .red then (s.modStart (fun st => { st with goMark := true })).openStart
  else s

/-- A GATE from the jury (R65). -/
def State.startGate (s : State) (h : AttemptHdr) (gate : Nat) (ack : Bool) : State :=
  if (s.start.phase = .red ∨ s.start.phase = .amber) ∧ s.start.isCurrent h.attempt ∧
      gate ≤ s.loader.consts.gates.count then s.takeGate (s.start.current.getD h) gate ack
  else s.raise .gateIgnored

/-- A HOLD from the jury (R70). -/
def State.startHold (s : State) (l : LineHdr) (set : Bool) : State :=
  if set then s.raiseHold .jury l.sender 0 else s.releaseHold .jury

/-- Two PHASE contents are one kept copy: all fields but the seconds remaining (R69). -/
def samePhase (a b : Body) : Bool :=
  match a, b with
  | .phase h p g _ n, .phase h' p' g' _ n' => h == h' && p == p' && g == g' && n == n'
  | _, _ => false

/-- The sequencer's own PHASE at echo (R69). -/
def State.startOwnPhase (s : State) (b : Body) : State :=
  let s := s.modStart (fun st => { st with
    keptPhase := if (match st.keptPhase with
        | some k => samePhase k.body b
        | none => false) then none else st.keptPhase })
  match b with
  | .phase _ .gone _ _ _ => s.reoffer s.start.keptLeave
  | _ => s

/-- The copy stays unless it is the frame delivered at echo. -/
def dropDelivered (k : Option KeptFrame) (b : Body) : Option KeptFrame :=
  match k with
  | some f => if f.body = b then none else k
  | none => none

/-- A VOID from the jury, or the sequencer's own at echo (R68, R69). -/
def State.startVoid (s : State) (l : LineHdr) (h : AttemptHdr) (b : Body) : State :=
  if s.fromJury l || s.isOwn l then
    let s := if s.isOwn l then
        s.modStart (fun st => { st with keptVoid := dropDelivered st.keptVoid b })
      else s
    if s.start.phase ≠ .idle ∧ s.start.isCurrent h.attempt then s.endCycle else s
  else s

/-- A LANDING, MASTMEAN or RESULT (R68). -/
def State.startLanded (s : State) (h : AttemptHdr) : State :=
  if s.start.phase = .gone ∧ s.start.isCurrent h.attempt then s.endCycle else s

/-- The kept PHASE as it is offered again: a GREEN one with the countdown's value now (R69). -/
def State.reofferPhase (s : State) : State :=
  match s.start.keptPhase with
  | some ⟨.phase h .green g _ n, t⟩ => s.offer (.phase h .green g s.start.shown n) t
  | k => s.reoffer k

/-- The sequencer's own STATUS at echo: every copy kept is offered again (R69). -/
def State.startOwnStatus (s : State) : State :=
  let s := s.reoffer s.start.keptLeave
  let s := s.reofferPhase
  s.reoffer s.start.keptVoid

/-- A frame of a kind that the jury alone may send. -/
def State.juryOnly (s : State) (l : LineHdr) (b : Body) (act : State → State) : State :=
  if s.fromJury l then act s else s.raise (.frameIgnored b.kind l.sender)

/-- A frame delivered to the start sequencer (R58). -/
def State.startFrame (s : State) (l : LineHdr) (b : Body) : State :=
  match b with
  | .call h g => s.juryOnly l b (·.startCall h g)
  | .go h => s.juryOnly l b (·.startGo h)
  | .gate h g a => s.juryOnly l b (·.startGate h g a)
  | .hold set => s.juryOnly l b (·.startHold l set)
  | .corridor m x y u f => s.startCorridor l m x y u f
  | .void h _ => s.startVoid l h b
  | .landing h .. => s.startLanded h
  | .mastMean h .. => s.startLanded h
  | .result r => s.startLanded r.hdr
  | .phase .. => if s.isOwn l then s.startOwnPhase b else s
  | .leave .. =>
    if s.isOwn l then s.modStart (fun st => { st with keptLeave := dropDelivered st.keptLeave b }) else s
  | .status _ => if s.isOwn l then s.startOwnStatus else s
  | .event .. =>
    (if s.start.phase = .idle then s else s.endCycle).modStart (fun st => { st with keptVoid := none })
  | _ => s

/-! ## Entry into RUN and restart (R81) -/

/-- The barrier as it is when its block becomes active (R79, R83). -/
def startBarrier (broken : Bool) (now : Tick) : BarrierState := if broken then .broken now else .clear

/-- The sequencer at entry into RUN. -/
def State.startEntry (s : State) (broken : Bool) : State :=
  let s := s.modStart (fun _ => { barrier := startBarrier broken s.clock })
  s.evalWind.evalRosterHolds.evalBacklog

/-- The detail of a LAMP cause raised again at a restart, where R81 names none: the first failed lamp in the order
RED, AMBER, GREEN. DESIGN CHOICE, log entry 18. -/
def firstLamp (f : LampSet) : Lamp := if f.red then .red else if f.amber then .amber else .green

/-- The sequencer at a restart: the cycle ends with no frame, the list is emptied, and the causes are
evaluated again. -/
def State.startRestart (s : State) : State :=
  let s := s.endCycle
  let s := (s.start.holds.map (·.cause)).foldl (fun s c => s.removeHold c) s
  let s := s.modStart (fun st => { st with
    keptVoid := none, corridor := [], settleAt := none, rejectUntil := none, backlog := s.countBacklog })
  let s := s.evalWind.evalRosterHolds.evalBacklog
  if s.start.failed.isEmpty then s
  else s.raiseHold .lamp s.loader.station (firstLamp s.start.failed).code

/-! ## Timers -/

/-- READY_TIMER_EXPIRY: the ready timer expires in AMBER and the start opens (R63). -/
def execReadyTimerExpiry (s : State) : Result :=
  .next (if expired s.clock s.start.readyAt then
      if s.start.phase = .amber then s.enterGreen
      else s.modStart (fun st => { st with readyAt := none })
    else s)

/-- WINDOW_TIMER_EXPIRY: the green window runs out (R67). -/
def execWindowTimerExpiry (s : State) : Result :=
  .next (if expired s.clock s.start.windowAt then
      let s := s.modStart (fun st => { st with windowAt := none })
      if s.start.phase = .green then s.ownVoid .late else s
    else s)

/-- GRACE_TIMER_EXPIRY: the leave grace ends (R64). -/
def execGraceTimerExpiry (s : State) : Result :=
  .next (if expired s.clock s.start.graceAt then s.modStart (fun st => { st with graceAt := none }) else s)

/-- SETTLE_TIMER_EXPIRY: the settle timer expires and WIND is released (R74). -/
def execSettleTimerExpiry (s : State) : Result :=
  .next (if expired s.clock s.start.settleAt then
      (s.modStart (fun st => { st with settleAt := none })).releaseHold .wind
    else s)

/-- A corridor entry has come to the end of its life, and it has not been taken yet. -/
def CorridorEntry.due (e : CorridorEntry) (now : Tick) : Bool :=
  !e.aged && corridorLife ≤ since now e.arrival

/-- CORRIDOR_ENTRY_AGED: an entry passes 3000 ms since its arrival (R73, R74). An entry that its flags
had kept from being fresh is only marked. -/
def execCorridorEntryAged (mast : Nat) (s : State) : Result :=
  .next (match s.start.corridor.find? (fun e => e.mast == mast && e.due s.clock) with
    | none => s
    | some e =>
      let s' := s.modStart (fun st => { st with
        corridor := st.corridor.map (fun f =>
          if f.mast == mast && f.due s.clock then { f with aged := true } else f) })
      if e.flags.stale || e.flags.service then s' else s'.evalWind)

/-- COUNTDOWN_TICK: the remaining green window falls to a new whole second (R58). -/
def execCountdownTick (s : State) : Result :=
  .next (if s.start.phase = .green ∧ secondsLeft s.clock s.start.windowAt < s.start.shown then
      s.modStart (fun st => { st with shown := secondsLeft s.clock s.start.windowAt })
    else s)

/-- REJECT_LAMP_END: the reject lamp goes out (R75). -/
def execRejectLampEnd (s : State) : Result :=
  .next (if expired s.clock s.start.rejectUntil then
      s.modStart (fun st => { st with rejectUntil := none })
    else s)

/-! ## The leave barrier (R66, R79) -/

/-- The debounce of a barrier: 10 ticks. -/
def debounceTicks : Tick := ticks 10

/-- The time after which a broken barrier is STUCK: 2 s. -/
def stuckTime : Int := 20000

/-- What the sequencer does with a break, by its phase (R66). In MUTED it answers as in IDLE (R58). -/
def State.takeLeave (s : State) (eventTime : Tick) : State :=
  if !s.startRuns then s.raise .strayLeave
  else match s.start.phase, s.start.current with
    | .green, some h => s.enterGone h false eventTime
    | .red, some h =>
      if s.start.graceAt.isSome then s.enterGone h true eventTime else s.ownVoid .falseStart
    | .amber, some _ => s.ownVoid .falseStart
    | .gone, _ => s.raise .leaveIgnored
    | _, _ => s.raise .strayLeave

/-- LEAVE_BREAK: the leave barrier has shown a break for 1 ms. -/
def execLeaveBreak (s : State) : Result :=
  .next (if s.loader.roles.start && s.start.barrier == .clear then
      let t := s.clock - debounceTicks
      (s.modStart (fun st => { st with barrier := .broken t })).takeLeave t
    else s)

/-- LEAVE_BARRIER_CLEAR: the leave barrier has shown unbroken for 1 ms. -/
def execLeaveBarrierClear (s : State) : Result :=
  .next (if s.loader.roles.start then s.modStart (fun st => { st with barrier := .clear }) else s)

/-- A broken barrier has been so for 2 s. -/
def BarrierState.stuckDue (b : BarrierState) (now : Tick) : Bool :=
  match b with
  | .broken t => stuckTime ≤ since now t
  | _ => false

/-- LEAVE_BARRIER_STUCK: the leave barrier is still BROKEN 2 s after its break. -/
def execLeaveBarrierStuck (s : State) : Result :=
  .next (if s.loader.roles.start && s.start.barrier.stuckDue s.clock then
      (s.modStart (fun st => { st with barrier := .stuck })).report .barrierStuck 0
    else s)

/-! ## Panels and lamps (R70, R75, R77, R78) -/

/-- TRACK_HOLD: a press of TRACK HOLD. -/
def execTrackHold (s : State) : Result :=
  .next (if s.loader.roles.start then s.raiseHold .track s.loader.station 0 else s)

/-- TRACK_RELEASE: a press of TRACK RELEASE. -/
def execTrackRelease (s : State) : Result :=
  .next (if s.loader.roles.start then s.releaseHold .track else s)

/-- COACH_REQUEST_PRESS: a press of the request button. -/
def execCoachRequestPress (selector : BitVec 4) (s : State) : Result :=
  .next (if s.loader.roles.start then s.pressCoach selector else s)

/-- LAMP_FAIL: a lamp commanded on has shown the fault level for 20 ms (R77). FAULT_REPORTED comes before HOLD_RAISED:
DESIGN CHOICE, log entry 46. -/
def execLampFail (lamp : Lamp) (s : State) : Result :=
  .next (if s.loader.roles.start && s.lampOutputs.has lamp && !s.start.failed.has lamp then
      ((s.modStart (fun st => { st with failed := st.failed.insert lamp })).report .lampFail
        lamp.code).raiseHold .lamp s.loader.station lamp.code
    else s)

/-- LAMP_CHECK: the console command reads the three sense inputs (R78). R78 speaks of a station in RUN; one MUTED from RUN
answers and acts alike. DESIGN CHOICE, log entry 66. -/
def execLampCheck (faulty : LampSet) (s : State) : Result :=
  .next (s.command 0x10 true (·.start) (fun s =>
    if s.start.failed.isEmpty then s.answer 0x10 .ok
    else if faulty.isEmpty then
      ((s.modStart (fun st => { st with failed := {} })).releaseHold .lamp).answer 0x10 .ok
    else s.answer 0x10 .state))

end Sys2Proof.Machine
end

