-- ==== Sys2Proof/Machine/Edge.lean ====
section
/-! DEFINITION. The edge timer: barriers A, B and T, the speed trap and the takeoff (chapter 5). -/

namespace Sys2Proof.Machine

open Sys2Proof

/-- Changes the edge timer's own state. -/
def State.modEdge (s : State) (f : EdgeState → EdgeState) : State := { s with edge := f s.edge }

/-! ## Speed arithmetic (R87) -/

/-- The interval of `t` µs over a spacing of `mm` millimetres is plausible. -/
def speedPlausible (k : EdgeConsts) (t : Nat) : Bool :=
  k.speedMin * t ≤ k.spacingMm * 36000 && k.spacingMm * 36000 ≤ k.speedMax * t

/-- The speed in tenths of km/h. -/
def speedOf (k : EdgeConsts) (t : Nat) : Nat := roundHalfUp (k.spacingMm * 36000) t

/-! ## The run record (R82, R84) -/

/-- Discards the run record with its kept frames. -/
def EdgeState.discardRun (e : EdgeState) : EdgeState :=
  { e with run := none, keptSpeed := none, keptTakeoff := none }

/-- The run record belongs to an attempt. -/
def EdgeState.runOf (e : EdgeState) (n : Nat) : Bool :=
  match e.run with
  | none => false
  | some r => r.hdr.attempt == n

/-- The states that end an attempt for the edge timer. -/
def AttemptState.edgeDone : AttemptState → Bool
  | .landed | .published | .void => true
  | _ => false

/-- A change of the table (R82). -/
def State.edgeChange (s : State) (c : Change) : State :=
  match c with
  | .removed r => if s.edge.runOf r.hdr.attempt then s.modEdge EdgeState.discardRun else s
  | .entered r _ _ =>
    if r.state.edgeDone && s.edge.runOf r.hdr.attempt then s.modEdge EdgeState.discardRun else s

/-- The run record of an attempt: the one held, or a new one in its place. -/
def EdgeState.runFor (e : EdgeState) (h : AttemptHdr) : EdgeState :=
  if e.runOf h.attempt then e else { e.discardRun with run := some { hdr := h } }

/-- The record on the inrun, to which breaks are attributed. -/
def State.onInrun (s : State) : Option AttemptRecord := s.table.find? (fun r => r.state == .onInrun)

/-! ## Breaks (R83 to R88) -/

/-- The microseconds of a debounce. -/
def debounceMicros : Micros := 1000

/-- A break of barrier A attributed to the run record's attempt (R85). -/
def State.breakA (s : State) (run : RunRecord) (t : Tick) (us : Micros) : State :=
  if run.aTime.isNone && !run.bTaken && !run.tTaken then
    s.modEdge (fun e => { e with run := some { run with aTime := some (t, us) } })
  else s.raise (.breakIgnored run.hdr.attempt .a)

/-- A pair of breaks that gives no speed (R86). -/
def State.implausible (s : State) (run : RunRecord) (t : Option Micros) : State :=
  s.raise (.speedImplausible run.hdr.attempt t)

/-- A break of barrier B attributed to the run record's attempt (R86). -/
def State.breakB (s : State) (run : RunRecord) (t : Tick) (us : Micros) : State :=
  if !run.bTaken && !run.tTaken then
    let run := { run with bTaken := true }
    let s := s.modEdge (fun e => { e with run := some run })
    match run.aTime with
    | none => s.raise (.speedMissing run.hdr.attempt)
    | some (ta, ua) =>
      if 20000 < since t ta then s.implausible run none
      else
        let dt := us - ua
        if speedPlausible s.loader.consts.edge dt.toNat then
          let b : Body := .speed run.hdr (speedOf s.loader.consts.edge dt.toNat)
          (s.modEdge (fun e => { e with
            run := some { run with speedOffered := true }
            keptSpeed := some ⟨b, some t⟩ })).offer b (some t)
        else s.implausible run (some dt)
  else s.raise (.breakIgnored run.hdr.attempt .b)

/-- A break of barrier T attributed to the run record's attempt (R88). -/
def State.breakT (s : State) (run : RunRecord) (t : Tick) : State :=
  if run.tTaken then s.raise (.breakIgnored run.hdr.attempt .t)
  else
    let b : Body := .takeoff run.hdr (!run.speedOffered)
    (s.modEdge (fun e => { e with
      run := some { run with tTaken := true }
      keptTakeoff := some ⟨b, some t⟩ })).offer b (some t)

/-- Attributes a break (R84): the attempt on the inrun takes it, or it is stray. -/
def State.attributeBreak (s : State) (bar : EdgeBarrier) (t : Tick) (act : State → RunRecord → State) :
    State :=
  match s.onInrun with
  | none => s.raise (.strayBreak bar t)
  | some r =>
    let s := s.modEdge (·.runFor r.hdr)
    act s (s.edge.run.getD { hdr := r.hdr })

/-- The state of a barrier. -/
def EdgeState.barrier (e : EdgeState) : EdgeBarrier → BarrierState
  | .a => e.a
  | .b => e.b
  | .t => e.t

/-- Changes the state of a barrier. -/
def EdgeState.setBarrier (e : EdgeState) (bar : EdgeBarrier) (v : BarrierState) : EdgeState :=
  match bar with
  | .a => { e with a := v }
  | .b => { e with b := v }
  | .t => { e with t := v }

/-- Takes a break of a barrier that was CLEAR (R83), with its two instants. -/
def State.edgeBreak (s : State) (bar : EdgeBarrier)
    (act : State → RunRecord → Tick → Micros → State) : State :=
  if s.loader.roles.edge && s.edge.barrier bar == .clear then
    let t := s.clock - debounceTicks
    let us := s.edge.micros - debounceMicros
    (s.modEdge (·.setBarrier bar (.broken t))).attributeBreak bar t (fun s run => act s run t us)
  else s

/-- BARRIER_A_BREAK: barrier A has shown a break for 1 ms. -/
def execBarrierABreak (s : State) : Result := .next (s.edgeBreak .a State.breakA)

/-- BARRIER_B_BREAK: barrier B has shown a break for 1 ms. -/
def execBarrierBBreak (s : State) : Result := .next (s.edgeBreak .b State.breakB)

/-- BARRIER_T_BREAK: barrier T has shown a break for 1 ms. -/
def execBarrierTBreak (s : State) : Result := .next (s.edgeBreak .t (fun s run t _ => s.breakT run t))

/-- EDGE_BARRIER_CLEAR: a barrier has shown unbroken for 1 ms. -/
def execEdgeBarrierClear (barrier : EdgeBarrier) (s : State) : Result :=
  .next (if s.loader.roles.edge then s.modEdge (·.setBarrier barrier .clear) else s)

/-- The detail of BARRIER_STUCK for an edge barrier. -/
def edgeBarrierCode : EdgeBarrier → Nat
  | .a => 1
  | .b => 2
  | .t => 3

/-- EDGE_BARRIER_STUCK: a barrier is still BROKEN 2 s after its break. -/
def execEdgeBarrierStuck (barrier : EdgeBarrier) (s : State) : Result :=
  .next (if s.loader.roles.edge && (s.edge.barrier barrier).stuckDue s.clock then
      (s.modEdge (·.setBarrier barrier .stuck)).report .barrierStuck (edgeBarrierCode barrier)
    else s)

/-! ## Frames, entry into RUN (R89, R90) -/

/-- A frame delivered to the edge timer: its own SPEED, TAKEOFF and STATUS at echo. -/
def State.edgeFrame (s : State) (l : LineHdr) (b : Body) : State :=
  if s.isOwn l then
    match b with
    | .speed .. => s.modEdge (fun e => { e with keptSpeed := dropDelivered e.keptSpeed b })
    | .takeoff .. => s.modEdge (fun e => { e with keptTakeoff := dropDelivered e.keptTakeoff b })
    | .status _ =>
      let s := s.reoffer s.edge.keptSpeed
      s.reoffer s.edge.keptTakeoff
    | _ => s
  else s

/-- The edge timer at entry into RUN. -/
def State.edgeEntry (s : State) (broken : BarrierInputs) : State :=
  s.modEdge (fun _ => {
    a := startBarrier broken.first s.clock
    b := startBarrier broken.second s.clock
    t := startBarrier broken.third s.clock })

end Sys2Proof.Machine
end

