-- ==== Sys2Proof/Machine/Wind.lean ====
section
/-! DEFINITION. The wind unit: the sensor poller, console service, the sample ring, corridor summaries and
flight-window means (chapter 6). -/

namespace Sys2Proof.Machine

open Sys2Proof

/-- Changes the wind unit's own state. -/
def State.modWind (s : State) (f : WindState → WindState) : State := { s with wind := f s.wind }

/-! ## Stability and samples (R93, R94, R100, R101, R103) -/

/-- Sets the stability, with its notice at a change (R103). -/
def State.setStable (s : State) (v : Bool) : State :=
  if s.wind.stable = v then s
  else (s.modWind (fun w => { w with stable := v })).raise (.mastStability s.loader.mast v)

/-- The most samples that the ring holds (R101). -/
def ringLimit : Nat := 160

/-- Enters a sample: a full ring loses its oldest. -/
def pushSample (ring : List Sample) (x : Sample) : List Sample :=
  if ring.length < ringLimit then ring ++ [x] else ring.drop (ring.length + 1 - ringLimit) ++ [x]

/-- A component clamped to −4000 to 4000 cm/s (R100). -/
def clampWind (v : Int) : Int := if v < -4000 then -4000 else if 4000 < v then 4000 else v

/-- The highest value of the held, good-poll and no-answer counts. -/
def countLimit : Nat := 10

/-- A failed poll (R94). -/
def State.failedPoll (s : State) : State :=
  let s := s.modWind (fun w => { w with goodCount := 0 })
  match s.wind.lastGood with
  | none => s
  | some (x, y) =>
    if s.wind.heldCount < countLimit then
      s.modWind (fun w => { w with
        ring := pushSample w.ring ⟨s.clock, x, y, true⟩
        heldCount := w.heldCount + 1 })
    else (s.modWind (fun w => { w with lastGood := none })).setStable false

/-- A good poll (R93, R100, R103). -/
def State.goodPoll (s : State) (x y : Int) (sequence : Byte) : State :=
  let x := clampWind x
  let y := clampWind y
  let s := s.modWind (fun w => { w with
    lastSequence := some sequence
    noAnswer := 0
    missingReported := false
    ring := pushSample w.ring ⟨s.clock, x, y, false⟩
    lastGood := some (x, y)
    heldCount := 0
    goodCount := if w.goodCount < countLimit then w.goodCount + 1 else countLimit })
  if s.wind.goodCount = countLimit then s.setStable true else s

/-- The outcome NO_ACK: the no-answer count rises, and SENSOR_MISSING is reported as it reaches 10, unless it has
been reported and no poll outcome has set the count to 0 since (R93). -/
def State.noAnswer (s : State) : State :=
  if s.wind.noAnswer < countLimit then
    let s := s.modWind (fun w => { w with noAnswer := w.noAnswer + 1 })
    if s.wind.noAnswer = countLimit ∧ s.wind.missingReported = false then
      (s.modWind (fun w => { w with missingReported := true })).report .sensorMissing
        s.loader.consts.sensorAddress
    else s
  else s

/-- A poll outcome sets the no-answer count to 0 (R93). -/
def State.answered (s : State) : State :=
  s.modWind (fun w => { w with noAnswer := 0, missingReported := false })

/-- The status byte shows the measurement valid: its bit 0 (section 12.4). -/
def measurementValid (status : Byte) : Bool := status.getLsbD 0

/-- The outcome of a poll that ended without a hang (R93). The notice of SENSOR_MISSING comes before MAST_STABILITY: DESIGN
CHOICE, log entry 46. -/
def State.pollOutcome (s : State) (r : PollResult) : State :=
  match r with
  | .data x y status sequence =>
    if measurementValid status then
      if s.wind.lastSequence = some sequence then
        s.answered.failedPoll
      else s.goodPoll x.toInt y.toInt sequence
    else s.answered.failedPoll
  | .noAck _ => s.noAnswer.failedPoll
  | .arbLost _ => s.failedPoll

/-! ## The bus (R95, R96) and the console operations (R97 to R99) -/

/-- The first part of a transaction: the address in the write direction and the bytes written. A transaction that only
reads has none, and one that neither writes nor reads has the address alone (R99). -/
def writePhase (address readCount : Nat) (write : List Byte) : List BusItem :=
  if write.isEmpty && readCount != 0 then [] else .start :: .address address false :: write.map .send

/-- The second part of a transaction: the address in the read direction and the bytes read, after a repeated start, or
after a start where nothing was written (R99). -/
def readPhase (address readCount : Nat) (write : List Byte) : List BusItem :=
  if readCount = 0 then []
  else (if write.isEmpty then .start else .repeatedStart) :: .address address true ::
    List.replicate readCount .receive

/-- What a transaction that nothing cuts short sends (R99). The start condition of an address test, which R99 leaves
unsaid: DESIGN CHOICE, log entry 52. -/
def transactionSends (address readCount : Nat) (write : List Byte) : List BusItem :=
  writePhase address readCount write ++ readPhase address readCount write ++ [.stop]

/-- What the transaction of a poll sends: register pointer 0, and six data bytes read (section 6.2). -/
def pollSends (address : Nat) : List BusItem := transactionSends address 6 [0]

/-- What the release burst sends: nine clock pulses, then a stop condition (R95). -/
def burstSends : List BusItem := List.replicate 9 .clockPulse ++ [.stop]

/-- What of a transaction has gone out at its outcome: all of it at OK; at NO_ACK what went before, and a stop condition;
at ARB_LOST what went before alone (R93, R99). -/
def cutShort (o : TransferOutcome) (items : List BusItem) : List BusItem :=
  match o with
  | .ok => items
  | .noAck k => items.dropLast.take k ++ [.stop]
  | .arbLost k => items.take k

/-- The number of bytes read among what has gone out. -/
def bytesRead (items : List BusItem) : Nat := items.count .receive

/-- The output on the sensor bus becomes a transaction or a burst. -/
def State.sendOnBus (s : State) (items : List BusItem) : State := s.modWind (fun w => { w with sends := items })

/-- Sets the bus state, with SENSOR_BUS at a change into or out of HUNG (R111). A burst that SENSOR_RELEASE orders out of
HUNG is such a change, and the FREE that may follow it is none: DESIGN CHOICE, log entry 53. -/
def State.setBus (s : State) (b : BusState) : State :=
  let s' := s.modWind (fun w => { w with bus := b })
  if (s.wind.bus == .hung) != (b == .hung) then s'.raise (.sensorBus s.loader.mast b) else s'

/-- A transaction begins (R92, R99). -/
def State.beginTransaction (s : State) (bus : BusState) (items : List BusItem) : State :=
  (s.sendOnBus items).setBus bus

/-- A transaction ends at an outcome other than HUNG (R92, R93, R99). -/
def State.endTransaction (s : State) (o : TransferOutcome) (items : List BusItem) : State :=
  (s.sendOnBus (cutShort o items)).setBus .free

/-- A release burst begins (R95, R99). -/
def State.beginBurst (s : State) (ordered fromHung : Bool) : State :=
  (s.sendOnBus burstSends).setBus (.releasing ordered fromHung)

/-- A hang is detected (R95): SENSOR_HUNG, and the automatic release burst. The detail is the address of the transaction,
as R95 has it, also where that is not the anemometer's, which the table of R32 names: DESIGN CHOICE, log entry 62. -/
def State.detectHang (s : State) (address : Nat) : State :=
  (s.beginBurst false false).report .sensorHung address

/-- Codes of a transfer's outcome (section 12.3); a hang has code 3. -/
def transferCode : TransferOutcome → Nat
  | .ok => 0
  | .noAck _ => 1
  | .arbLost _ => 2

/-- Answers a transfer with its outcome and the FIFO contents, and ends the operation (R99). -/
def State.answerTransfer (s : State) (outcome : Nat) : State :=
  (s.modWind (fun w => { w with pendingOp := none })).reply
    { command := 0x21, code := .ok,
      extra := [byte outcome, byte s.wind.fifo.length] ++ s.wind.fifo }

/-- Answers the pending operation with a code alone, and ends it. -/
def State.answerOp (s : State) (kind : Nat) (code : ReplyCode) : State :=
  (s.modWind (fun w => { w with pendingOp := none })).answer kind code

/-- SENSOR_MODE carried out (R98). -/
def State.setMaster (s : State) (m : MasterSelect) : State :=
  if s.wind.master = m then s
  else
    (s.modWind (fun w => { w with
      master := m, goodCount := 0, heldCount := 0, noAnswer := 0, lastGood := none,
      lastSequence := none })).setStable false

/-- Carries out the pending operation where the bus is FREE or HUNG (R97 to R99). A transfer that finds the data line low
is answered at the detection of the hang, before the burst ends: DESIGN CHOICE, log entry 45. -/
def State.carryOut (s : State) : State :=
  if s.wind.bus = .free ∨ s.wind.bus = .hung then
    match s.wind.pendingOp with
    | none => s
    | some (.mode m) => (s.setMaster m).answerOp 0x20 .ok
    | some (.transfer address n write) =>
      if s.wind.master = .auto ∨ s.wind.bus = .hung then s.answerOp 0x21 .state
      else
        let s := s.modWind (fun w => { w with fifo := [] })
        if s.wind.dataLow then (s.detectHang address).answerTransfer 3
        else s.beginTransaction .busyTransfer (transactionSends address n write)
    | some .release => s.beginBurst true (s.wind.bus == .hung)
  else s

/-- A sensor command becomes the pending operation, where none is held (R97). -/
def State.takeOp (s : State) (kind : Nat) (op : Option SensorOp) : State :=
  if s.wind.pendingOp.isSome then s.answer kind .state
  else match op with
    | none => s.answer kind .range
    | some o => (s.modWind (fun w => { w with pendingOp := some o })).carryOut

/-- The master select that a SENSOR_MODE code names. -/
def masterOf (mode : Nat) : Option MasterSelect :=
  if mode = 0 then some .auto else if mode = 1 then some .console else none

/-- SENSOR_MODE (R97, R98). -/
def execSensorMode (mode : Nat) (s : State) : Result :=
  .next (s.command 0x20 true (·.mast) (fun s => s.takeOp 0x20 ((masterOf mode).map .mode)))

/-- The operands of SENSOR_TRANSFER that R97 takes. -/
def transferInRange (address readCount : Nat) (write : List Byte) : Bool :=
  0x08 ≤ address && address ≤ 0x77 && write.length ≤ 8 && readCount ≤ 32

/-- SENSOR_TRANSFER (R97, R99). `dataLow` is the level of the data line; where it is low, the reply comes at once (log
entry 45). -/
def execSensorTransfer (address readCount : Nat) (write : List Byte) (dataLow : Bool) (s : State) :
    Result :=
  .next (s.command 0x21 (write.length ≤ 8) (·.mast) (fun s =>
    (s.modWind (fun w => { w with dataLow := dataLow })).takeOp 0x21
      (if transferInRange address readCount write then some (.transfer address readCount write)
       else none)))

/-- SENSOR_RELEASE (R97, R99). -/
def execSensorRelease (s : State) : Result :=
  .next (s.command 0x22 true (·.mast) (fun s => s.takeOp 0x22 (some .release)))

/-- SENSOR_TRANSFER_END: the transaction of a transfer ends (R99). The bytes read are those of the part of the transaction
that has gone out, all of the read count at OK; a report of any other number of bytes is none of this transaction and
changes nothing: DESIGN CHOICE, log entry 52. -/
def execSensorTransferEnd (outcome : TransferOutcome) (read : List Byte) (s : State) : Result :=
  .next (match s.wind.bus, s.wind.pendingOp with
    | .busyTransfer, some (.transfer address n write) =>
      let items := transactionSends address n write
      if read.length = bytesRead (cutShort outcome items) then
        ((s.modWind (fun w => { w with fifo := read })).endTransaction outcome items).answerTransfer
          (transferCode outcome)
      else s
    | _, _ => s)

/-! ## Polls (R92, R95, R96) -/

/-- The interval of poll times: 1,000 ticks. -/
def pollPeriod : Tick := ticks 1000

/-- POLL_TIME: a poll begins, is SKIPPED, or has no effect (R92). At a hang the notice of SENSOR_HUNG comes before
MAST_STABILITY: DESIGN CHOICE, log entry 46. -/
def execPollTime (dataLow : Bool) (s : State) : Result :=
  .next (if expired s.clock s.wind.nextPoll then
      let s := s.modWind (fun w => { w with
        nextPoll := w.nextPoll.map (· + pollPeriod)
        dataLow := dataLow })
      if s.wind.master = .console then s
      else if s.wind.bus = .free then
        if dataLow then (s.detectHang s.loader.consts.sensorAddress).failedPoll
        else s.beginTransaction .busyPoll (pollSends s.loader.consts.sensorAddress)
      else s.failedPoll
    else s)

/-- POLL_COMPLETE: the poll's transaction ends (R93), and then a waiting operation is carried out (R97; the order of their
notices: DESIGN CHOICE, log entry 46). -/
def execPollComplete (result : PollResult) (s : State) : Result :=
  .next (if s.wind.bus = .busyPoll then
      ((s.endTransaction result.outcome (pollSends s.loader.consts.sensorAddress)).pollOutcome result).carryOut
    else s)

/-- CLOCK_STRETCH_TIMEOUT: the anemometer holds the clock low over 10 ms (R95). `read` are the bytes that
a transfer had read before. A transfer is answered at once, before the burst ends: DESIGN CHOICE, log entry 45. At a poll
the notice of SENSOR_HUNG comes before MAST_STABILITY: DESIGN CHOICE, log entry 46. -/
def execClockStretchTimeout (read : List Byte) (s : State) : Result :=
  .next (match s.wind.bus, s.wind.pendingOp with
    | .busyPoll, _ => (s.detectHang s.loader.consts.sensorAddress).failedPoll
    | .busyTransfer, some (.transfer address n _) =>
      ((s.modWind (fun w => { w with fifo := read.take n })).detectHang address).answerTransfer 3
    | _, _ => s)

/-- RELEASE_BURST_END: the data line sampled decides FREE or HUNG (R95, R96, R99). -/
def execReleaseBurstEnd (dataHigh : Bool) (s : State) : Result :=
  .next (match s.wind.bus with
    | .releasing ordered _ =>
      let s := (s.modWind (fun w => { w with dataLow := !dataHigh })).setBus
        (if dataHigh then .free else .hung)
      if ordered then
        (s.modWind (fun w => { w with pendingOp := none })).reply
          { command := 0x22, code := .ok, extra := [byte (if dataHigh then 0 else 3)] }
      else s.carryOut
    | _ => s)

/-! ## Corridor summaries (R104, R105) -/

/-- The mean of a list of components. -/
def meanOf (xs : List Int) : Int := if xs.isEmpty then 0 else roundHalfAway xs.sum xs.length

/-- The samples that a corridor summary uses (R104): later than the offer time less the window, and not later
than the offer time. R104's bound on their number is not imposed here: DESIGN CHOICE, log entry 54. -/
def corridorSamples (now : Tick) (windowS : Nat) (ring : List Sample) : List Sample :=
  ring.filter (fun x => 0 ≤ since now x.time && since now x.time < (windowS * 10000 : Nat))

/-- The CORRIDOR frame formed now. -/
def State.corridorBody (s : State) : Body :=
  let w := s.loader.consts.corridor.windowS
  let used := corridorSamples s.clock w s.wind.ring
  let n := used.length
  .corridor s.loader.mast (meanOf (used.map (·.x))) (meanOf (used.map (·.y))) n
    { held := used.any (·.held)
      stale := decide (2 * n < w * 10) || !s.wind.stable
      service := s.wind.master == .console }

/-- The period of the CORRIDOR cadence (R17). -/
def corridorPeriod : Tick := ticks 10000

/-- CORRIDOR_OFFER: the cadence of R17 expires. -/
def execCorridorOffer (s : State) : Result :=
  .next (if expired s.clock s.line.nextCorridor then
      ({ s with line := { s.line with nextCorridor := s.line.nextCorridor.map (· + corridorPeriod) } }).offer
        s.corridorBody none
    else s)

/-! ## The flight-window mean (R106 to R109) -/

/-- The samples of the window from `start` to `stop`, both included. -/
def flightSamples (start stop : Tick) (ring : List Sample) : List Sample :=
  ring.filter (fun x => reached x.time start && reached stop x.time)

/-- The mean over a record's window: mean, samples used, PARTIAL (R107). -/
def State.flightMean (s : State) (r : AttemptRecord) : Option Int × Nat × Bool :=
  match r.takeoffTime, r.landingTime with
  | some t, some stop =>
    let start := t - millisT s.loader.consts.wind.preWindowMs
    if before stop start then (none, 0, false)
    else
      let used := flightSamples start stop s.wind.ring
      if used.isEmpty then (none, 0, false)
      else (some (roundHalfAway (used.map (·.x)).sum used.length), used.length,
        match s.wind.ring with
        | [] => false
        | o :: _ => before start o.time)
  | _, _ => (none, 0, false)

/-- The mean record of an attempt is held. -/
def WindState.hasMean (w : WindState) (n : Nat) : Bool := w.means.any (·.attempt == n)

/-- A LANDING at the MAST station (R106, R108). MEAN_SENT is raised here, at the first offer, as R111 says, and
not where R109 offers the copy again: DESIGN CHOICE, log entry 37. -/
def State.windLanding (s : State) (n : Nat) : State :=
  match s.attempt? n with
  | none => s
  | some r =>
    if r.state = .void then s.raise (.meanNotSent n)
    else if r.state = .landed ∧ !s.wind.hasMean n then
      let (mean, used, part) := s.flightMean r
      let b : Body := .mastMean r.hdr s.loader.mast mean used part
      ((s.modWind (fun w => { w with means := w.means ++ [⟨n, some b, false⟩] })).offer b none).raise
        (.meanSent n mean used part)
    else s

/-- The own MASTMEAN of an attempt is delivered (R109). -/
def MeanRecord.deliver (m : MeanRecord) (n : Nat) : MeanRecord :=
  if m.attempt = n then { m with copy := none, delivered := true } else m

/-- Offers again every copy in a list of bodies. -/
def State.reofferAll (s : State) (bs : List Body) : State := bs.foldl (fun s b => s.offer b none) s

/-- A frame delivered to the wind unit (R91). -/
def State.windFrame (s : State) (l : LineHdr) (b : Body) : State :=
  match b with
  | .landing h .. => s.windLanding h.attempt
  | .mastMean h .. =>
    if s.isOwn l then s.modWind (fun w => { w with means := w.means.map (·.deliver h.attempt) }) else s
  | .status _ => if s.isOwn l then s.reofferAll (s.wind.means.filterMap (·.copy)) else s
  | _ => s

/-- The states that remove a mean record (R109). -/
def AttemptState.ended : AttemptState → Bool
  | .published | .void => true
  | _ => false

/-- A change of the table (R109). -/
def State.windChange (s : State) (c : Change) : State :=
  match c with
  | .removed r =>
    s.modWind (fun w => { w with means := w.means.filter (·.attempt != r.hdr.attempt) })
  | .entered r _ _ =>
    if r.state.ended then
      s.modWind (fun w => { w with means := w.means.filter (·.attempt != r.hdr.attempt) })
    else s

/-- The wind unit at entry into RUN (R112). -/
def State.windEntry (s : State) : State := s.modWind (fun _ => { nextPoll := some s.clock })

/-- The wind unit at a restart (R112). -/
def State.windRestart (s : State) : State :=
  (s.modWind (fun w => { w with
    lastSequence := none, lastGood := none, heldCount := 0, goodCount := 0, noAnswer := 0, ring := [],
    means := [] })).setStable false

end Sys2Proof.Machine
end

