-- ==== Sys2Proof/Machine/Span.lean ====
section
/-! DEFINITION. The span unit: head link, contacts and view claims (chapter 7, sections 7.1 to 7.5). -/

namespace Sys2Proof.Machine

open Sys2Proof

/-- Changes the span unit's own state. -/
def State.modSpan (s : State) (f : SpanState → SpanState) : State := { s with span := f s.span }

/-- The attempt header of an attempt number: its record's. -/
def State.hdrOf (s : State) (n : Nat) : AttemptHdr :=
  match s.attempt? n with
  | some r => r.hdr
  | none => ⟨n, 0, 1⟩

/-- Offers a frame of the span unit and keeps its copy (R120). -/
def State.offerKept (s : State) (b : Body) (t : Tick) : State :=
  (s.modSpan (fun p => { p with kept := p.kept ++ [⟨b, some t⟩] })).offer b (some t)

/-- The later of two instants. -/
def later (a b : Tick) : Tick := if before a b then b else a

/-- Both tracks of a flight record are reported. -/
def FlightRecord.bothTracks (f : FlightRecord) : Bool := f.left && f.right

/-- Begins a claim where R118 allows it. The presence has just become ON, or the flight record has just
been created. -/
def State.beginClaim (s : State) : State :=
  match s.span.flight with
  | none => s
  | some f =>
    if f.claim = .none ∧ !f.bothTracks ∧ s.span.presence then
      let start := later s.span.presenceChanged f.created
      let limit := start + secondsT s.loader.consts.flight.viewS
      (s.modSpan (fun p => { p with
        flight := some { f with claim := .opened, claimStart := start, viewLimitAt := limit } })).offerKept
        (.inView (s.hdrOf f.attempt) s.loader.span) start
    else s

/-- The body is an IN_VIEW. -/
def isInView : Body → Bool
  | .inView .. => true
  | _ => false

/-- Ends an OPEN claim (R119). -/
def State.endClaim (s : State) (reason : LostReason) (t : Tick) : State :=
  match s.span.flight with
  | none => s
  | some f =>
    if f.claim = .opened then
      (s.modSpan (fun p => { p with
        flight := some { f with claim := .ended }
        kept := p.kept.filter (fun k => !isInView k.body) })).offerKept
        (.viewLost (s.hdrOf f.attempt) s.loader.span reason) t
    else s

/-! ## The head link (R114, R115) -/

/-- The most ticks between valid records of a link that is HEARD: 5,000. -/
def headLimit : Int := 5000

/-- A valid record of any kind refreshes the link (R114, R115). -/
def State.headRecord (s : State) (stamp : Tick) : State :=
  let s' := s.modSpan (fun p => { p with lastRecord := stamp, heard := true, head := [] })
  if s.span.heard then s' else s'.raise (.headLink s.loader.span true)

/-- The presence becomes OFF (R115, R119). -/
def State.presenceOff (s : State) (t : Tick) : State :=
  (s.modSpan (fun p => { p with presence := false, presenceChanged := t })).endClaim .presenceOff t

/-- HEARTBEAT: a valid HEARTBEAT record. -/
def execHeartbeat (stamp : Tick) (s : State) : Result :=
  .next (if s.loader.roles.span then s.headRecord stamp else s)

/-- PRESENCE: a valid PRESENCE record. -/
def execPresence (on : Bool) (stamp : Tick) (s : State) : Result :=
  .next (if s.loader.roles.span then
      let s := s.headRecord stamp
      if s.span.presence = on then s
      else if on then
        (s.modSpan (fun p => { p with presence := true, presenceChanged := stamp })).beginClaim
      else s.presenceOff stamp
    else s)

/-- HEAD_LINK_SILENT: no head record for 500 ms (R115). FAULT_REPORTED of HEAD_FAULT comes before HEAD_LINK,
and HEAD_LINK before what the end of the view claim raises: DESIGN CHOICE, log entry 46. -/
def execHeadLinkSilent (s : State) : Result :=
  .next (if s.loader.roles.span && s.span.heard && headLimit < since s.clock s.span.lastRecord then
      (((s.modSpan (fun p => { p with heard := false })).report .headFault s.loader.span).raise
        (.headLink s.loader.span false)).presenceOff s.clock
    else s)

/-! ## Contacts (R117) -/

/-- A track is reported in a flight record. -/
def FlightRecord.reported (f : FlightRecord) : Track → Bool
  | .left => f.left
  | .right => f.right

/-- Marks a track reported. -/
def FlightRecord.report (f : FlightRecord) : Track → FlightRecord
  | .left => { f with left := true }
  | .right => { f with right := true }

/-- Handles a valid CONTACT record (R117). -/
def State.spanContact (s : State) (track : Track) (offset : Nat) (stamp : Tick) : State :=
  match s.span.flight, s.loader.consts.spanEntry s.loader.span with
  | some f, some e =>
    if e.endCm - e.startCm < offset then s.raise (.contactOutOfSpan f.attempt track offset)
    else if f.reported track then s
    else
      let f' := f.report track
      let s := (s.modSpan (fun p => { p with flight := some f' })).offerKept
        (.contact (s.hdrOf f.attempt) s.loader.span track (e.startCm + offset)) stamp
      if f'.bothTracks then s.endClaim .bothTracks stamp else s
  | _, _ => s.raise (.strayContact track offset stamp)

/-- HEAD_CONTACT: a valid CONTACT record. An offset above 30,000 cm is no valid record (R114). -/
def execHeadContact (track : Track) (offset : Nat) (stamp : Tick) (s : State) : Result :=
  .next (if s.loader.roles.span && offset ≤ 30000 then (s.headRecord stamp).spanContact track offset stamp
    else s)

/-- The most ticks between two characters of a head record (R114). -/
def headGap : Nat := 20

/-- A condition of R114 under which a head record is discarded holds: a gap of more than 2 ms, a stop bit sampled
low, or characters that spell no valid record. -/
def discardHolds : HeadDiscard → Bool
  | .gap n => headGap < n
  | .lowStop => true
  | .chars cs => (readHeadRecord cs).isNone

/-- HEAD_RECORD_DISCARD: the record being assembled is dropped where a condition of R114 holds, whatever its
characters spell so far. -/
def execHeadRecordDiscard (why : HeadDiscard) (s : State) : Result :=
  .next (if s.loader.roles.span && discardHolds why then s.modSpan (fun p => { p with head := [] }) else s)

/-- VIEW_LIMIT_EXPIRY: the view limit of an OPEN claim is reached (R119). -/
def execViewLimitExpiry (s : State) : Result :=
  .next (match s.span.flight with
    | none => s
    | some f =>
      if f.claim = .opened ∧ reached s.clock f.viewLimitAt then s.endClaim .viewLimit f.viewLimitAt
      else s)

/-! ## The attempt table, frames and entry into RUN (R116, R120, R121) -/

/-- Discards the flight record with its kept frames. -/
def SpanState.discardFlight (p : SpanState) : SpanState := { p with flight := none, kept := [] }

/-- The flight record belongs to an attempt. -/
def SpanState.flightOf (p : SpanState) (n : Nat) : Bool :=
  match p.flight with
  | none => false
  | some f => f.attempt == n

/-- A change of the table (R116). -/
def State.spanChange (s : State) (c : Change) : State :=
  match c with
  | .removed r => if s.span.flightOf r.hdr.attempt then s.modSpan SpanState.discardFlight else s
  | .entered r _ _ =>
    if r.state = .airborne then
      (s.modSpan (fun p => { p.discardFlight with
        flight := some { attempt := r.hdr.attempt, created := s.clock } })).beginClaim
    else if s.span.flightOf r.hdr.attempt then s.modSpan SpanState.discardFlight
    else s

/-- Drops the kept copy of a frame delivered at echo (R120). -/
def SpanState.deliver (p : SpanState) (b : Body) : SpanState :=
  { p with kept := p.kept.filter (fun k => k.body != b) }

/-- Offers again every copy of a list, in order. -/
def State.reofferKept (s : State) (ks : List KeptFrame) : State :=
  ks.foldl (fun s k => s.offer k.body k.eventTime) s

/-- A frame delivered to the span unit: its own frames at echo. -/
def State.spanFrame (s : State) (l : LineHdr) (b : Body) : State :=
  if s.isOwn l then
    match b with
    | .inView .. | .viewLost .. | .contact .. => s.modSpan (·.deliver b)
    | .status _ => s.reofferKept s.span.kept
    | _ => s
  else s

/-- The span unit at entry into RUN (R115, R121). -/
def State.spanEntryRun (s : State) : State :=
  s.modSpan (fun _ => { heard := true, lastRecord := s.clock })

end Sys2Proof.Machine
end

