-- ==== Sys2Proof/Machine/Landing.lean ====
section
/-! DEFINITION. The landing resolver at the jury station: timers, claims, the contact set and the LANDING
(chapter 7, sections 7.6 to 7.8). -/

namespace Sys2Proof.Machine

open Sys2Proof

/-! ## Contexts -/

/-- The context of an attempt. -/
def State.context? (s : State) (n : Nat) : Option LandingContext :=
  s.contexts.find? (·.attempt == n)

/-- Puts a context in the place of its attempt's, or at the end. -/
def putContext (c : LandingContext) : List LandingContext → List LandingContext
  | [] => [c]
  | d :: ds => if d.attempt = c.attempt then c :: ds else d :: putContext c ds

/-- Sets the context of its attempt. -/
def State.setContext (s : State) (c : LandingContext) : State :=
  { s with contexts := putContext c s.contexts }

/-- Removes the context of an attempt. -/
def State.dropContext (s : State) (n : Nat) : State :=
  { s with contexts := s.contexts.filter (·.attempt != n) }

/-- The report margin: 500 ticks. -/
def reportMargin : Tick := ticks 500

/-- Offers the LANDING of a context, which passes to SENT with its copy (R128). -/
def State.offerLanding (s : State) (c : LandingContext) (distance : Nat) (q : Quality)
    (noTakeoff : Bool) (t : Tick) : State :=
  let b : Body := .landing (s.hdrOf c.attempt) distance q noTakeoff c.late
  (s.setContext { c with
    phase := .sent, timer := .stopped, claims := [], contacts := [], copy := some ⟨b, some t⟩ }).offer b
    (some t)

/-! ## The inrun timer (R123) -/

/-- The inrun timer of a context has run out. -/
def LandingContext.inrunDue (c : LandingContext) (now : Tick) : Bool :=
  c.phase == .inrunWait && reached now c.inrunAt

/-- Takes the inrun expiry where it has come: a LANDING NONE with NO_TAKEOFF. -/
def State.takeInrun (s : State) (c : LandingContext) : State :=
  if c.inrunDue s.clock then s.offerLanding c 0 .none true c.inrunAt else s

/-- Sets or recomputes the inrun expiry from a base time. -/
def State.startInrun (s : State) (c : LandingContext) (base : Tick) : State :=
  let c := { c with inrunAt := base + secondsT s.loader.consts.flight.inrunS }
  (s.setContext c).takeInrun c

/-- INRUN_TIMER_EXPIRY: the inrun timer expires. -/
def execInrunTimerExpiry (attempt : Nat) (s : State) : Result :=
  .next (match s.context? attempt with
    | none => s
    | some c => s.takeInrun c)

/-! ## The flight timer and the claims (R124, R125) -/

/-- The flight timer of a context in FLIGHT_WAIT has run out, with its expiry. -/
def LandingContext.flightDue (c : LandingContext) (now : Tick) : Option Tick :=
  match c.phase, c.timer with
  | .flightWait, .running e => if reached now e then some e else none
  | _, _ => none

/-- Takes the flight expiry where it has come: CLOSING. -/
def State.takeFlight (s : State) (c : LandingContext) : State :=
  match c.flightDue s.clock with
  | none => s
  | some e =>
    s.setContext { c with
      phase := .closing, timer := .stopped, claims := [], landingTime := e, resolveAt := e + reportMargin }

/-- Enters FLIGHT_WAIT with the timer running from a base time (R124). An expiry already past is taken before the frame
that moved the record is handled, which then finds CLOSING: DESIGN CHOICE, log entry 55. -/
def State.startFlight (s : State) (c : LandingContext) (base : Tick) : State :=
  let c := { c with
    phase := .flightWait
    timer := .running (base + secondsT s.loader.consts.flight.flightS)
    claims := []
    claimed := []
    contacts := [] }
  (s.setContext c).takeFlight c

/-- FLIGHT_TIMER_EXPIRY: the flight timer expires. -/
def execFlightTimerExpiry (attempt : Nat) (s : State) : Result :=
  .next (match s.context? attempt with
    | none => s
    | some c => s.takeFlight c)

/-- Suspends a running timer, when the claim set has become non-empty. -/
def FlightTimer.suspend (t : FlightTimer) (now : Tick) : FlightTimer :=
  match t with
  | .running e => .suspended (e - now)
  | t => t

/-- Runs a suspended timer again, when the claim set has become empty. -/
def FlightTimer.resume (t : FlightTimer) (now : Tick) : FlightTimer :=
  match t with
  | .suspended r => .running (now + r)
  | t => t

/-- Removes the claims that a test names (R125). -/
def LandingContext.dropClaims (c : LandingContext) (now : Tick) (gone : Claim → Bool) : LandingContext :=
  let left := c.claims.filter (fun k => !gone k)
  { c with
    claims := left
    timer := if !c.claims.isEmpty && left.isEmpty then c.timer.resume now else c.timer }

/-- Adds the claim of an IN_VIEW (R125). -/
def LandingContext.addClaim (c : LandingContext) (now : Tick) (k : Claim) : LandingContext :=
  if c.claimed.contains k.span || !before now k.limit then c
  else
    { c with
      claims := c.claims ++ [k]
      claimed := c.claimed ++ [k.span]
      timer := if c.claims.isEmpty then c.timer.suspend now else c.timer }

/-- A claim has reached its limit. -/
def Claim.due (k : Claim) (now : Tick) : Bool := reached now k.limit

/-- CLAIM_LIMIT_REACHED: a claim reaches its limit. -/
def execClaimLimitReached (attempt span : Nat) (s : State) : Result :=
  .next (match s.context? attempt with
    | none => s
    | some c =>
      if c.phase = .flightWait then
        s.setContext (c.dropClaims s.clock (fun k => k.span == span && k.due s.clock))
      else s)

/-- A station has become SILENT: its claims are removed (R125). -/
def State.landingSilent (s : State) (station : Nat) : State :=
  { s with contexts := s.contexts.map (fun c =>
      if c.phase = .flightWait then c.dropClaims s.clock (·.station == station) else c) }

/-! ## The resolution (R127) -/

/-- The earliest event time of reports. -/
def earliest : List ContactReport → Option Tick
  | [] => none
  | r :: rs =>
    match earliest rs with
    | none => some r.time
    | some t => if before t r.time then some t else some r.time

/-- One report is chosen before another: the smaller position, then the earlier event time, then the lower
span number. -/
def preferred (a b : ContactReport) : Bool :=
  if a.position ≠ b.position then a.position < b.position
  else if a.time ≠ b.time then before a.time b.time
  else a.span ≤ b.span

/-- The report chosen among candidates. -/
def bestReport : List ContactReport → Option ContactReport
  | [] => none
  | r :: rs =>
    match bestReport rs with
    | none => some r
    | some q => if preferred r q then some r else some q

/-- The report chosen for a track among the used reports. -/
def chooseTrack (used : List ContactReport) (t : Track) : Option ContactReport :=
  let mine := used.filter (·.track == t)
  match earliest mine with
  | none => none
  | some e => bestReport (mine.filter (fun r => reached (e + 1) r.time))

/-- Distance, quality and landing time of the chosen reports. -/
def landingOf (l r : Option ContactReport) (anchor : Tick) : Nat × Quality × Tick :=
  match l, r with
  | some a, some b =>
    ((a.position + b.position) / 100, .both, if before b.time a.time then b.time else a.time)
  | some a, none => (a.position / 50, .one, a.time)
  | none, some b => (b.position / 50, .one, b.time)
  | none, none => (0, .none, anchor)

/-- A report is used: its event time is at or before the anchor plus the pairing window. -/
def ContactReport.usedBy (r : ContactReport) (anchor window : Tick) : Bool :=
  reached (anchor + window) r.time

/-- The resolution (R127): LANDING_RESOLVED, then the LANDING. -/
def State.resolve (s : State) (c : LandingContext) : State :=
  let window := millisT s.loader.consts.flight.pairingMs
  let used := c.contacts.filter (·.usedBy c.anchor window)
  let unused := c.contacts.length - used.length
  let left := chooseTrack used .left
  let right := chooseTrack used .right
  let (distance, q, t) := landingOf left right c.anchor
  let c := { c with late := c.late || 0 < unused }
  let s := s.raise (.landingResolved c.attempt distance q left right unused)
  match c.manual with
  | some m => s.offerLanding c m .manual false t
  | none => s.offerLanding c distance q false t

/-- The resolution time of a context in PAIRING has come. -/
def LandingContext.resolveDue (c : LandingContext) (now : Tick) : Bool :=
  c.phase == .pairing && reached now c.resolveAt

/-- Makes the resolution where its time has come. -/
def State.takeResolution (s : State) (c : LandingContext) : State :=
  if c.resolveDue s.clock then s.resolve c else s

/-- RESOLUTION_TIME: the resolution time arrives. -/
def execResolutionTime (attempt : Nat) (s : State) : Result :=
  .next (match s.context? attempt with
    | none => s
    | some c => s.takeResolution c)

/-- The end of CLOSING has come. -/
def LandingContext.closingDue (c : LandingContext) (now : Tick) : Bool :=
  c.phase == .closing && reached now c.resolveAt

/-- CLOSING_END: the report margin after a flight expiry ends (R128). -/
def execClosingEnd (attempt : Nat) (s : State) : Result :=
  .next (match s.context? attempt with
    | none => s
    | some c =>
      if c.closingDue s.clock then
        match c.manual with
        | some m => s.offerLanding c m .manual false c.landingTime
        | none => s.offerLanding c 0 .none false c.landingTime
      else s)

/-! ## Contacts (R126, R129) -/

/-- The most reports that the contact set holds (R126). -/
def contactLimit : Nat := 8

/-- Enters a report, and makes the resolution where its time has come (R126). -/
def State.enterContact (s : State) (c : LandingContext) (r : ContactReport) : State :=
  let anchor := if c.phase = .flightWait then r.time else if before r.time c.anchor then r.time else c.anchor
  let c := { c with
    phase := .pairing
    timer := .stopped
    claims := []
    contacts := c.contacts ++ [r]
    anchor := anchor
    resolveAt := anchor + millisT s.loader.consts.flight.pairingMs + reportMargin }
  (s.setContext c).takeResolution c

/-- A report of the same span and track is held. -/
def LandingContext.holds (c : LandingContext) (r : ContactReport) : Bool :=
  c.contacts.any (fun q => q.span == r.span && q.track == r.track)

/-- A CONTACT for an attempt with a context (R126, R129). In INRUN_WAIT, for which neither rule has a row, it changes
nothing and raises no notice: DESIGN CHOICE, log entry 47. -/
def State.contextContact (s : State) (c : LandingContext) (r : ContactReport) : State :=
  match c.phase with
  | .flightWait => if c.holds r then s else s.enterContact c r
  | .pairing =>
    if c.holds r then s
    else if contactLimit ≤ c.contacts.length then s.raise (.contactDiscarded c.attempt r)
    else s.enterContact c r
  | .closing => (s.setContext { c with late := true }).raise (.contactLate c.attempt r)
  | .sent => s.raise (.contactLate c.attempt r)
  | .inrunWait => s

/-- The record of an attempt is absent or VOID. -/
def State.untracked (s : State) (n : Nat) : Bool :=
  match s.attempt? n with
  | none => true
  | some r => r.state == .void

/-- A CONTACT from the right span station (R122, R126, R129). For a live record short of LANDED without a context, as R39
keeps one in CALLED or GREEN at a station that holds START and JURY, no rule has a row, and it changes nothing and raises
no notice: DESIGN CHOICE, log entry 47. -/
def State.landingContact (s : State) (l : LineHdr) (b : Body) (n : Nat) (r : ContactReport) : State :=
  if s.untracked n then s.raise (.landingUntracked n b.kind l.sender)
  else match s.context? n with
    | some c => s.contextContact c r
    | none =>
      match s.attempt? n with
      | some rec =>
        if rec.state = .landed ∨ rec.state = .published then s.raise (.contactLate n r) else s
      | none => s

/-! ## Frames and changes of the table (R122 to R124, R128) -/

/-- A span frame is taken only from the station that holds the span number (R122). -/
def State.fromSpan (s : State) (l : LineHdr) (b : Body) (span : Nat) (act : State → State) : State :=
  if s.loader.consts.spanStation span = some l.sender then act s
  else s.raise (.spanMismatch b.kind l.sender span)

/-- An IN_VIEW (R125). -/
def State.landingInView (s : State) (l : LineHdr) (n span : Nat) : State :=
  match s.context? n with
  | none => s
  | some c =>
    if c.phase = .flightWait then
      s.setContext (c.addClaim s.clock
        ⟨l.sender, span, l.eventTime + secondsT s.loader.consts.flight.viewS⟩)
    else s

/-- A VIEW_LOST (R125). -/
def State.landingViewLost (s : State) (n span : Nat) : State :=
  match s.context? n with
  | none => s
  | some c =>
    if c.phase = .flightWait then s.setContext (c.dropClaims s.clock (·.span == span)) else s

/-- A LEAVE (R122, R123). -/
def State.landingLeave (s : State) (l : LineHdr) (b : Body) (n : Nat) : State :=
  if s.untracked n then s.raise (.landingUntracked n b.kind l.sender)
  else match s.context? n, s.attempt? n with
    | some c, some r =>
      match r.leaveTime with
      | some t => if c.phase = .inrunWait then s.startInrun c t else s
      | none => s
    | _, _ => s

/-- The LANDING that a context has sent ended INRUN_WAIT. -/
def LandingContext.sentNoTakeoff (c : LandingContext) : Bool :=
  c.phase == .sent && match c.copy with
    | some ⟨.landing _ _ _ nt _, _⟩ => nt
    | _ => false

/-- A TAKEOFF (R122, R123). -/
def State.landingTakeoff (s : State) (l : LineHdr) (b : Body) (n : Nat) : State :=
  if s.untracked n then s.raise (.landingUntracked n b.kind l.sender)
  else match s.context? n with
    | some c => if c.sentNoTakeoff then s.raise (.takeoffLate n) else s
    | none => s

/-- The context has sent its LANDING. -/
def State.contextSent (s : State) (n : Nat) : Bool :=
  match s.context? n with
  | none => false
  | some c => c.phase == .sent

/-- The manual distance that a SENT context hands to the scoring unit at its LANDING's echo (R128). -/
def State.handedManual (s : State) (l : LineHdr) (b : Body) : Option Nat :=
  match b with
  | .landing h .. =>
    if s.isOwn l && s.contextSent h.attempt then (s.context? h.attempt).bind (·.manual) else none
  | _ => none

/-- A frame delivered to the landing resolver. -/
def State.landingFrame (s : State) (l : LineHdr) (b : Body) : State :=
  match b with
  | .leave h _ => s.landingLeave l b h.attempt
  | .takeoff h _ => s.landingTakeoff l b h.attempt
  | .inView h span => s.fromSpan l b span (·.landingInView l h.attempt span)
  | .viewLost h span _ => s.fromSpan l b span (·.landingViewLost h.attempt span)
  | .contact h span track pos =>
    s.fromSpan l b span (·.landingContact l b h.attempt ⟨span, track, pos, l.eventTime⟩)
  | .landing h .. =>
    if s.isOwn l && s.contextSent h.attempt then s.dropContext h.attempt else s
  | .status _ => if s.isOwn l then s.reofferKept (s.contexts.filterMap (·.copy)) else s
  | _ => s

/-- The states that remove a context. -/
def AttemptState.landingDone : AttemptState → Bool
  | .published | .void => true
  | _ => false

/-- A record enters ON_INRUN (R122, R123). -/
def State.landingOnInrun (s : State) (l : LineHdr) (r : AttemptRecord) : State :=
  match s.context? r.hdr.attempt with
  | some _ => s
  | none => s.startInrun { attempt := r.hdr.attempt } (r.leaveTime.getD l.stamp)

/-- A record enters AIRBORNE (R124). -/
def State.landingAirborne (s : State) (l : LineHdr) (r : AttemptRecord) : State :=
  let base := r.takeoffTime.getD l.eventTime
  match s.context? r.hdr.attempt with
  | none => s.startFlight { attempt := r.hdr.attempt } base
  | some c => if c.phase = .inrunWait then s.startFlight c base else s

/-- R43 has forced a record to LANDED: its context is abandoned, unless SENT (R122). -/
def State.landingForced (s : State) (n : Nat) : State :=
  match s.context? n with
  | none => s
  | some c => if c.phase = .sent then s else (s.dropContext n).raise (.landingAbandoned n)

/-- A change of the table, with the frame that made it. -/
def State.landingChange (s : State) (l : LineHdr) (c : Change) : State :=
  match c with
  | .removed r => s.dropContext r.hdr.attempt
  | .entered r _ forced =>
    if forced then s.landingForced r.hdr.attempt
    else if r.state.landingDone then s.dropContext r.hdr.attempt
    else match r.state with
      | .onInrun => s.landingOnInrun l r
      | .airborne => s.landingAirborne l r
      | _ => s

end Sys2Proof.Machine
end

