-- ==== Sys2Proof/Machine/Scoring.lean ====
section
/-! DEFINITION. The scoring unit at the jury station: gather, marks, the points, RESULT and corrections
(chapter 8, but for the console command VOID, which stands with the standings unit). -/

namespace Sys2Proof.Machine

open Sys2Proof

/-! ## The scoring part -/

/-- Changes the scoring part of an attempt, where its record holds one. -/
def State.modPart (s : State) (n : Nat) (f : ScoringPart → ScoringPart) : State :=
  s.setRecord n (fun r => { r with scoring := r.scoring.map f })

/-- Changes the scoring unit's own state. -/
def State.modScoring (s : State) (f : ScoringState → ScoringState) : State :=
  { s with scoring := f s.scoring }

/-- The scoring part of an attempt. -/
def State.part? (s : State) (n : Nat) : Option ScoringPart := (s.attempt? n).bind (·.scoring)

/-! ## The points (section 8.5) -/

/-- The distance points (R140): B + (d − K) × MV / 2. -/
def distancePoints (k : HillConsts) (d : Nat) : Int :=
  (k.basePoints : Int) + ((d : Int) - k.kPoint) * k.meterValue / 2

/-- The greatest of a list of marks, 0 for none. -/
def maxMark (ms : List Nat) : Nat := ms.foldl max 0

/-- The least of a list of marks, 40 for none. -/
def minMark (ms : List Nat) : Nat := ms.foldl min 40

/-- The style points of the marks held (R141): one highest and one lowest are set aside. -/
def stylePoints (ms : List Nat) : Nat :=
  roundHalfUp ((ms.sum - maxMark ms - minMark ms) * 15) (ms.length - 2)

/-- The gate compensation for a gate difference (R142). -/
def gateCompensation (k : GatesConsts) (delta : Int) : Int :=
  roundHalfAway (delta * k.spacing * k.factor) 100

/-- The coach request is granted, and the distance keeps the granted gate (R142): d × 100 ≥ 95 × HS. -/
def coachQualified (k : HillConsts) (granted : Bool) (d : Nat) : Bool :=
  granted && 95 * k.hillSize ≤ d * 100

/-- The gate from which the jumper is compensated (R142). -/
def compensationGate (k : HillConsts) (r : AttemptRecord) (d : Nat) : Nat :=
  if r.coach = .granted ∧ !coachQualified k true d then orZero r.juryGate else orZero r.gateUsed

/-- The weight of a mast; 0 where it has no MASTS entry. -/
def Constants.weight (k : Constants) (mast : Nat) : Nat :=
  match k.mastEntry mast with
  | some m => m.weight
  | none => 0

/-- The entries that the wind value includes, as weight, mean and PARTIAL (R143). -/
def includedMeans (k : Constants) (means : List MeanEntry) : List (Nat × Int × Bool) :=
  means.filterMap (fun e =>
    match e.mean with
    | none => none
    | some x =>
      if k.wind.minSamples ≤ e.used ∧ 0 < k.weight e.mast then some (k.weight e.mast, x, e.partialMean)
      else none)

/-- The wind value (R143), absent when too few masts are included. -/
def windValue (k : Constants) (means : List MeanEntry) : Option Int :=
  let inc := includedMeans k means
  if inc.length < k.wind.minMasts then none
  else some (roundHalfAway ((inc.map (fun (w, x, _) => (w : Int) * x)).sum) ((inc.map (·.1)).sum))

/-- The wind compensation (R144). -/
def windCompensation (k : WindConsts) (w : Option Int) : Int :=
  match w with
  | none => 0
  | some w => roundHalfAway (-w * (if 0 ≤ w then k.headFactor else k.tailFactor)) 100

/-- The total (R145): a negative sum gives 0. -/
def totalPoints (distance : Int) (style : Nat) (gate wind : Int) : Nat :=
  (distance + style + gate + wind).toNat

/-- Marks count for an attempt: COMPETITION mode and a bib other than 0 (R138, R141, R146). -/
def State.judged (s : State) (bib : Nat) : Bool := bib != 0 && s.scoring.mode != some .training

/-- The RESULT of an attempt (R140 to R146). -/
def State.computeResult (s : State) (r : AttemptRecord) (p : ScoringPart) (refGate revision : Nat) :
    ResultPayload :=
  let k := s.loader.consts
  let (d, q) := p.distance.getD (0, .none)
  let judged := s.judged r.hdr.bib
  let marks := if judged then p.marks else ⟨none, none, none, none, none⟩
  let granted := r.coach == .granted
  let dp := distancePoints k.hill d
  let sp := if judged then stylePoints p.marks.held else 0
  let gc := gateCompensation k.gates ((refGate : Int) - compensationGate k.hill r d)
  let w := windValue k p.means
  let wc := windCompensation k.wind w
  { hdr := r.hdr
    revision := revision
    flags :=
      { trial := r.hdr.bib == 0
        windUnavailable := w.isNone
        styleScaled := judged && decide (p.marks.held.length < 5)
        coachRequest := granted
        coachQualified := coachQualified k.hill granted d
        manualDistance := q == .manual
        timeSaturated := r.flags.timeSaturated
        partialWind := w.isSome && (includedMeans k p.means).any (fun (_, _, part) => part) }
    distance := d
    quality := q
    speed := r.speed
    gateUsed := orZero r.gateUsed
    wind := w
    marks := marks
    distancePoints := dp
    stylePoints := sp
    gateComp := gc
    windComp := wc
    total := totalPoints dp sp gc wc }

/-- The reference gate of an attempt (R142). -/
def State.referenceGate (s : State) (r : AttemptRecord) : Nat :=
  match s.standings.round.refGate with
  | some g => if s.standings.round.number = r.hdr.round then g else orZero r.juryGate
  | none => orZero r.juryGate

/-! ## Publication (R146) and the scoring test (R138) -/

/-- Offers a RESULT, at first or again: each offer raises RESULT_SENT (R146, R147). -/
def State.sendResult (s : State) (res : ResultPayload) : State :=
  (s.offer (.result res) none).raise (.resultSent res.hdr.attempt res.revision res.total)

/-- Offers a VOID of the scoring unit, at first or again: each offer raises VOID_SENT (R149, R150). -/
def State.sendVoid (s : State) (v : VoidCopy) : State :=
  (s.offer (.void v.hdr v.reason) none).raise (.voidSent v.hdr.attempt v.reason)

/-- Offers a RESULT, keeps it, and passes to SENT (R146, R147). -/
def State.offerResult (s : State) (n : Nat) (refGate : Nat) (res : ResultPayload) : State :=
  (s.modPart n (fun p => { p with
    refGateUsed := some refGate, computed := some res, revision := some res.revision,
    copy := some res, stage := .sent })).sendResult res

/-- The marks that the part needs are held (R138). -/
def State.marksReady (s : State) (bib : Nat) (p : ScoringPart) : Bool :=
  !s.judged bib || p.marks.held.length == 5 || (p.force && 3 ≤ p.marks.held.length)

/-- A VOID copy is kept for an attempt. -/
def State.voidKept (s : State) (n : Nat) : Bool :=
  s.scoring.voidCopies.any (fun v => v.hdr.attempt == n)

/-- The scoring test of an attempt passes (R138). -/
def State.scoringReady (s : State) (r : AttemptRecord) (p : ScoringPart) : Bool :=
  r.state.live && p.stage == .waiting && !s.voidKept r.hdr.attempt && p.distance.isSome &&
    p.gather == .done && s.marksReady r.hdr.bib p

/-- Makes the scoring test (R138). -/
def State.scoringTest (s : State) (n : Nat) : State :=
  match s.attempt? n with
  | none => s
  | some r =>
    match r.scoring with
    | none => s
    | some p =>
      if s.scoringReady r p then
        s.offerResult n (s.referenceGate r) (s.computeResult r p (s.referenceGate r) 0)
      else s

/-! ## The gather (R133 to R135) -/

/-- A scoring mast: its MASTS entry carries the scoring flag, and a station holds it (R133). -/
def Constants.isScoring (k : Constants) (mast : Nat) : Bool :=
  (match k.mastEntry mast with
    | some m => m.scoring
    | none => false) && (k.mastStation mast).isSome

/-- An expected mast: a scoring mast whose station is PRESENT (R133). -/
def State.expectedMasts (s : State) : List Nat :=
  ((s.loader.consts.masts.map (·.mast)).filter s.loader.consts.isScoring).filter (fun m =>
    match s.loader.consts.mastStation m with
    | none => false
    | some st => (s.rosterAt st).presence == .present)

/-- An OPEN gather becomes DONE (R135). -/
def State.gatherDone (s : State) (n entries : Nat) (deadline : Bool) : State :=
  ((s.modPart n (fun p => { p with gather := .done, deadline := none })).raise
    (.gatherDone n entries deadline)).scoringTest n

/-- Tests an OPEN gather for completeness (R135). -/
def State.gatherTest (s : State) (n : Nat) : State :=
  match s.part? n with
  | none => s
  | some p =>
    if p.gather = .opened ∧ s.expectedMasts.all (fun m => p.means.any (·.mast == m)) then
      s.gatherDone n p.means.length false
    else s

/-- Tests every OPEN gather, at a change of a roster entry (R30, R135), in the order of the table: DESIGN CHOICE,
log entry 39. -/
def State.gatherAll (s : State) : State :=
  (s.table.map (·.hdr.attempt)).foldl (fun s n => s.gatherTest n) s

/-- Enters a mean in mast-number order, replacing the mast's own (R134). -/
def putMean (e : MeanEntry) : List MeanEntry → List MeanEntry
  | [] => [e]
  | f :: fs =>
    if f.mast = e.mast then e :: fs
    else if e.mast < f.mast then e :: f :: fs
    else f :: putMean e fs

/-- A MASTMEAN (R134). Where several conditions fail, MEAN_IGNORED carries the first of WRONG_SENDER, NOT_SCORING,
NO_PART and GATHER_DONE: DESIGN CHOICE, log entry 40. -/
def State.scoringMean (s : State) (l : LineHdr) (n mast : Nat) (mean : Option Int) (used : Nat)
    (partialMean : Bool) : State :=
  if s.loader.consts.mastStation mast ≠ some l.sender then s.raise (.meanIgnored n mast 1)
  else if !s.loader.consts.isScoring mast then s.raise (.meanIgnored n mast 2)
  else match s.part? n with
    | none => s.raise (.meanIgnored n mast 3)
    | some p =>
      if p.gather = .done then s.raise (.meanIgnored n mast 4)
      else
        (s.modPart n (fun p => { p with means := putMean ⟨mast, mean, used, partialMean⟩ p.means })).gatherTest
          n

/-- The gather deadline counted from a time. -/
def State.gatherEnd (s : State) (t : Tick) : Tick := t + secondsT s.loader.consts.flight.gatherS

/-- Opens the gather with its deadline (R133, R139). -/
def State.openGather (s : State) (n : Nat) (t : Tick) : State :=
  s.modPart n (fun p =>
    if p.gather = .notOpen then { p with gather := .opened, deadline := some (s.gatherEnd t) } else p)

/-- The distance that a record's landing gives to scoring: none at a quality of NONE. -/
def recordDistance (r : AttemptRecord) : Option (Nat × Quality) :=
  match r.quality, r.distance with
  | some .none, _ => none
  | some q, some d => some (d, q)
  | _, _ => none

/-- The distance status is KNOWN with quality MANUAL. -/
def ScoringPart.manualKnown (p : ScoringPart) : Bool :=
  match p.distance with
  | some (_, .manual) => true
  | _ => false

/-- A LANDING (R133), with the manual distance that the resolver hands over at the same delivery. One that is handed
over while the gather is OPEN or DONE is taken in WAITING and dropped otherwise: DESIGN CHOICE, log entry 59. -/
def State.scoringLanding (s : State) (l : LineHdr) (n : Nat) (manual : Option Nat) : State :=
  match s.attempt? n with
  | none => s
  | some r =>
    match r.scoring with
    | none => s
    | some p =>
      let fresh := p.gather = .notOpen
      let handed := manual.isSome ∧ p.stage = .waiting
      let s := if fresh then
          (s.openGather n l.stamp).modPart n (fun p =>
            if p.manualKnown then p else { p with distance := recordDistance r })
        else s
      let s := if handed then
          s.modPart n (fun p => { p with distance := manual.map (fun m => (m, .manual)) })
        else s
      if fresh ∨ handed then (s.gatherTest n).scoringTest n else s

/-- GATHER_DEADLINE: an OPEN gather reaches its deadline (R135). -/
def execGatherDeadline (attempt : Nat) (s : State) : Result :=
  .next (match s.part? attempt with
    | none => s
    | some p =>
      if p.gather = .opened ∧ expired s.clock p.deadline then s.gatherDone attempt p.means.length true
      else s)

/-! ## Manual distance (R130, R139) -/

/-- The scoring unit takes a manual distance for a LANDED record with no context (R139). MANUAL_TAKEN comes before the
GATHER_DONE and RESULT_SENT of the same command: DESIGN CHOICE, log entry 46. -/
def State.scoringManual (s : State) (n distance : Nat) : State :=
  match s.part? n with
  | none => s.answer 0x39 .state
  | some p =>
    if p.stage = .waiting then
      let s := (s.answer 0x39 .ok).raise (.manualTaken n distance none)
      let s := (s.modPart n (fun p => { p with distance := some (distance, .manual) })).openGather n s.clock
      ((if p.gather = .notOpen then s.gatherTest n else s)).scoringTest n
    else s.answer 0x39 .state

/-- A context that takes a manual distance (R130). -/
def ContextPhase.takesManual : ContextPhase → Bool
  | .inrunWait => false
  | _ => true

/-- MANUAL_DISTANCE past the role test (R130). A LANDED record with a context in INRUN_WAIT, and an AIRBORNE record
with no context, for which the table of R130 has no row, are answered STATE: DESIGN CHOICE, log entry 41. -/
def State.takeManual (s : State) (n distance : Nat) : State :=
  if 600 < distance then s.answer 0x39 .range
  else match s.attempt? n with
    | none => s.answer 0x39 .notFound
    | some r =>
      if r.state ≠ .airborne ∧ r.state ≠ .landed then s.answer 0x39 .state
      else match s.context? n with
        | some c =>
          if c.phase.takesManual then
            ((s.setContext { c with manual := some distance }).answer 0x39 .ok).raise
              (.manualTaken n distance (some c.phase))
          else s.answer 0x39 .state
        | none => if r.state = .landed then s.scoringManual n distance else s.answer 0x39 .state

/-- MANUAL_DISTANCE (R130, R139). -/
def execManualDistance (attempt distance : Nat) (s : State) : Result :=
  .next (s.command 0x39 true (·.jury) (fun s => s.eventTest 0x39 (·.takeManual attempt distance)))

/-! ## Marks (R136) -/

/-- An attempt takes marks (R136). -/
def State.takesMarks (s : State) (r : AttemptRecord) : Bool :=
  s.scoring.mode == some .competition && r.hdr.bib != 0 && (r.state == .airborne || r.state == .landed) &&
    match r.scoring with
    | some p => p.stage == .waiting
    | none => false

/-- The record holds no mark for a seat. -/
def markMissing (seat : Nat) (r : AttemptRecord) : Bool :=
  match r.scoring with
  | some p => (p.marks.get seat).isNone
  | none => false

/-- Places a mark in an attempt (R136). -/
def State.placeMark (s : State) (n seat mark : Nat) (replaced : Bool) : State :=
  (((s.modPart n (fun p => { p with marks := p.marks.set seat (some mark) })).modScoring (fun c => { c with
    lastMarked := c.lastMarked.set seat (some n) })).raise (.markTaken n seat mark replaced)).scoringTest n

/-- The attempt whose mark of a seat a further mark replaces: the seat's last marked attempt, where it
takes marks. -/
def State.replaceable (s : State) (seat : Nat) : Option AttemptRecord :=
  match s.scoring.lastMarked.get seat with
  | none => none
  | some n =>
    match s.attempt? n with
    | none => none
    | some r => if s.takesMarks r then some r else none

/-- Handles a keypad record (R136): the state, and whether the mark was placed. With no event, a mark above 40 is
refused with the cause EVENT and not RANGE: DESIGN CHOICE, log entry 40. -/
def State.takeMark (s : State) (seat mark : Nat) : State × Bool :=
  if s.line.eventNumber = 0 then (s.raise (.markRefused seat mark 0), false)
  else if 40 < mark then (s.raise (.markRefused seat mark 1), false)
  else match oldest s.clock (s.table.filter (fun r => s.takesMarks r && markMissing seat r)) with
    | some r => (s.placeMark r.hdr.attempt seat mark false, true)
    | none =>
      match s.replaceable seat with
      | some r => (s.placeMark r.hdr.attempt seat mark true, true)
      | none => (s.raise (.markRefused seat mark 2), false)

/-! ## FORCE_SCORE and corrections (R137, R148) -/

/-- FORCE_SCORE past the EVENT test (R137). -/
def State.takeForce (s : State) (n : Nat) : State :=
  match s.attempt? n with
  | none => s.answer 0x3C .notFound
  | some r =>
    match r.scoring with
    | none => s.answer 0x3C .state
    | some p =>
      if !r.state.live || p.stage != .waiting || !s.judged r.hdr.bib then s.answer 0x3C .state
      else ((s.answer 0x3C .ok).modPart n (fun p => { p with force := true })).scoringTest n

/-- FORCE_SCORE (R137). -/
def execForceScore (attempt : Nat) (s : State) : Result :=
  .next (s.command 0x3C true (·.jury) (fun s => s.eventTest 0x3C (·.takeForce attempt)))

/-- A correction past the range test (R148): the record and its part, or the reply that refuses it. -/
def State.correctable (s : State) (n : Nat) : Except ReplyCode (AttemptRecord × ScoringPart) :=
  match s.attempt? n with
  | none => .error .notFound
  | some r =>
    match r.scoring with
    | none => .error .state
    | some p =>
      if r.state ≠ .published ∨ p.stage ≠ .published then .error .state
      else if r.hdr.round ≠ s.standings.round.number ∨ s.standings.round.state = .closed then .error .state
      else if 15 ≤ orZero p.revision then .error .state
      else .ok (r, p)

/-- Publishes a corrected part as the next revision (R148). -/
def State.publishCorrection (s : State) (r : AttemptRecord) (p : ScoringPart) : State :=
  let n := r.hdr.attempt
  let ref := p.refGateUsed.getD (s.referenceGate r)
  (s.modPart n (fun _ => p)).offerResult n ref (s.computeResult r p ref (orZero p.revision + 1))

/-- CORRECT_DISTANCE past the EVENT test (R148). -/
def State.takeCorrectDistance (s : State) (n distance : Nat) : State :=
  if 600 < distance then s.answer 0x3A .range
  else match s.correctable n with
    | .error c => s.answer 0x3A c
    | .ok (r, p) => (s.answer 0x3A .ok).publishCorrection r { p with distance := some (distance, .manual) }

/-- CORRECT_DISTANCE (R148). -/
def execCorrectDistance (attempt distance : Nat) (s : State) : Result :=
  .next (s.command 0x3A true (·.jury) (fun s =>
    s.eventTest 0x3A (·.takeCorrectDistance attempt distance)))

/-- CORRECT_MARK past the EVENT test (R148). -/
def State.takeCorrectMark (s : State) (n seat mark : Nat) : State :=
  if seat < 1 ∨ 5 < seat ∨ 40 < mark then s.answer 0x3B .range
  else match s.correctable n with
    | .error c => s.answer 0x3B c
    | .ok (r, p) =>
      if !s.judged r.hdr.bib then s.answer 0x3B .state
      else (s.answer 0x3B .ok).publishCorrection r { p with marks := p.marks.set seat (some mark) }

/-- CORRECT_MARK (R148). -/
def execCorrectMark (attempt seat mark : Nat) (s : State) : Result :=
  .next (s.command 0x3B true (·.jury) (fun s =>
    s.eventTest 0x3B (·.takeCorrectMark attempt seat mark)))

/-! ## Frames and changes of the table (R132, R147, R150, R151) -/

/-- The station's own RESULT at echo (R147). -/
def State.scoringOwnResult (s : State) (r : ResultPayload) : State :=
  s.modPart r.hdr.attempt (fun p =>
    if p.revision.isSome ∧ orZero p.revision ≤ r.revision then { p with copy := none, stage := .published }
    else p)

/-- Offers again every RESULT copy and every VOID copy (R147, R149). -/
def State.scoringReoffer (s : State) : State :=
  s.scoring.voidCopies.foldl State.sendVoid
    (((s.table.filterMap (·.scoring)).filterMap (·.copy)).foldl State.sendResult s)

/-- A frame delivered to the scoring unit (R132). The mode is taken from each EVENT (R151), of another sender too: DESIGN
CHOICE, log entry 51. -/
def State.scoringFrame (s : State) (l : LineHdr) (b : Body) (manual : Option Nat) : State :=
  match b with
  | .landing h .. => s.scoringLanding l h.attempt manual
  | .mastMean h m mean used p => s.scoringMean l h.attempt m mean used p
  | .result r => if s.isOwn l then s.scoringOwnResult r else s
  | .void h reason =>
    if s.isOwn l then
      s.modScoring (fun c => { c with
        voidCopies := c.voidCopies.filter (fun v => v != ⟨h, reason⟩) })
    else s
  | .event _ mode _ =>
    s.modScoring (fun c => { c with mode := some mode, lastMarked := ⟨none, none, none, none, none⟩ })
  | .status _ => if s.isOwn l then s.scoringReoffer else s
  | _ => s

/-- The states at whose entry a live record gets its scoring part (R132). -/
def AttemptState.scored : AttemptState → Bool
  | .airborne | .landed => true
  | _ => false

/-- A change of the table (R132, R149). -/
def State.scoringChange (s : State) (c : Change) : State :=
  match c with
  | .removed r =>
    s.modScoring (fun c => { c with
      voidCopies := c.voidCopies.filter (fun v => v.hdr.attempt != r.hdr.attempt) })
  | .entered r _ _ =>
    if r.state.scored then
      s.setRecord r.hdr.attempt (fun r => if r.scoring.isSome then r else { r with scoring := some {} })
    else if r.state = .void then s.setRecord r.hdr.attempt (fun r => { r with scoring := none })
    else s

/-- The scoring unit at a restart (R153). -/
def State.scoringRestart (s : State) : State := s.modScoring (fun _ => {})

end Sys2Proof.Machine
end

