-- ==== Sys2Proof/Machine/Standings.lean ====
section
/-! DEFINITION. The standings unit: start list, calling, events, rounds and the results list (chapter 9),
with the console command VOID (R149, R160). -/

namespace Sys2Proof.Machine

open Sys2Proof

/-- Changes the standings unit's own state. -/
def State.modStandings (s : State) (f : StandingsState → StandingsState) : State :=
  { s with standings := f s.standings }

/-! ## The results list (R166 to R168) -/

/-- The status of a round 1 to 4. -/
def FourRounds.get (f : FourRounds) (round : Nat) : RoundStatus :=
  match round with
  | 1 => f.r1
  | 2 => f.r2
  | 3 => f.r3
  | _ => f.r4

/-- Sets the status of a round 1 to 4. -/
def FourRounds.set (f : FourRounds) (round : Nat) (v : RoundStatus) : FourRounds :=
  match round with
  | 1 => { f with r1 := v }
  | 2 => { f with r2 := v }
  | 3 => { f with r3 := v }
  | 4 => { f with r4 := v }
  | _ => f

def FourRounds.toList (f : FourRounds) : List RoundStatus := [f.r1, f.r2, f.r3, f.r4]

/-- The total of a status OK. -/
def RoundStatus.total? : RoundStatus → Option Nat
  | .ok t _ _ => some t
  | _ => Option.none

/-- The status is DSQ. -/
def RoundStatus.isDsq : RoundStatus → Bool
  | .dsq _ => true
  | _ => false

/-- The entry holds DSQ in some round. -/
def ResultsEntry.hasDsq (e : ResultsEntry) : Bool := e.rounds.toList.any RoundStatus.isDsq

/-- The totals of an entry's rounds that are OK. -/
def ResultsEntry.totals (e : ResultsEntry) : List Nat := e.rounds.toList.filterMap RoundStatus.total?

/-- The OK count; 0 with a DSQ (R168). -/
def ResultsEntry.okCount (e : ResultsEntry) : Nat := if e.hasDsq then 0 else e.totals.length

/-- The sum of totals; 0 with a DSQ (R168). -/
def ResultsEntry.total (e : ResultsEntry) : Nat := if e.hasDsq then 0 else e.totals.sum

/-- One entry has more OK rounds than another, or as many and a greater sum. -/
def ResultsEntry.better (a b : ResultsEntry) : Bool :=
  b.okCount < a.okCount || (a.okCount == b.okCount && b.total < a.total)

/-- One entry stands before another in the order of R168. -/
def ResultsEntry.precedes (a b : ResultsEntry) : Bool :=
  if a.hasDsq != b.hasDsq then b.hasDsq
  else if a.hasDsq then a.bib < b.bib
  else a.better b || (!b.better a && a.bib < b.bib)

/-- Puts an entry in its place in the order of R168. -/
def insertEntry (e : ResultsEntry) : List ResultsEntry → List ResultsEntry
  | [] => [e]
  | f :: fs => if e.precedes f then e :: f :: fs else f :: insertEntry e fs

/-- The place of an entry among ranked entries (R168). -/
def placeOf (es : List ResultsEntry) (e : ResultsEntry) : Nat :=
  1 + (es.filter (fun f => !f.hasDsq && f.better e)).length

/-- The most entries of a results list (R166). -/
def resultsLimit : Nat := 80

/-- Sets a round status of a bib, creating its entry where it has none; none where the list is full. -/
def setStatus (es : List ResultsEntry) (bib round : Nat) (f : RoundStatus → RoundStatus) :
    Option (List ResultsEntry) :=
  match es.find? (·.bib == bib) with
  | some e =>
    some (insertEntry { e with rounds := e.rounds.set round (f (e.rounds.get round)) }
      (es.filter (·.bib != bib)))
  | none =>
    if es.length < resultsLimit then
      some (insertEntry { bib := bib, rounds := ({} : FourRounds).set round (f .none) } es)
    else none

/-- What a RESULT makes of the status held (R166). -/
def RoundStatus.takeResult (r : ResultPayload) (held : RoundStatus) : RoundStatus :=
  match held with
  | .dsq _ => held
  | .ok _ a rev => if a = r.hdr.attempt ∧ r.revision ≤ rev then held else .ok r.total r.hdr.attempt r.revision
  | _ => .ok r.total r.hdr.attempt r.revision

/-- What a VOID makes of the status held (R167). -/
def RoundStatus.takeVoid (attempt : Nat) (reason : VoidReason) (held : RoundStatus) : RoundStatus :=
  match reason, held with
  | .dsq, _ | .falseStart, _ | .late, _ => .dsq attempt
  | .dns, .none | .dns, .dns _ | .dns, .withdrawn _ => .dns attempt
  | .withdrawn, .none | .withdrawn, .dns _ | .withdrawn, .withdrawn _ => .withdrawn attempt
  | _, _ => held

/-- Updates the results list of a bib's round, or raises RESULTS_FULL. -/
def State.updateResults (s : State) (h : AttemptHdr) (f : RoundStatus → RoundStatus) : State :=
  if h.bib = 0 then s
  else match setStatus s.standings.results h.bib h.round f with
    | some es => s.modStandings (fun t => { t with results := es })
    | none => s.raise (.resultsFull h.bib)

/-- A RESULT at a results list (R166). -/
def State.listResult (s : State) (r : ResultPayload) : State :=
  if r.flags.trial then s else s.updateResults r.hdr (RoundStatus.takeResult r)

/-- A VOID at a results list (R167). -/
def State.listVoid (s : State) (h : AttemptHdr) (reason : VoidReason) : State :=
  if reason = .repeatJump then s else s.updateResults h (RoundStatus.takeVoid h.attempt reason)

/-! ## Rounds (R162 to R165) -/

/-- Offers a ROUND frame and keeps its copy. -/
def State.offerRound (s : State) (round : Nat) (state : RoundMsg) (refGate : Nat) : State :=
  let b : Body := .round round state refGate
  (s.modStandings (fun t => { t with roundCopies := t.roundCopies ++ [b] })).offer b none

/-- The status is OK. -/
def RoundStatus.isOk (r : RoundStatus) : Bool := r.total?.isSome

/-- The start list of the round after `round` (R164). -/
def nextStartList (results : List ResultsEntry) (round qualifiers : Nat) : List Nat :=
  let eligible := results.filter (fun e => !e.hasDsq && (e.rounds.get round).isOk)
  let taken := eligible.filter (fun e => qualifiers = 0 || placeOf eligible e ≤ qualifiers)
  (taken.map (·.bib)).reverse

/-- Opens the round after the one just closed (R164). -/
def State.openNext (s : State) : State :=
  let r := s.standings.round.number
  let bibs := nextStartList s.standings.results r s.loader.consts.qualifiers
  ((s.modStandings (fun t => { t with
    round := { number := r + 1, state := .opened, refGate := none }, startList := bibs })).offerRound (r + 1)
    .opened 0).raise (.roundOpen (r + 1) bibs.length)

/-- Closes the round (R163). -/
def State.closeNow (s : State) : State :=
  let r := s.standings.round
  let discarded := s.standings.startList.length
  let s := (s.modStandings (fun t => { t with round := { t.round with state := .closed } })).offerRound
    r.number .closed (orZero r.refGate)
  let s := (s.modStandings (fun t => { t with startList := [] })).raise (.roundClosed r.number discarded)
  if r.number < orZero s.standings.roundsPlanned then s.openNext else s

/-- Tests a CLOSING round (R163): complete when no live record of the round is held. -/
def State.testClosing (s : State) : State :=
  if s.loader.roles.jury && s.standings.round.state == .closing &&
      !s.table.any (fun r => r.state.live && r.hdr.round == s.standings.round.number) then s.closeNow
  else s

/-- CLOSE_ROUND past the EVENT test (R163). -/
def State.takeCloseRound (s : State) : State :=
  if s.standings.round.state = .opened then
    (((s.modStandings (fun t => { t with round := { t.round with state := .closing } })).answer 0x3E
      .ok).raise (.roundClosing s.standings.round.number)).testClosing
  else s.answer 0x3E .state

/-- A PHASE GREEN may set the reference gate (R162). -/
def State.refGateFrom (s : State) (h : AttemptHdr) : State :=
  let r := s.standings.round
  if r.refGate.isNone ∧ h.round = r.number ∧ r.state ≠ .closed then
    match s.attempt? h.attempt with
    | none => s
    | some rec =>
      match rec.juryGate with
      | none => s
      | some g =>
        if rec.state.live && rec.hdr.bib != 0 then
          (s.modStandings (fun t => { t with round := { t.round with refGate := some g } })).offerRound
            r.number .refSet g
        else s
  else s

/-- The round record of a board after a ROUND frame (R165). -/
def RoundRecord.takeRound (r : RoundRecord) (round : Nat) (state : RoundMsg) (refGate : Nat) :
    RoundRecord :=
  if round < r.number then r
  else if round = r.number then
    match state with
    | .opened => r
    | .refSet => { r with refGate := some refGate }
    | .closed => { r with state := .closed }
  else
    match state with
    | .opened => { number := round, state := .opened, refGate := none }
    | .refSet => { number := round, state := .opened, refGate := some refGate }
    | .closed => { number := round, state := .closed, refGate := none }

/-- A ROUND frame (R165): the jury's own drops its copies; a board without JURY follows it. A station that holds JURY
ignores the ROUND of another sender, of which R165 does not speak: DESIGN CHOICE, log entry 49. -/
def State.standingsRound (s : State) (l : LineHdr) (b : Body) (round : Nat) (state : RoundMsg)
    (refGate : Nat) : State :=
  if s.loader.roles.jury then
    if s.isOwn l then
      s.modStandings (fun t => { t with roundCopies := t.roundCopies.filter (· != b) })
    else s
  else s.modStandings (fun t => { t with round := t.round.takeRound round state refGate })

/-! ## The start list (R155, R156) -/

/-- The most bibs of a start list (section 9.1). -/
def startListLimit : Nat := 80

/-- START_LIST past the EVENT test (R155). -/
def State.takeStartList (s : State) (bibs : List Nat) : State :=
  let held := s.standings.startList
  if bibs.any (fun b => b < 1 || 199 < b) then s.answer 0x31 .range
  else if !distinct bibs || bibs.any (fun b => held.contains b) then s.answer 0x31 .range
  else if startListLimit < held.length + bibs.length then s.answer 0x31 .full
  else (s.modStandings (fun t => { t with startList := held ++ bibs })).answer 0x31 .ok

/-- START_LIST (R155). -/
def execStartList (bibs : List Nat) (s : State) : Result :=
  .next (s.command 0x31 (within 1 60 bibs.length) (·.jury) (fun s =>
    s.eventTest 0x31 (·.takeStartList bibs)))

/-- The bib is that of the pending call. -/
def StandingsState.pendingBib (t : StandingsState) (bib : Nat) : Bool :=
  match t.pendingCall with
  | none => false
  | some p => p.bib == bib

/-- DNS (R155). -/
def execDns (bib : Nat) (s : State) : Result :=
  .next (s.command 0x32 true (·.jury) (fun s => s.eventTest 0x32 (fun s =>
    if bib < 1 ∨ 199 < bib then s.answer 0x32 .range
    else if !s.standings.startList.contains bib then s.answer 0x32 .notFound
    else if s.standings.pendingBib bib then s.answer 0x32 .state
    else
      (s.modStandings (fun t => { t with startList := t.startList.filter (· != bib) })).answer 0x32 .ok)))

/-- A delivered VOID REPEAT puts its bib at the head (R156). -/
def State.repeatHead (s : State) (bib : Nat) : State :=
  let list := s.standings.startList
  if bib = 0 then s
  else if list.contains bib || list.length < startListLimit then
    (s.modStandings (fun t => { t with startList := bib :: list.filter (· != bib) })).raise
      (.startListHead bib)
  else s.raise (.repeatLost bib)

/-! ## Calling (R157, R158) -/

/-- The number after the last assigned: 1 follows 65535, and 1 is the first. -/
def nextAttempt (last : Option Nat) : Nat :=
  match last with
  | none => 1
  | some n => if 65535 ≤ n then 1 else n + 1

/-- The start station stands ready for a call: PRESENT, with a START part in IDLE. -/
def State.startIdle (s : State) : Bool :=
  match s.loader.consts.stationWith (·.start) with
  | none => false
  | some n =>
    let e := s.rosterAt n
    e.presence == .present &&
      match e.status with
      | none => false
      | some h =>
        match h.payload.start with
        | none => false
        | some p => p.phase == .idle

/-- The pending time of a call: 2000 ms. -/
def callPendingTime : Tick := ticks 20000

/-- Offers the CALL (R157). -/
def State.offerCall (s : State) (gate bib : Nat) (forerunner : Bool) : State :=
  let n := nextAttempt s.standings.lastAttempt
  let b : Body := .call ⟨n, bib, s.standings.round.number⟩ gate
  (((s.modStandings (fun t => { t with
    lastAttempt := some n
    pendingCall := some ⟨n, bib, forerunner, s.clock + callPendingTime⟩ })).offer b none).raise
    (.callSent n bib)).answer 0x33 .ok

/-- The states of a record that keep a new jumper from being called (R157). -/
def AttemptState.blocksCall : AttemptState → Bool
  | .called | .green | .onInrun | .airborne => true
  | _ => false

/-- CALL past the EVENT test (R157). -/
def State.takeCall (s : State) (gate forerunner : Nat) : State :=
  if gate < 1 ∨ s.loader.consts.gates.count < gate ∨ 1 < forerunner then s.answer 0x33 .range
  else if s.standings.pendingCall.isSome then s.answer 0x33 .state
  else if s.table.any (·.state.blocksCall) then s.answer 0x33 .state
  else if !s.startIdle then s.answer 0x33 .state
  else if s.standings.round.state ≠ .opened then s.answer 0x33 .state
  else if forerunner = 0 ∧ s.standings.startList.isEmpty then s.answer 0x33 .notFound
  else if tableLimit ≤ s.table.length ∧ s.table.all (·.state.live) then s.answer 0x33 .full
  else s.offerCall gate (if forerunner = 1 then 0 else s.standings.startList.headD 0) (forerunner == 1)

/-- CALL (R157). -/
def execCall (gate forerunner : Nat) (s : State) : Result :=
  .next (s.command 0x33 true (·.jury) (fun s => s.eventTest 0x33 (·.takeCall gate forerunner)))

/-- A PHASE or VOID for the pending attempt takes the call (R158). -/
def State.callTaken (s : State) (n : Nat) : State :=
  match s.standings.pendingCall with
  | none => s
  | some p =>
    if p.attempt = n then
      (s.modStandings (fun t => { t with
        pendingCall := none
        startList := if p.forerunner then t.startList else t.startList.filter (· != p.bib) })).raise
        (.callTaken p.attempt p.bib)
    else s

/-! ## GO, SET_GATE, COACH_ACK, HOLD, RELEASE (R159) -/

/-- The call for an attempt is pending. -/
def State.callPending (s : State) (n : Nat) : Bool :=
  match s.standings.pendingCall with
  | none => false
  | some p => p.attempt == n

/-- A command for an attempt that must be CALLED, with no call pending for it (R159). -/
def State.forCalled (s : State) (kind n : Nat) (act : State → AttemptRecord → State) : State :=
  match s.attempt? n with
  | none => s.answer kind .notFound
  | some r => if r.state ≠ .called || s.callPending n then s.answer kind .state else act s r

/-- GO (R159). -/
def execGo (attempt : Nat) (s : State) : Result :=
  .next (s.command 0x34 true (·.jury) (fun s => s.eventTest 0x34 (fun s =>
    s.forCalled 0x34 attempt (fun s r => (s.offer (.go r.hdr) none).answer 0x34 .ok))))

/-- SET_GATE (R159). -/
def execSetGate (attempt gate : Nat) (s : State) : Result :=
  .next (s.command 0x35 true (·.jury) (fun s => s.eventTest 0x35 (fun s =>
    if gate < 1 ∨ s.loader.consts.gates.count < gate then s.answer 0x35 .range
    else s.forCalled 0x35 attempt (fun s r =>
      (s.offer (.gate r.hdr gate false) none).answer 0x35 .ok))))

/-- COACH_ACK (R159). -/
def execCoachAck (attempt : Nat) (s : State) : Result :=
  .next (s.command 0x36 true (·.jury) (fun s => s.eventTest 0x36 (fun s =>
    s.forCalled 0x36 attempt (fun s r =>
      if r.coach = .pending then
        (s.offer (.gate r.hdr (orZero r.requested) true) none).answer 0x36 .ok
      else s.answer 0x36 .state))))

/-- HOLD (R159). -/
def execHold (s : State) : Result :=
  .next (s.command 0x37 true (·.jury) (fun s => s.eventTest 0x37 (fun s =>
    (s.offer (.hold true) none).answer 0x37 .ok)))

/-- RELEASE (R159). -/
def execRelease (s : State) : Result :=
  .next (s.command 0x38 true (·.jury) (fun s => s.eventTest 0x38 (fun s =>
    (s.offer (.hold false) none).answer 0x38 .ok)))

/-! ## VOID (R149, R160) -/

/-- The reasons that the console command VOID may give. -/
def juryReason (code : Nat) : Option VoidReason :=
  match VoidReason.ofCode code with
  | some .falseStart | some .late | none => none
  | some r => some r

/-- Offers a VOID frame and keeps its copy (R149). -/
def State.offerVoid (s : State) (h : AttemptHdr) (reason : VoidReason) : State :=
  ((s.modScoring (fun c => { c with voidCopies := c.voidCopies ++ [⟨h, reason⟩] })).sendVoid
    ⟨h, reason⟩).answer 0x3D .ok

/-- The stage of a record's scoring part is SENT. -/
def AttemptRecord.stageSent (r : AttemptRecord) : Bool :=
  match r.scoring with
  | some p => p.stage == .sent
  | none => false

/-- VOID past the EVENT test (R149, R160). -/
def State.takeVoid (s : State) (n reason : Nat) : State :=
  match juryReason reason with
  | none => s.answer 0x3D .range
  | some why =>
    match s.attempt? n with
    | none => s.answer 0x3D .notFound
    | some r =>
      if r.state = .void then
        if r.voidReason.isSome || s.voidKept n then s.answer 0x3D .state else s.offerVoid r.hdr why
      else if r.hdr.round ≠ s.standings.round.number ∨ s.standings.round.state = .closed then
        s.answer 0x3D .state
      else if s.voidKept n || r.stageSent then s.answer 0x3D .state
      else if r.state = .published ∧ why ≠ .dsq then s.answer 0x3D .state
      else s.offerVoid r.hdr why

/-- VOID (R149, R160). -/
def execVoid (attempt reason : Nat) (s : State) : Result :=
  .next (s.command 0x3D true (·.jury) (fun s => s.eventTest 0x3D (·.takeVoid attempt reason)))

/-! ## Events (R161) -/

/-- NEW_EVENT past the role test (R161). -/
def State.takeNewEvent (s : State) (number mode rounds : Nat) : State :=
  match EventMode.ofCode mode with
  | none => s.answer 0x30 .range
  | some m =>
    if number < 1 ∨ 255 < number ∨ rounds < 1 ∨ 4 < rounds then s.answer 0x30 .range
    else if s.standings.pendingCall.isSome || s.standings.eventCopy.isSome then s.answer 0x30 .state
    else
      let b : Body := .event number m rounds
      ((s.modStandings (fun t => { t with eventCopy := some b })).offer b none).answer 0x30 .ok

/-- NEW_EVENT (R161). -/
def execNewEvent (number mode rounds : Nat) (s : State) : Result :=
  .next (s.command 0x30 true (·.jury) (·.takeNewEvent number mode rounds))

/-- A delivered EVENT (R161): at the jury station its own at echo alone; any EVENT at a board without JURY. What the
other units of a jury station do with an EVENT of another sender: DESIGN CHOICE, log entry 51. -/
def State.standingsEvent (s : State) (l : LineHdr) (rounds : Nat) : State :=
  if s.loader.roles.jury && !s.isOwn l then s
  else
    let s := s.modStandings (fun t => { t with
      results := []
      roundsPlanned := some rounds
      round := { number := 1, state := .opened, refGate := none } })
    if s.loader.roles.jury then
      s.modStandings (fun t => { t with eventCopy := none, roundCopies := [], startList := [] })
    else s

/-! ## Frames (R154) -/

/-- The jury station's own STATUS at echo (R161, R165). -/
def State.standingsOwnStatus (s : State) : State :=
  (s.reofferAll s.standings.eventCopy.toList).reofferAll s.standings.roundCopies

/-- A frame delivered to the standings unit. A VOID that takes the pending call raises CALL_TAKEN before RESULTS_FULL:
DESIGN CHOICE, log entry 46. -/
def State.standingsFrame (s : State) (l : LineHdr) (b : Body) : State :=
  match b with
  | .event _ _ rounds => s.standingsEvent l rounds
  | .round r m g => s.standingsRound l b r m g
  | .result r => s.listResult r
  | .void h reason =>
    let s := if s.loader.roles.jury then s.callTaken h.attempt else s
    let s := s.listVoid h reason
    if s.loader.roles.jury && s.isOwn l && reason == .repeatJump then s.repeatHead h.bib else s
  | .phase h p _ _ _ =>
    if s.loader.roles.jury then
      let s := s.callTaken h.attempt
      if p = .green then s.refGateFrom h else s
    else s
  | .status _ => if s.loader.roles.jury && s.isOwn l then s.standingsOwnStatus else s
  | _ => s

/-- The standings unit at a restart (R169). -/
def State.standingsRestart (s : State) : State := s.modStandings (fun _ => {})

end Sys2Proof.Machine
end

