-- ==== Sys2Proof/Machine/Pages.lean ====
section
/-! DEFINITION. What the scoreboard shows: page formats (section 10.5) and the dots of the panel
(section 10.6). -/

namespace Sys2Proof.Machine

open Sys2Proof

/-! ## Characters -/

/-- The characters of a text. -/
def chars (t : String) : List Byte := t.toList.map (fun c => byte c.toNat)

/-- The decimal digits of a number, most significant first. -/
def digits : Nat → Nat → List Byte
  | 0, _ => []
  | fuel + 1, n => (if n < 10 then [] else digits fuel (n / 10)) ++ [byte (0x30 + n % 10)]

/-- A number in decimal. -/
def number (n : Nat) : List Byte := digits 12 n

/-- Tenths as whole part, point and one digit, of a number without sign. -/
def tenthsOf (n : Nat) : List Byte := number (n / 10) ++ chars "." ++ number (n % 10)

/-- Tenths, with "-" before a negative value. -/
def tenths (n : Int) : List Byte := (if n < 0 then chars "-" else []) ++ tenthsOf n.natAbs

/-- A compensation: always with its sign (section 10.5), a plus sign before 0: DESIGN CHOICE, log entry 48. -/
def compensation (n : Int) : List Byte := (if n < 0 then chars "-" else chars "+") ++ tenthsOf n.natAbs

/-- A distance in half-metres, in metres with one digit. -/
def metres (d : Nat) : List Byte := number (d / 2) ++ chars (if d % 2 = 1 then ".5" else ".0")

/-- A wind value in cm/s, in m/s with two digits. -/
def windText (w : Int) : List Byte :=
  (if w < 0 then chars "-" else []) ++ number (w.natAbs / 100) ++ chars "." ++
    [byte (0x30 + w.natAbs / 10 % 10), byte (0x30 + w.natAbs % 10)]

/-! ## Lines -/

/-- The cells of a line. -/
def lineWidth : Nat := 32

/-- Cells that hold spaces. -/
def spaces (n : Nat) : List Byte := List.replicate n 0x20

/-- Writes characters into a line from a cell counted from 0; what lies beyond the line is lost. -/
def writeAt (line : List Byte) (cell : Nat) (cs : List Byte) : List Byte :=
  (line.take cell ++ cs ++ line.drop (cell + cs.length)).take lineWidth

def blankLine : List Byte := spaces lineWidth

/-- A field that begins at cell 1. -/
def left (cs : List Byte) (line : List Byte) : List Byte := writeAt line 0 cs

/-- A field that ends at cell 32. -/
def right (cs : List Byte) (line : List Byte) : List Byte := writeAt line (lineWidth - cs.length) cs

/-- A centred field. -/
def centred (cs : List Byte) (line : List Byte) : List Byte :=
  writeAt line ((lineWidth - cs.length) / 2) cs

/-- Characters right-aligned in a number of cells. -/
def alignRight (n : Nat) (cs : List Byte) : List Byte := spaces (n - cs.length) ++ cs

/-- The name of a hold cause. -/
def causeName : HoldCause → String
  | .wind => "WIND" | .jury => "JURY" | .track => "TRACK" | .coach => "COACH"
  | .station => "STATION" | .config => "CONFIG" | .backlog => "BACKLOG" | .lamp => "LAMP"

/-- Adds cause names, each after one space, for as many as fit, and none after the first that does not fit: DESIGN
CHOICE, log entry 42. -/
def addCauses : List HoldCause → List Byte → List Byte
  | [], line => line
  | c :: cs, line =>
    let longer := line ++ chars " " ++ chars (causeName c)
    if longer.length ≤ lineWidth then addCauses cs longer else line

/-- "BIB " and the bib, or "FORERUNNER". -/
def bibField (bib : Nat) : List Byte := if bib = 0 then chars "FORERUNNER" else chars "BIB " ++ number bib

/-! ## The seconds of a LIVE page -/

/-- Seconds remaining of the latest PHASE GREEN, less one for each whole 10,000 ticks since its stamp. -/
def greenSeconds (now : Tick) (green : Nat × Tick) : Nat :=
  green.1 - (since now green.2).toNat / 10000

/-- The seconds that a page shows now: a LIVE page whose record is GREEN. None where the page has taken no PHASE GREEN:
DESIGN CHOICE, log entry 56. -/
def State.liveSeconds (s : State) (p : Page) : Option Nat :=
  match p with
  | .live n _ (some g) =>
    match s.attempt? n with
    | some r => if r.state = .green then some (greenSeconds s.clock g) else none
    | none => none
  | _ => none

/-! ## Pages (R179) -/

/-- Line 2 of a LIVE page. -/
def liveState (phase : Phase) (st : AttemptState) : List Byte :=
  match st with
  | .called =>
    match phase with
    | .red | .idle => chars "WAIT"
    | .amber => chars "READY"
    | _ => []
  | .green => chars "GO"
  | .onInrun => chars "ON INRUN"
  | .airborne => chars "IN FLIGHT"
  | .landed => chars "LANDED"
  | _ => []

/-- Line 5 of a LIVE page. -/
def liveDistance (r : AttemptRecord) : List Byte :=
  match r.distance with
  | some d => chars "DISTANCE " ++ metres d ++ chars " M"
  | none => if r.quality = some .none then chars "DISTANCE --" else []

/-- The six lines of a LIVE page. -/
def State.composeLive (s : State) (p : Page) (n : Nat) (phase : Phase) : List (List Byte) :=
  let known := s.board.knownHolds.toList
  let last := if known.isEmpty then blankLine else left (addCauses known (chars "HOLD")) blankLine
  match s.attempt? n with
  | none => List.replicate 5 blankLine ++ [last]
  | some r =>
    [right (chars "ROUND " ++ number r.hdr.round) (left (bibField r.hdr.bib) blankLine),
      right ((s.liveSeconds p).elim [] number) (left (liveState phase r.state) blankLine),
      left (chars "GATE " ++ r.gateUsed.elim [] number) blankLine,
      left (r.speed.elim [] (fun v => chars "SPEED " ++ tenthsOf v ++ chars " KM/H")) blankLine,
      left (liveDistance r) blankLine,
      last]

/-- A line of the HOLD page: two causes from a place in the list. -/
def holdLine (cs : List HoldCause) (i : Nat) : List Byte :=
  writeAt (left ((cs[i]?).elim [] (fun c => chars (causeName c))) blankLine) 16
    ((cs[i + 1]?).elim [] (fun c => chars (causeName c)))

/-- The six lines of a HOLD page. -/
def State.composeHold (s : State) : List (List Byte) :=
  let cs := s.board.knownHolds.toList
  [left (chars "START CLOSED") blankLine, holdLine cs 0, holdLine cs 2, holdLine cs 4, holdLine cs 6,
    left (s.board.knownAttempt.elim [] (fun n => chars "ATTEMPT " ++ number n)) blankLine]

/-- The place of a bib that holds a ranked entry. -/
def placeOfBib (es : List ResultsEntry) (bib : Nat) : Option Nat :=
  match es.find? (·.bib == bib) with
  | none => none
  | some e => if e.hasDsq then none else some (placeOf es e)

/-- The six lines of a RESULT page. -/
def State.composeResult (s : State) (r : ResultPayload) : List (List Byte) :=
  [right (chars "ROUND " ++ number r.hdr.round)
      (centred (if r.revision = 0 then [] else chars "REV " ++ number r.revision)
        (left (bibField r.hdr.bib) blankLine)),
    right (r.speed.elim [] (fun v => tenthsOf v ++ chars " KM/H"))
      (left (chars "DISTANCE " ++ metres r.distance ++ chars " M") blankLine),
    right (r.wind.elim (chars "WIND --") (fun w => chars "WIND " ++ windText w ++ chars " M/S"))
      (left (chars "START GATE " ++ number r.gateUsed) blankLine),
    right (chars "STYLE " ++ tenthsOf r.stylePoints)
      (left (chars "DIST " ++ tenths r.distancePoints) blankLine),
    right (chars "WIND " ++ compensation r.windComp)
      (left (chars "GATE " ++ compensation r.gateComp) blankLine),
    right (if r.flags.trial then chars "TRIAL"
        else (placeOfBib s.standings.results r.hdr.bib).elim [] (fun p => chars "RANK " ++ number p))
      (left (chars "TOTAL " ++ tenthsOf r.total) blankLine)]

/-- The six lines of a TEXT page. -/
def composeText (cs : List Byte) : List (List Byte) :=
  [blankLine, blankLine, centred cs blankLine, blankLine, blankLine, blankLine]

/-- The number of standings pages for a number of entries (R178). -/
def pageCount (n : Nat) : Nat := max 1 ((n + 9) / 10)

/-- An entry field of a standings page: 16 cells. "DSQ" stands where the sum would, right-aligned: DESIGN CHOICE, log
entry 42. -/
def entryField (es : List ResultsEntry) (e : ResultsEntry) : List Byte :=
  alignRight 2 (if e.hasDsq then [] else number (placeOf es e)) ++ chars " " ++
    alignRight 3 (number e.bib) ++ chars " " ++
    alignRight 8 (if e.hasDsq then chars "DSQ" else tenthsOf e.total)

/-- A line of a standings page: the entries at two positions of the list, counted from 0. -/
def standingsLine (es : List ResultsEntry) (i j : Nat) : List Byte :=
  writeAt (left ((es[i]?).elim [] (entryField es)) blankLine) 16 ((es[j]?).elim [] (entryField es))

/-- The six lines of a STANDINGS page. -/
def State.composeStandings (s : State) (index : Nat) : List (List Byte) :=
  let es := s.standings.results
  let round := s.standings.round.number
  let head := right ((if round = 0 then [] else chars "ROUND " ++ number round ++ chars "  ") ++
    number (index + 1) ++ chars "/" ++ number (pageCount es.length)) (left (chars "STANDINGS") blankLine)
  if es.isEmpty then
    [head, blankLine, centred (chars "NO RESULTS") blankLine, blankLine, blankLine, blankLine]
  else
    head :: (List.range 5).map (fun k => standingsLine es (10 * index + k) (10 * index + 5 + k))

/-- The six lines of a page, from the state at the composition (R179). -/
def State.compose (s : State) (p : Page) : List (List Byte) :=
  match p with
  | .live n phase _ => s.composeLive p n phase
  | .hold => s.composeHold
  | .result r => s.composeResult r
  | .text cs => composeText cs
  | .standings i => s.composeStandings i

/-! ## The panel's dots (R180) -/

/-- The glyph character of a cell: small letters show capitals; a character without a glyph shows as a
space. -/
def glyphChar (c : Byte) : Byte :=
  if 0x61 ≤ c.toNat ∧ c.toNat ≤ 0x7A then c - 0x20
  else if 0x20 ≤ c.toNat ∧ c.toNat ≤ 0x5F then c
  else 0x20

/-- A dot of the image of 192 columns by 48 rows. -/
def imageDot (lines : List (List Byte)) (x y : Nat) : Bool :=
  x % 6 < 5 && y % 8 < 7 && glyphDot (glyphChar ((lines.getD (y / 8) []).getD (x / 6) 0x20)) (y % 8) (x % 6)

/-- A dot of the panel at scan column x and row y. -/
def panelDot (k : BoardConsts) (lines : List (List Byte)) (x y : Nat) : Bool :=
  within k.colStart k.colEnd x && within k.rowStart k.rowEnd y && x - k.colStart < 192 &&
    y - k.rowStart < 48 && imageDot lines (x - k.colStart) (y - k.rowStart)

/-- The column data of a row (R181). -/
def panelRow (k : BoardConsts) (lines : List (List Byte)) (y : Nat) : List Bool :=
  (List.range k.colsTotal).map (fun x => panelDot k lines x y)

end Sys2Proof.Machine
end

