-- ==== Sys2Proof/Machine/Board.lean ====
section
/-! DEFINITION. The board unit: the page queue, where pages come from, and the panel scanner
(chapter 10). -/

namespace Sys2Proof.Machine

open Sys2Proof

/-- Changes the board unit's own state. -/
def State.modBoard (s : State) (f : BoardState → BoardState) : State := { s with board := f s.board }

/-! ## Composition (R179, R182) -/

/-- Composes a page into the back buffer, which is then ready. -/
def State.composePage (s : State) (p : Page) : State :=
  s.modBoard (fun b => { b with back := s.compose p, ready := true, shownSeconds := s.liveSeconds p })

/-- Composes the current page again, where a test of the page holds. -/
def State.recompose (s : State) (test : Page → Bool) : State :=
  match s.board.current with
  | none => s
  | some c => if test c.entry.page then s.composePage c.entry.page else s

/-- A page becomes current (R171). -/
def State.showPage (s : State) (e : PageEntry) : State :=
  (s.modBoard (fun b => { b with
    current := some ⟨e, e.duration.map (fun d => s.clock + ticks d)⟩ })).composePage e.page

/-! ## The page queue (R171 to R173) -/

/-- The priority of a page; 1 is the best. -/
def Page.priority : Page → Nat
  | .live .. | .hold => 1
  | .result _ | .text _ => 2
  | .standings _ => 3

/-- The code of a page's kind (section 12.3). -/
def Page.code : Page → Nat
  | .live .. => 0
  | .hold => 1
  | .result _ => 2
  | .text _ => 3
  | .standings _ => 4

/-- The attempt number or page index of a page, 0 where it has none. -/
def Page.which : Page → Nat
  | .live n _ _ => n
  | .result r => r.hdr.attempt
  | .standings i => i
  | _ => 0

/-- The most entries of the page queue. -/
def pageLimit : Nat := 16

/-- Puts an entry behind every entry of its own priority. -/
def joinQueue (e : PageEntry) : List PageEntry → List PageEntry
  | [] => [e]
  | f :: fs => if e.page.priority < f.page.priority then e :: f :: fs else f :: joinQueue e fs

/-- Puts an entry ahead of every entry of its own priority. -/
def reenterQueue (e : PageEntry) : List PageEntry → List PageEntry
  | [] => [e]
  | f :: fs => if e.page.priority ≤ f.page.priority then e :: f :: fs else f :: reenterQueue e fs

/-- Raises PAGE_DROPPED (R173). -/
def State.raiseDropped (s : State) (p : Page) : State := s.raise (.pageDropped p.code p.which)

/-- What makes room in a full queue (R173): the newest priority-3 entry, or else the priority-2 entry that
has waited longest. The queue without it, and its page. -/
def makeRoom (q : List PageEntry) : Option (List PageEntry × Page) :=
  match q.getLast? with
  | some e =>
    if e.page.priority = 3 then some (q.dropLast, e.page)
    else
      match q.find? (fun f => f.page.priority == 2) with
      | some f => some (q.takeWhile (fun f => f.page.priority != 2) ++
          (q.dropWhile (fun f => f.page.priority != 2)).drop 1, f.page)
      | none => none
  | none => none

/-- Places a page in the queue (R171, R173). -/
def State.placePage (s : State) (e : PageEntry) (put : PageEntry → List PageEntry → List PageEntry) :
    State :=
  if s.board.queue.length < pageLimit then s.modBoard (fun b => { b with queue := put e b.queue })
  else if e.page.priority = 3 then s.raiseDropped e.page
  else match makeRoom s.board.queue with
    | some (q, gone) => (s.modBoard (fun b => { b with queue := put e q })).raiseDropped gone
    | none => s.raiseDropped e.page

/-- A page arrives (R172). -/
def State.arrive (s : State) (e : PageEntry) : State :=
  match s.board.current with
  | none => s.showPage e
  | some c =>
    if e.page.priority < c.entry.page.priority then (s.placePage c.entry reenterQueue).showPage e
    else s.placePage e joinQueue

/-! ## The standings rotation and the next page (R171, R178) -/

/-- A STANDINGS page entry. -/
def State.standingsEntry (s : State) (i : Nat) : PageEntry :=
  ⟨.standings i, some (s.loader.consts.board.standingsS * 10000)⟩

/-- A STANDINGS page beyond the list as it stands. -/
def staleStandings (count : Nat) (e : PageEntry) : Bool :=
  match e.page with
  | .standings i => count ≤ i
  | _ => false

/-- The rotation: its first page becomes current, the others wait (R178). -/
def State.rotate (s : State) : State :=
  let pages := (List.range (pageCount s.standings.results.length)).map s.standingsEntry
  (s.modBoard (fun b => { b with queue := pages.drop 1 })).showPage (s.standingsEntry 0)

/-- The next page becomes current: the head of the queue, stale standings pages discarded, or a new
rotation. -/
def State.nextPage (s : State) : State :=
  match s.board.queue.dropWhile (staleStandings (pageCount s.standings.results.length)) with
  | e :: q => (s.modBoard (fun b => { b with queue := q })).showPage e
  | [] => s.rotate

/-- The current page ends. -/
def State.endPage (s : State) : State := (s.modBoard (fun b => { b with current := none })).nextPage

/-- The current page is one that a test names. -/
def State.currentIs (s : State) (test : Page → Bool) : Bool :=
  match s.board.current with
  | none => false
  | some c => test c.entry.page

/-- Removes the pages that a test names: from the queue, and the current one by ending it. -/
def State.removePages (s : State) (test : Page → Bool) : State :=
  let s := s.modBoard (fun b => { b with queue := b.queue.filter (fun e => !test e.page) })
  if s.currentIs test then s.endPage else s

/-! ## LIVE pages (R174, R175) -/

/-- The page is the LIVE page of an attempt. -/
def Page.isLiveOf (n : Nat) : Page → Bool
  | .live m _ _ => m == n
  | _ => false

/-- The page is a LIVE page. -/
def Page.isLive : Page → Bool
  | .live .. => true
  | _ => false

/-- The attempt of the LIVE page that exists, current or waiting. -/
def State.liveAttempt (s : State) : Option Nat :=
  let pages := (s.board.current.toList.map (·.entry.page)) ++ s.board.queue.map (·.page)
  (pages.find? (·.isLive)).map (·.which)

/-- Changes the pages that a test names, current or waiting, in their places. -/
def State.mapPages (s : State) (test : Page → Bool) (f : PageEntry → PageEntry) : State :=
  s.modBoard (fun b => { b with
    current := b.current.map (fun c => if test c.entry.page then { c with entry := f c.entry } else c)
    queue := b.queue.map (fun e => if test e.page then f e else e) })

/-- What a PHASE gives to a LIVE page. -/
def phaseGreen (l : LineHdr) (p : Phase) (seconds : Nat) (held : Option (Nat × Tick)) :
    Option (Nat × Tick) := if p = .green then some (seconds, l.stamp) else held

/-- A LIVE page takes a PHASE of its own attempt. -/
def Page.takePhase (l : LineHdr) (p : Phase) (seconds : Nat) : Page → Page
  | .live n _ g => .live n p (phaseGreen l p seconds g)
  | page => page

/-- The record of an attempt was created later than that of another, or the other has no record. -/
def State.createdLater (s : State) (n old : Nat) : Bool :=
  match s.attempt? n, s.attempt? old with
  | some r, some o => since s.clock r.created < since s.clock o.created
  | _, none => true
  | none, _ => false

/-- A PHASE from the start station (R174). -/
def State.boardPhase (s : State) (l : LineHdr) (h : AttemptHdr) (p : Phase) (seconds : Nat) : State :=
  let n := h.attempt
  match s.attempt? n with
  | none => s
  | some r =>
    if !r.state.blocksCall then s
    else
      let fresh : PageEntry := ⟨.live n p (phaseGreen l p seconds none), none⟩
      match s.liveAttempt with
      | none => s.arrive fresh
      | some m =>
        if m = n then
          (s.mapPages (·.isLiveOf n) (fun e => { e with page := e.page.takePhase l p seconds })).recompose
            (·.isLiveOf n)
        else if s.createdLater n m then
          if s.currentIs (·.isLive) then s.showPage fresh else s.mapPages (·.isLive) (fun _ => fresh)
        else s

/-- The live hold, in ticks. -/
def State.liveHold (s : State) : Nat := s.loader.consts.board.liveHoldS * 10000

/-- The LIVE page of an attempt is timed by its LANDING, where its duration is open (R175). -/
def State.timeLive (s : State) (n : Nat) : State :=
  s.modBoard (fun b => { b with
    current := b.current.map (fun c =>
      if c.entry.page.isLiveOf n && c.entry.duration.isNone then
        ⟨{ c.entry with duration := some s.liveHold }, some (s.clock + ticks s.liveHold)⟩
      else c)
    queue := b.queue.map (fun e =>
      if e.page.isLiveOf n && e.duration.isNone then { e with duration := some s.liveHold } else e) })

/-- The changes say that a frame moved a record to LANDED, R43 apart. -/
def movedToLanded (n : Nat) (cs : List Change) : Bool :=
  cs.any (fun c => match c with
    | .entered r _ forced => r.hdr.attempt == n && r.state == .landed && !forced
    | .removed _ => false)

/-- A LANDING at a board (R175). -/
def State.boardLanding (s : State) (n : Nat) (cs : List Change) : State :=
  (if movedToLanded n cs then s.timeLive n else s).recompose (·.isLiveOf n)

/-- The body is a LANDING. -/
def isLanding : Body → Bool
  | .landing .. => true
  | _ => false

/-- A change of the table ends the LIVE page of a record that leaves without a LANDING (R175). -/
def State.boardChange (s : State) (byLanding : Bool) (c : Change) : State :=
  match c with
  | .removed r => s.removePages (·.isLiveOf r.hdr.attempt)
  | .entered r _ forced =>
    match r.state with
    | .void | .published => s.removePages (·.isLiveOf r.hdr.attempt)
    | .landed => if forced || !byLanding then s.removePages (·.isLiveOf r.hdr.attempt) else s
    | _ => s

/-! ## HOLD, RESULT and TEXT pages (R176, R177) -/

/-- The page is the HOLD page. -/
def Page.isHold : Page → Bool
  | .hold => true
  | _ => false

/-- A STATUS of the start station (R176). -/
def State.boardStatus (s : State) (p : StartPart) : State :=
  let old := s.board
  let s := s.modBoard (fun b => { b with knownHolds := p.causes, knownAttempt := p.attempt })
  if old.knownHolds = p.causes then
    if old.knownAttempt = p.attempt then s else s.recompose (·.isHold)
  else if old.knownHolds.isEmpty then (s.arrive ⟨.hold, none⟩).recompose (·.isLive)
  else if p.causes.isEmpty then (s.removePages (·.isHold)).recompose (·.isLive)
  else s.recompose (fun q => q.isHold || q.isLive)

/-- The page is a RESULT page of an attempt with a revision that a test names. -/
def Page.isResult (n : Nat) (test : Nat → Bool) : Page → Bool
  | .result r => r.hdr.attempt == n && test r.revision
  | _ => false

/-- The result time, in ticks. -/
def State.resultTicks (s : State) : Nat := s.loader.consts.board.resultS * 10000

/-- A RESULT from the jury (R177). Where two waiting pages of its attempt both have a lower revision, its content
replaces that of each: DESIGN CHOICE, log entry 50. -/
def State.boardResult (s : State) (r : ResultPayload) : State :=
  let n := r.hdr.attempt
  let newer := Page.isResult n (fun v => r.revision ≤ v)
  let older := Page.isResult n (fun v => v < r.revision)
  let e : PageEntry := ⟨.result r, some s.resultTicks⟩
  if s.currentIs newer || s.board.queue.any (fun f => newer f.page) then s
  else if s.board.queue.any (fun f => older f.page) then
    s.modBoard (fun b => { b with
      queue := b.queue.map (fun f => if older f.page then { f with page := .result r } else f) })
  else s.arrive e

/-- A TEXT from the jury (R177). -/
def State.boardText (s : State) (cs : List Byte) : State := s.arrive ⟨.text cs, some s.resultTicks⟩

/-- TEXT past the EVENT test (R177). -/
def State.takeText (s : State) (cs : List Byte) : State :=
  if cs.isEmpty || lineWidth < cs.length || !cs.all textChar then s.answer 0x3F .range
  else (s.offer (.text cs) none).answer 0x3F .ok

/-- TEXT (R177). -/
def execText (cs : List Byte) (s : State) : Result :=
  .next (s.command 0x3F (cs.length ≤ 60) (·.jury) (fun s => s.eventTest 0x3F (·.takeText cs)))

/-! ## Events, frames, entry into RUN and restart (R170, R178, R183) -/

/-- The pages that an EVENT removes. -/
def Page.endsAtEvent : Page → Bool
  | .live .. | .result _ | .standings _ => true
  | _ => false

/-- The sender is the station that the map names as START. -/
def State.fromStart (s : State) (l : LineHdr) : Bool :=
  s.loader.consts.stationWith (·.start) == some l.sender

/-- The page is a STANDINGS page. -/
def Page.isStandings : Page → Bool
  | .standings _ => true
  | _ => false

/-- A change of the results list or of the round record, handed by the standings unit (R178). -/
def State.boardListChange (s : State) (before : StandingsState) : State :=
  if s.standings.results = before.results ∧ s.standings.round = before.round then s
  else s.recompose (·.isStandings)

/-- A frame delivered to the board unit (R170), with the changes that it made to the table. -/
def State.boardFrame (s : State) (l : LineHdr) (b : Body) (cs : List Change) : State :=
  match b with
  | .phase h p _ seconds _ => if s.fromStart l then s.boardPhase l h p seconds else s
  | .speed h _ => s.recompose (·.isLiveOf h.attempt)
  | .landing h .. => s.boardLanding h.attempt cs
  | .result r => if s.fromJury l then s.boardResult r else s
  | .text t => if s.fromJury l then s.boardText t else s
  | .event .. => s.removePages (·.endsAtEvent)
  | .status p => if s.fromStart l then p.start.elim s s.boardStatus else s
  | _ => s

/-- The board unit at entry into RUN: blank buffers, the rotation, and the scanner's first frame. -/
def State.boardEntry (s : State) : State :=
  (s.modBoard (fun _ => { nextRow := some s.clock })).rotate

/-- The board unit at a restart (R183). -/
def State.boardRestart (s : State) : State :=
  (s.modBoard (fun b => { b with
    queue := [], current := none, knownHolds := {}, knownAttempt := none })).rotate

/-! ## Timers and the scanner (R171, R179, R181, R182) -/

/-- The time of the current page has run out. -/
def State.pageDue (s : State) : Bool :=
  match s.board.current with
  | none => false
  | some c => expired s.clock c.endsAt

/-- PAGE_TIME_END: the current page's time runs out (R171). -/
def execPageTimeEnd (s : State) : Result := .next (if s.pageDue then s.endPage else s)

/-- The seconds of a current LIVE page in GREEN have changed. -/
def State.secondsDue (s : State) : Bool :=
  match s.board.current with
  | none => false
  | some c => (s.liveSeconds c.entry.page).isSome && s.liveSeconds c.entry.page != s.board.shownSeconds

/-- LIVE_SECONDS_TICK: the seconds shown change (R179). -/
def execLiveSecondsTick (s : State) : Result :=
  .next (if s.secondsDue then s.recompose (·.isLive) else s)

/-- At a panel frame start, a ready back buffer exchanges with the front buffer (R182). -/
def BoardState.frameStart (b : BoardState) : BoardState :=
  if b.ready then { b with front := b.back, back := b.front, ready := false } else b

/-- The panel scan outputs after one thing that the scanner does at them (R181). -/
def PanelOutputs.drive (o : PanelOutputs) : ScanItem → PanelOutputs
  | .blank true => { o with blank := true, columnData := [] }
  | .blank false => { o with blank := false }
  | .column dot => { o with columnData := o.columnData ++ [dot] }
  | .latch asserted => { o with latch := asserted }
  | .rowSelect row => { o with rowSelect := row }

/-- What the scanner does in the period of a row, in the order of R181: blank asserted, the dots of the row sent on
column data, latch pulsed, row select set, and blank released for the rest of the period. -/
def rowItems (dots : List Bool) (row : Nat) : List ScanItem :=
  .blank true :: dots.map .column ++ [.latch true, .latch false, .rowSelect row, .blank false]

/-- One row period of the scanner (R181, R182). -/
def BoardState.scanRow (b : BoardState) (k : BoardConsts) : BoardState :=
  let b := if b.row = 0 then b.frameStart else b
  let items := rowItems (panelRow k b.front b.row) b.row
  { b with
    scan := items
    panel := items.foldl PanelOutputs.drive b.panel
    row := if b.row + 1 < k.rowsTotal then b.row + 1 else 0
    nextRow := b.nextRow.map (· + 1) }

/-- PANEL_ROW_PERIOD: a row period begins (R181). Its five parts, whose times within the period R181 leaves open, are
done whole and in order: DESIGN CHOICE, log entry 61. -/
def execPanelRowPeriod (s : State) : Result :=
  .next (if expired s.clock s.board.nextRow then s.modBoard (·.scanRow s.loader.consts.board) else s)

end Sys2Proof.Machine
end

