-- ==== Sys2Proof/Machine/Judge.lean ====
section
/-! DEFINITION. The judge port: keypad records and lamp answers of the five seats (R188). -/

namespace Sys2Proof.Machine

open Sys2Proof

/-- Changes one seat channel. -/
def State.modSeat (s : State) (channel : Nat) (f : SeatChannel → SeatChannel) : State :=
  { s with judge := { seats := s.judge.seats.set channel (f (s.judge.seats.get channel)) } }

/-- A seat channel that is read: the station holds JURY, and the channel is 1 to 5. -/
def State.seatRead (s : State) (channel : Nat) : Bool := s.loader.roles.jury && within 1 5 channel

/-- The time of a lamp answer: 10,000 ticks. -/
def answerTime : Tick := ticks 10000

/-- The on or off time of a REJECT: 1,000 ticks. -/
def flashTime : Tick := ticks 1000

/-- Starts a lamp answer, in place of the one running. -/
def State.lampAnswer (s : State) (channel : Nat) (accept : Bool) : State :=
  s.modSeat channel (fun c => { c with
    answer := if accept then .accept else .reject
    lit := true
    endsAt := s.clock + answerTime
    toggleAt := s.clock + flashTime })

/-- A complete keypad record whose check holds (R188). A seat byte that is no seat, 0 or above 5, is a seat other than the
channel's own, and is answered REJECT: DESIGN CHOICE, log entry 64. -/
def State.keypad (s : State) (channel seat mark : Nat) : State :=
  if seat = channel then
    let (s, placed) := s.takeMark seat mark
    s.lampAnswer channel placed
  else (s.lampAnswer channel false).raise (.markRefused channel mark 1)

/-- KEYPAD_RECORD: three characters have come in on a channel. A failing check discards them. -/
def execKeypadRecord (channel : Nat) (seat mark check : Byte) (s : State) : Result :=
  .next (if s.seatRead channel then
      let s := s.modSeat channel (fun c => { c with gathered := [] })
      if check = keypadCheck seat mark then s.keypad channel seat.toNat mark.toNat else s
    else s)

/-- The most ticks between two characters of a keypad record (R188). -/
def keypadGap : Nat := 200

/-- A condition of R188 under which a keypad record that is not complete is discarded holds. -/
def keypadDiscardHolds : KeypadDiscard → Bool
  | .gap n => keypadGap < n
  | .lowStop => true

/-- KEYPAD_GAP_TIMEOUT: more than 200 ticks between two characters drop the record, silently, and so does a character
whose stop bit is sampled low (R188), which has no row of its own: DESIGN CHOICE, log entry 24. -/
def execKeypadGapTimeout (channel : Nat) (why : KeypadDiscard) (s : State) : Result :=
  .next (if s.seatRead channel && keypadDiscardHolds why then
      s.modSeat channel (fun c => { c with gathered := [] })
    else s)

/-- An answer has come to its end. -/
def SeatChannel.endDue (c : SeatChannel) (now : Tick) : Bool := c.answer != .off && reached now c.endsAt

/-- A REJECT has come to the end of an on or off time, short of its own end. -/
def SeatChannel.toggleDue (c : SeatChannel) (now : Tick) : Bool :=
  c.answer == .reject && reached now c.toggleAt && !reached now c.endsAt

/-- LAMP_FLASH_TOGGLE: the lamp of a REJECT toggles. -/
def execLampFlashToggle (channel : Nat) (s : State) : Result :=
  .next (if s.seatRead channel && (s.judge.seats.get channel).toggleDue s.clock then
      s.modSeat channel (fun c => { c with lit := !c.lit, toggleAt := c.toggleAt + flashTime })
    else s)

/-- LAMP_ANSWER_END: a lamp answer ends. -/
def execLampAnswerEnd (channel : Nat) (s : State) : Result :=
  .next (if s.seatRead channel && (s.judge.seats.get channel).endDue s.clock then
      s.modSeat channel (fun c => { c with answer := .off, lit := false })
    else s)

end Sys2Proof.Machine
end

