-- ==== Sys2Proof/Machine/Frames.lean ====
section
/-! DEFINITION. What a frame heard does: validity, echo, duplicate station, roster, event filter, attempt
tracker and blocks (R3 to R6, R12, R13, R28, R29, R35 to R54), and the commands that report frames. -/

namespace Sys2Proof.Machine

open Sys2Proof

/-! ## Handing changes and frames to the blocks -/

/-- The blocks that a role gives, acting one after another. -/
def State.ifRole (s : State) (role : RoleSet → Bool) (act : State → State) : State :=
  if role s.loader.roles then act s else s

/-- Hands changes of the table to every block that keeps state under an attempt number (R42). `l` is what
came with the frame that made them, and `byLanding` says that it was a LANDING. -/
def State.handChanges (s : State) (l : LineHdr) (byLanding : Bool) (cs : List Change) : State :=
  let before := s.standings
  let s := s.ifRole (·.start) (·.recountBacklog)
  let s := s.ifRole (·.edge) (fun s => cs.foldl State.edgeChange s)
  let s := s.ifRole (·.mast) (fun s => cs.foldl State.windChange s)
  let s := s.ifRole (·.span) (fun s => cs.foldl State.spanChange s)
  let s := s.ifRole (·.jury) (fun s => cs.foldl (fun s c => s.landingChange l c) s)
  let s := s.ifRole (·.jury) (fun s => cs.foldl State.scoringChange s)
  let s := s.ifRole (·.jury) (fun s => if cs.isEmpty then s else s.testClosing)
  s.ifRole (·.board) (fun s => (cs.foldl (fun s c => s.boardChange byLanding c) s).boardListChange before)

/-- The standings unit takes a frame, and then tests a CLOSING round where the table has changed. -/
def State.standingsTake (s : State) (l : LineHdr) (b : Body) (cs : List Change) : State :=
  let s := s.standingsFrame l b
  if cs.isEmpty then s else s.testClosing

/-- The board unit takes the changes of the table, those of the standings, and the frame. -/
def State.boardTake (s : State) (before : StandingsState) (l : LineHdr) (b : Body) (cs : List Change) :
    State :=
  let s := cs.foldl (fun s c => s.boardChange (isLanding b) c) s
  (s.boardListChange before).boardFrame l b cs

/-- The body is an EVENT. -/
def isEvent : Body → Bool
  | .event .. => true
  | _ => false

/-- The start sequencer takes a change of the backlog count and a frame. At an EVENT the cycle ends before
the count that it empties is taken, so that no BACKLOG released there opens a start (log entry 8). -/
def State.startTake (s : State) (l : LineHdr) (b : Body) : State :=
  if isEvent b then (s.startFrame l b).recountBacklog else s.recountBacklog.startFrame l b

/-- Hands a frame, and the changes of the table that it made, to the blocks (R5, R35): each takes the
changes and then the frame. -/
def State.handFrame (s : State) (l : LineHdr) (b : Body) (cs : List Change) : State :=
  let manual := s.handedManual l b
  let before := s.standings
  let s := s.ifRole (·.start) (fun s => s.startTake l b)
  let s := s.ifRole (·.edge) (fun s => (cs.foldl State.edgeChange s).edgeFrame l b)
  let s := s.ifRole (·.mast) (fun s => (cs.foldl State.windChange s).windFrame l b)
  let s := s.ifRole (·.span) (fun s => (cs.foldl State.spanChange s).spanFrame l b)
  let s := s.ifRole (·.jury) (fun s => (cs.foldl (fun s c => s.landingChange l c) s).landingFrame l b)
  let s := s.ifRole (·.jury) (fun s => (cs.foldl State.scoringChange s).scoringFrame l b manual)
  let s := s.ifRole (fun r => r.jury || r.board) (fun s => s.standingsTake l b cs)
  s.ifRole (·.board) (fun s => s.boardTake before l b cs)

/-! ## The attempt tracker's frames (R35, R40 to R42, R54) -/

/-- Raises ATTEMPT_IGNORED (R40, R42). -/
def State.ignoreAttempt (s : State) (l : LineHdr) (b : Body) (n : Nat) : State :=
  s.raise (.attemptIgnored n b.kind l.sender)

/-- Removes a record, and hands its removal to the blocks (R42). -/
def State.removeRecord (s : State) (l : LineHdr) (r : AttemptRecord) : State :=
  (s.dropRecord r.hdr.attempt).handChanges l false [.removed r]

/-- Creates the record of an unknown attempt (R41, R42). The notice of TABLE_EVICT comes before what the removal raises:
DESIGN CHOICE, log entry 46. -/
def State.createRecord (s : State) (l : LineHdr) (b : Body) (h : AttemptHdr) : State × List Change :=
  let r := newRecord h l b
  match s.roomFor r.state.live with
  | .free => s.addRecord r
  | .reuse old => (s.removeRecord l old).addRecord r
  | .evict old => ((s.report .tableEvict old.hdr.attempt).removeRecord l old).addRecord r
  | .none => (s.ignoreAttempt l b h.attempt, [])

/-- The tracker takes a delivered frame (R35). -/
def State.track (s : State) (l : LineHdr) (b : Body) : State × List Change :=
  match b with
  | .event .. => ({ s with table := [] }, s.table.map .removed)
  | _ =>
    match b.hdr? with
    | none => (s, [])
    | some h =>
      match s.attempt? h.attempt with
      | some r => s.takeKnown (s.isOwn l) l b h r
      | none =>
        if s.mayCreate (s.isOwn l) b then s.createRecord l b h
        else (s.ignoreAttempt l b h.attempt, [])

/-! ## The roster (R28 to R30) -/

/-- The roster's readers take a change of an entry. -/
def State.rosterReaders (s : State) : State :=
  (s.ifRole (·.start) (·.evalRosterHolds)).ifRole (·.jury) (·.gatherAll)

/-- What a STATUS heard announces of digest and condition. -/
def announced (h : Option StatusHeard) : Option (Word16 × Condition) :=
  h.map (fun h => (h.payload.digest, h.payload.condition))

/-- The entry of a sender after a frame (R28). -/
def RosterEntry.hear (e : RosterEntry) (l : LineHdr) (b : Body) : RosterEntry :=
  { presence := .present
    lastHeard := some l.stamp
    status := match b with
      | .status p => some ⟨p, l.event⟩
      | _ => e.status }

/-- The roster takes a frame (R28). Where one frame changes both the presence and the digest or condition,
STATION_HEARD comes before STATION_CHANGED, and both before what the readers raise: DESIGN CHOICE, log
entry 36. -/
def State.rosterTake (s : State) (l : LineHdr) (b : Body) : State :=
  let e := s.rosterAt l.sender
  let e' := e.hear l b
  let heard := e.presence != .present
  let changed := announced e.status != announced e'.status
  let s := { s with roster := s.roster.set l.sender e' }
  let s := if heard then s.raise (.stationHeard l.sender) else s
  let s := if changed then s.raise (.stationChanged l.sender) else s
  if heard || changed then s.rosterReaders else s

/-- The ticks after which an entry becomes SILENT (R29). -/
def silenceTime : Int := 10000

/-- An entry has been PRESENT and unheard for 1000 ms. -/
def RosterEntry.silentDue (e : RosterEntry) (now : Tick) : Bool :=
  e.presence == .present &&
    match e.lastHeard with
    | none => false
    | some t => silenceTime ≤ since now t

/-- STATION_SILENT: a PRESENT entry becomes SILENT (R29). The notice comes before what the readers of the roster raise,
which R29 leaves open: DESIGN CHOICE, log entry 46. -/
def execStationSilent (station : Nat) (s : State) : Result :=
  .next (if (s.rosterAt station).silentDue s.clock then
      let s := { s with roster := s.roster.set station { s.rosterAt station with presence := .silent } }
      let s := (s.raise (.stationSilent station)).ifRole (·.start) (·.evalRosterHolds)
      (s.ifRole (·.jury) (·.landingSilent station)).ifRole (·.jury) (·.gatherAll)
    else s)

/-! ## The current event number (R6) -/

/-- The frame is a STATUS. -/
def QueuedFrame.isStatus (f : QueuedFrame) : Bool := f.body.kind == 0x01

/-- Sets the current event number; at a change, frames of another event leave the queues, STATUS frames
apart. -/
def LineState.setEvent (l : LineState) (n : Nat) : LineState :=
  if l.eventNumber = n then l
  else
    let keep := fun (f : QueuedFrame) => f.isStatus || f.event == n
    { l with eventNumber := n, urgent := l.urgent.filter keep, routine := l.routine.filter keep }

/-- A delivered EVENT: every frame waiting but STATUS leaves, and the number is taken. -/
def LineState.takeEvent (l : LineState) (n : Nat) : LineState :=
  { l with
    eventNumber := n
    urgent := l.urgent.filter (·.isStatus)
    routine := l.routine.filter (·.isStatus) }

/-- What the line interface does with a frame that passes the filter: an EVENT, or the jury's STATUS at a
station without an event number. -/
def State.lineTake (s : State) (l : LineHdr) (b : Body) : State :=
  match b with
  | .event n _ _ => { s with line := s.line.takeEvent n }
  | .status _ =>
    if s.line.eventNumber = 0 ∧ l.event ≠ 0 ∧ !s.loader.roles.jury ∧ s.fromJury l then
      { s with line := s.line.setEvent l.event }
    else s
  | _ => s

/-! ## Delivery (R4, R5, R12, R13) -/

/-- The event-number filter passes a frame (R5). At event number 0, which means no event, STATUS and EVENT alone pass
(R57, R81): DEDUCED, log entry 43. -/
def State.passesFilter (s : State) (l : LineHdr) (b : Body) : Bool :=
  match b with
  | .status _ | .event .. => true
  | _ => s.line.eventNumber != 0 && l.event == s.line.eventNumber

/-- Delivers a frame that has passed the checks of R3 and R4 (R5). -/
def State.deliver (s : State) (l : LineHdr) (b : Body) : State :=
  let s := s.rosterTake l b
  if s.loader.state.base = .run then
    if s.passesFilter l b then
      let (s, cs) := (s.lineTake l b).track l b
      s.handFrame l b cs
    else s
  else s

/-- The line after activity of a duration (R1): the quiet time is zero, and the busy period under way grows, or a
new one has begun. -/
def LineState.activity (l : LineState) (us : Nat) : LineState :=
  { l with quietUs := 0, busyUs := some (l.busyUs.getD 0 + us) }

/-- The line after a frame (R1, R2): its first character came after an idle line, so it is a busy period of its
own; the assembler waits for a kind byte. -/
def LineState.heard (l : LineState) (b : Body) : LineState :=
  { l with quietUs := 0, busyUs := some b.lineUs, rx := {} }

/-- The stamp of a frame that ends now (R2): the station clock at the start edge of its first character, as long
before the present as the frame lasts. -/
def State.startStamp (s : State) (b : Body) : Tick :=
  s.clock - ticks ((b.lineUs - s.subTick + (tickUs - 1)) / tickUs)

/-- Entry into MUTED on a duplicate station (R4, R26). The HOLD_RELEASED of COACH comes before the fault's notice: DESIGN
CHOICE, log entry 46. -/
def State.mute (s : State) (kind : Nat) : State :=
  let s := s.ifRole (·.start) (·.startMuted)
  let s := { s with
    loader := { s.loader with state := .muted (s.loader.state == StationState.run) }
    line := { s.line with urgent := [], routine := [], nextStatus := none, nextCorridor := none } }
  s.report .duplicateStation kind

/-- A frame heard while the station was not transmitting: of its own number, or of another's. -/
def State.hearOther (s : State) (l : LineHdr) (b : Body) : State :=
  let s := { s with line := s.line.heard b }
  if s.isOwn l then if s.loader.state.isMuted then s else s.mute b.kind
  else ({ s with line := { s.line with yieldMark := false } }).deliver l b

/-- The end of the frame in transmission: a routine one sets the yield mark (R12). -/
def LineState.endTx (l : LineState) (b : Body) : LineState :=
  { l with tx := none, quietUs := 0, rx := {}, yieldMark := l.yieldMark || !b.urgent }

/-- The station's own frame at its echo (R13). -/
def State.echo (s : State) (l : LineHdr) (b : Body) : State :=
  let s := { s with line := { s.line.endTx b with busyUs := some b.lineUs } }
  if l.inRange && b.inRange then s.deliver l b else s

/-- Takes a frame heard (R3 to R5, R13): while the station transmits, its own frame at echo; in LOADING, and
while the assembler ignores characters, it is line activity alone. Any other frame is stamped at the start edge of
its first character. A field out of its range discards the frame. -/
def State.receive (s : State) (h : RxHdr) (b : Body) : State :=
  if s.resetAsserted then s
  else if s.loader.state == .loading then { s with line := s.line.activity b.lineUs }
  else match s.line.tx with
    | some g => if g.line.rx = h ∧ g.body = b then s.echo g.line b else s
    | none =>
      let l := h.stamped (s.startStamp b)
      if s.line.rx.skipping then { s with line := s.line.activity b.lineUs }
      else if l.inRange && b.inRange then s.hearOther l b
      else { s with line := s.line.heard b }

/-! ## The commands that report frames -/

/-- The command that reports a frame, with the sender, event number and age of its header. -/
def frameCommand (l : RxHdr) : Body → Instr
  | .status p => .statusFrame l p
  | .corridor m x y u f => .corridorFrame l m x y u f
  | .event n m r => .eventFrame l n m r
  | .call h g => .callFrame l h g
  | .go h => .goFrame l h
  | .gate h g a => .gateFrame l h g a
  | .hold b => .holdFrame l b
  | .round r m g => .roundFrame l r m g
  | .text cs => .textFrame l cs
  | .phase h p g sec n => .phaseFrame l h p g sec n
  | .coach h g q w => .coachFrame l h g q w
  | .leave h b => .leaveFrame l h b
  | .void h r => .voidFrame l h r
  | .speed h v => .speedFrame l h v
  | .takeoff h n => .takeoffFrame l h n
  | .inView h sp => .inViewFrame l h sp
  | .viewLost h sp r => .viewLostFrame l h sp r
  | .contact h sp t pos => .contactFrame l h sp t pos
  | .landing h d q n c => .landingFrame l h d q n c
  | .mastMean h m mean u p => .mastmeanFrame l h m mean u p
  | .result r => .resultFrame l r

/-- STATUS_FRAME: a STATUS is heard (R28, section 12.1). -/
def execStatusFrame (l : RxHdr) (p : StatusPayload) (s : State) : Result := .next (s.receive l (.status p))

/-- CORRIDOR_FRAME: a CORRIDOR is heard (R73). -/
def execCorridorFrame (l : RxHdr) (mast : Nat) (meanX meanY : Int) (used : Nat) (flags : CorridorFlags)
    (s : State) : Result := .next (s.receive l (.corridor mast meanX meanY used flags))

/-- EVENT_FRAME: an EVENT is heard (R6, R54). -/
def execEventFrame (l : RxHdr) (number : Nat) (mode : EventMode) (rounds : Nat) (s : State) : Result :=
  .next (s.receive l (.event number mode rounds))

/-- CALL_FRAME: a CALL is heard (R40, R61). -/
def execCallFrame (l : RxHdr) (h : AttemptHdr) (gate : Nat) (s : State) : Result :=
  .next (s.receive l (.call h gate))

/-- GO_FRAME: a GO is heard (R62). -/
def execGoFrame (l : RxHdr) (h : AttemptHdr) (s : State) : Result := .next (s.receive l (.go h))

/-- GATE_FRAME: a GATE is heard (R45, R65). -/
def execGateFrame (l : RxHdr) (h : AttemptHdr) (gate : Nat) (ack : Bool) (s : State) : Result :=
  .next (s.receive l (.gate h gate ack))

/-- HOLD_FRAME: a HOLD is heard (R70). -/
def execHoldFrame (l : RxHdr) (set : Bool) (s : State) : Result := .next (s.receive l (.hold set))

/-- ROUND_FRAME: a ROUND is heard (R165). -/
def execRoundFrame (l : RxHdr) (round : Nat) (state : RoundMsg) (refGate : Nat) (s : State) : Result :=
  .next (s.receive l (.round round state refGate))

/-- TEXT_FRAME: a TEXT is heard (R177). -/
def execTextFrame (l : RxHdr) (cs : List Byte) (s : State) : Result := .next (s.receive l (.text cs))

/-- PHASE_FRAME: a PHASE is heard (R36, R47). -/
def execPhaseFrame (l : RxHdr) (h : AttemptHdr) (phase : Phase) (gate seconds greenCount : Nat)
    (s : State) : Result := .next (s.receive l (.phase h phase gate seconds greenCount))

/-- COACH_FRAME: a COACH is heard (R46). -/
def execCoachFrame (l : RxHdr) (h : AttemptHdr) (juryGate requested : Nat) (withdrawn : Bool)
    (s : State) : Result := .next (s.receive l (.coach h juryGate requested withdrawn))

/-- LEAVE_FRAME: a LEAVE is heard (R48, R123). -/
def execLeaveFrame (l : RxHdr) (h : AttemptHdr) (leftOnHold : Bool) (s : State) : Result :=
  .next (s.receive l (.leave h leftOnHold))

/-- VOID_FRAME: a VOID is heard (R52). -/
def execVoidFrame (l : RxHdr) (h : AttemptHdr) (reason : VoidReason) (s : State) : Result :=
  .next (s.receive l (.void h reason))

/-- SPEED_FRAME: a SPEED is heard (R48). -/
def execSpeedFrame (l : RxHdr) (h : AttemptHdr) (speed : Nat) (s : State) : Result :=
  .next (s.receive l (.speed h speed))

/-- TAKEOFF_FRAME: a TAKEOFF is heard (R48, R124). -/
def execTakeoffFrame (l : RxHdr) (h : AttemptHdr) (noSpeed : Bool) (s : State) : Result :=
  .next (s.receive l (.takeoff h noSpeed))

/-- IN_VIEW_FRAME: an IN_VIEW is heard (R125). -/
def execInViewFrame (l : RxHdr) (h : AttemptHdr) (span : Nat) (s : State) : Result :=
  .next (s.receive l (.inView h span))

/-- VIEW_LOST_FRAME: a VIEW_LOST is heard (R125). -/
def execViewLostFrame (l : RxHdr) (h : AttemptHdr) (span : Nat) (reason : LostReason) (s : State) :
    Result := .next (s.receive l (.viewLost h span reason))

/-- CONTACT_FRAME: a CONTACT is heard (R126). -/
def execContactFrame (l : RxHdr) (h : AttemptHdr) (span : Nat) (track : Track) (position : Nat)
    (s : State) : Result := .next (s.receive l (.contact h span track position))

/-- LANDING_FRAME: a LANDING is heard (R50, R106, R133). -/
def execLandingFrame (l : RxHdr) (h : AttemptHdr) (distance : Nat) (quality : Quality)
    (noTakeoff lateContact : Bool) (s : State) : Result :=
  .next (s.receive l (.landing h distance quality noTakeoff lateContact))

/-- MASTMEAN_FRAME: a MASTMEAN is heard (R134). -/
def execMastmeanFrame (l : RxHdr) (h : AttemptHdr) (mast : Nat) (mean : Option Int) (used : Nat)
    (partialMean : Bool) (s : State) : Result :=
  .next (s.receive l (.mastMean h mast mean used partialMean))

/-- RESULT_FRAME: a RESULT is heard (R51, R147, R166, R177). -/
def execResultFrame (l : RxHdr) (r : ResultPayload) (s : State) : Result :=
  .next (s.receive l (.result r))

/-! ## The close of a round (R163) -/

/-- CLOSE_ROUND (R163). At a jury station that holds BOARD, the round record's change goes to the board unit
(R154). -/
def execCloseRound (s : State) : Result :=
  .next (s.command 0x3E true (·.jury) (fun s => s.eventTest 0x3E (fun s =>
    s.takeCloseRound.ifRole (·.board) (·.boardListChange s.standings))))

/-! ## The lapse of a call (R53, R158) -/

/-- What comes with a change that no frame made. -/
def noLine (now : Tick) : LineHdr := ⟨0, 0, 0, now⟩

/-- The pending call whose lapse time has come. -/
def State.lapsed (s : State) : Option PendingCall :=
  match s.standings.pendingCall with
  | none => none
  | some p => if reached s.clock p.lapseAt then some p else none

/-- CALL_LAPSED: a pending call lapses, and its record is voided locally (R158, R53). Where that completes a CLOSING
round (R163), CALL_LAPSED is raised after ROUND_CLOSED and ROUND_OPEN: DESIGN CHOICE, log entry 46. -/
def execCallLapsed (s : State) : Result :=
  .next (match s.lapsed with
    | none => s
    | some p =>
      let s := s.modStandings (fun t => { t with pendingCall := none })
      let (s, cs) := s.voidLocally p.attempt
      (s.handChanges (noLine s.clock) false cs).raise (.callLapsed p.attempt p.bib))

end Sys2Proof.Machine
end

