-- ==== Sys2Proof/Machine/Line.lean ====
section
/-! DEFINITION. The line interface: access to the line, transmission, the guards, discarded frames and the
STATUS cadence (chapter 1). -/

namespace Sys2Proof.Machine

open Sys2Proof

/-- Changes the line interface's own state. -/
def State.modLine (s : State) (f : LineState → LineState) : State := { s with line := f s.line }

/-- The line interface receives: RESET is released and the station is not LOADING (R16, R20). -/
def State.lineListens (s : State) : Bool := !s.resetAsserted && s.loader.state != .loading

/-! ## Access to the line (R11, R15) -/

/-- The candidate: the head of the urgent queue, or else of the routine queue. -/
def LineState.candidate (l : LineState) : Option QueuedFrame :=
  match l.urgent with
  | f :: _ => some f
  | [] => l.routine.head?

/-- The access slot of a candidate at a station number. -/
def LineState.slot (l : LineState) (station : Nat) (f : QueuedFrame) : Nat :=
  if f.body.urgent then station else if l.yieldMark then 32 + station else 16 + station

/-- The quiet gap of a candidate, in microseconds. -/
def LineState.gap (l : LineState) (station : Nat) (f : QueuedFrame) : Nat := 24 + 8 * l.slot station f

/-- The quiet time that a start needs: the gap, and 1 ms before it after a hung condition (R15). -/
def LineState.neededQuiet (l : LineState) (station : Nat) (f : QueuedFrame) : Nat :=
  if l.resumeGuard then 1000 + l.gap station f else l.gap station f

/-- The station may send: not in reset, in RUN or INVALID, no frame in transmission, the line idle and not
hung. -/
def State.maySend (s : State) : Bool :=
  s.lineListens && !s.loader.state.isMuted && s.line.tx.isNone && s.line.busyUs.isNone && !s.line.hung

/-- What counts of a quiet time that a command names: no more than the line has been quiet (R1; log entry 30). -/
def LineState.quietOf (l : LineState) (us : Nat) : Nat := min us l.quietUs

/-- The frame whose transmission begins at a quiet time (R11): the candidate, where the station may send and the
quiet time has reached what the candidate needs. -/
def State.startsFrame (s : State) (quietUs : Nat) : Option QueuedFrame :=
  match s.line.candidate with
  | none => none
  | some f =>
    if s.maySend && s.line.neededQuiet s.loader.station f ≤ s.line.quietOf quietUs then some f else none

/-- Takes the candidate out of its queue. -/
def LineState.popCandidate (l : LineState) : LineState :=
  match l.urgent with
  | _ :: q => { l with urgent := q }
  | [] => { l with routine := l.routine.tail }

/-- The age of a frame at its start (R7): saturated at 65,535, and 0 without an event time. -/
def ageAt (now : Tick) (eventTime : Option Tick) : Word16 :=
  match eventTime with
  | none => 0
  | some t => if (now - t).toNat ≤ 65534 then BitVec.ofNat 16 (now - t).toNat else 0xFFFF

/-- Begins the transmission of a frame that has left its queue (R7, R9, R11). -/
def State.beginTx (s : State) (f : QueuedFrame) : State :=
  s.modLine (fun l => { l.popCandidate with
    tx := some ⟨⟨s.loader.station, f.event, ageAt s.clock f.eventTime, s.clock⟩, f.body⟩
    quietUs := 0
    busyUs := some 0
    resumeGuard := false
    rx := {} })

/-- TRANSMISSION_START: the candidate whose gap the quiet time has reached is sent. -/
def execTransmissionStart (quietUs : Nat) (s : State) : Result :=
  .next (match s.startsFrame quietUs with
    | none => s
    | some f => s.beginTx f)

/-! ## What the station drives (R1, R14) -/

/-- The time since the first start bit of a frame in transmission has come to the end of its last stop bit. -/
def LineState.sentWhole (l : LineState) (g : LineFrame) : Bool := g.body.lineUs ≤ l.busyUs.getD 0

/-- The driver enable output: asserted from the first start bit of a frame in transmission to the end of its last stop
bit. That a fault of the output keeps it asserted longer is not held in State: DESIGN CHOICE, log entry 58. -/
def State.driverEnable (s : State) : Bool := s.line.tx.any (fun g => !s.line.sentWhole g)

/-- The levels of a frame on the line, from its first start bit. -/
def txLevels (g : LineFrame) : List Bool :=
  frameLevels (frameBytes g.line.sender g.line.event g.line.age g.body)

/-- The level that the station drives now, `true` recessive: the bit of the frame in transmission that the time
since its first start bit has come to. -/
def State.drivenLevel (s : State) : Bool :=
  match s.line.tx, s.line.busyUs with
  | some g, some us => (txLevels g).getD (us / bitUs) true
  | _, _ => true

/-! ## Guards of the frame in transmission (R13, R14) -/

/-- Abandons the frame in transmission, and reports a fault with its kind. -/
def State.abandonTx (s : State) (kind : FaultKind) : State :=
  match s.line.tx with
  | none => s
  | some g => (s.modLine (·.endTx g.body)).report kind g.body.kind

/-- TX_ECHO: a character read back differs, or has a framing error. -/
def execTxEcho (s : State) : Result := .next (s.abandonTx .txEcho)

/-- The longest that driver enable may stay asserted: 1.0 ms. -/
def jabberLimitUs : Nat := 1000

/-- TX_JABBER: driver enable has stayed asserted for a time, which only a fault makes longer than the frame (log
entry 58). -/
def execTxJabber (assertedUs : Nat) (s : State) : Result :=
  .next (if jabberLimitUs < assertedUs then s.abandonTx .txJabber else s)

/-! ## The hung-line guard (R15) -/

/-- The longest busy period of a line that is not hung: 2 ms. -/
def busyLimitUs : Nat := 2000

/-- A busy period has lasted a time so far (R1). -/
def LineState.busyFor (l : LineState) (us : Nat) : LineState := { l with quietUs := 0, busyUs := some us }

/-- LINE_HUNG: a busy period has lasted a time. In the hung condition nothing is reported again. In LOADING the
guard does not watch: DESIGN CHOICE, log entry 35. -/
def execLineHung (busyUs : Nat) (s : State) : Result :=
  .next (if !s.resetAsserted && busyLimitUs < busyUs then
      let s := s.modLine (·.busyFor busyUs)
      if s.lineListens && !s.line.hung then
        (s.modLine (fun l => { l with hung := true })).report .lineHung 0
      else s
    else s)

/-- The quiet time that ends the hung condition: 1 ms. -/
def hungEndUs : Nat := 1000

/-- The hung condition stands, and a quiet time has reached 1 ms. -/
def LineState.hungEnds (l : LineState) (quietUs : Nat) : Bool := l.hung && hungEndUs ≤ l.quietOf quietUs

/-- LINE_HUNG_END: the quiet time has reached 1 ms, and the hung condition ends. -/
def execLineHungEnd (quietUs : Nat) (s : State) : Result :=
  .next (if s.line.hungEnds quietUs then
      s.modLine (fun l => { l with hung := false, resumeGuard := true, busyUs := none, rx := {} })
    else s)

/-! ## What the receive assembler drops (R3) -/

/-- The longest quiet time between two characters of a frame: 20 µs. -/
def characterGapUs : Nat := 20

/-- The line once the quiet time has come to a number of microseconds (R1, R3): at 20 the busy period ends and
the assembler ignores characters no longer, and past 20 what was gathered is dropped. -/
def LineState.quietFor (l : LineState) (us : Nat) : LineState :=
  { l with
    quietUs := us
    busyUs := if characterGapUs ≤ us then none else l.busyUs
    rx := { gathered := if characterGapUs < us then [] else l.rx.gathered
            skipping := l.rx.skipping && decide (us < characterGapUs) } }

/-- RX_CHARACTER_GAP: the quiet time since the last character has come to a value. From 20 µs the line is
idle. -/
def execRxCharacterGap (gapUs : Nat) (s : State) : Result :=
  .next (if !s.resetAsserted && s.line.tx.isNone && characterGapUs ≤ gapUs then
      s.modLine (·.quietFor gapUs)
    else s)

/-- The length byte of a frame is above 32. -/
def overlong (bytes : List Byte) : Bool :=
  match bytes with
  | _ :: _ :: len :: _ => 32 < len.toNat
  | _ => false

/-- INVALID_FRAME: characters that have come in as a frame. Where they do spell a valid frame, it is no
invalid frame, and nothing is discarded. In LOADING they are line activity alone. -/
def execInvalidFrame (bytes : List Byte) (s : State) : Result :=
  .next (if !s.resetAsserted && s.line.tx.isNone && (decodeFrame bytes).isNone then
      let s := s.modLine (·.activity (charUs * bytes.length))
      if s.lineListens then
        s.modLine (fun l => { l with
          rx := { gathered := [], skipping := l.rx.skipping || overlong bytes } })
      else s
    else s)

/-- RX_FRAMING_ERROR: a character's stop bit is sampled dominant. What was gathered is dropped, and
nothing is taken until the line is idle. In LOADING it is line activity alone. -/
def execRxFramingError (s : State) : Result :=
  .next (if !s.resetAsserted && s.line.tx.isNone then
      let s := s.modLine (·.activity charUs)
      if s.lineListens then s.modLine (fun l => { l with rx := { gathered := [], skipping := true } }) else s
    else s)

/-! ## The STATUS cadence (R16) -/

/-- The period of the STATUS cadence: 2,500 ticks. -/
def statusPeriod : Tick := ticks 2500

/-- STATUS_OFFER: the cadence expires. -/
def execStatusOffer (s : State) : Result :=
  .next (if expired s.clock s.line.nextStatus then
      (s.modLine (fun l => { l with nextStatus := l.nextStatus.map (· + statusPeriod) })).offer
        (.status s.statusNow) none
    else s)

end Sys2Proof.Machine
end

