-- ==== Sys2Proof/Machine/System.lean ====
section
/-! DEFINITION. Reset, the constants load, entry into RUN or INVALID, and RESTART (chapter 2, with the
reset tables of every chapter). -/

namespace Sys2Proof.Machine

open Sys2Proof

/-! ## RESET (R19, R20) -/

/-- RESET_ASSERT: the outputs take their reset levels, and the station holds nothing (log entry 5). The
commands waiting are the model's own, and stay. -/
def execResetAssert (s : State) : Result :=
  .next (if s.resetAsserted then s else { pending := s.pending, resetAsserted := true })

/-- RESET_RELEASE: the straps are sampled, the clock starts from 0, the station is LOADING, and a read of the image
begins. -/
def execResetRelease (straps : BitVec 4) (s : State) : Result :=
  .next (if s.resetAsserted then
      { pending := s.pending, loader := { station := straps.toNat, eeprom := eepromOpening } }
    else s)

/-! ## The end of the load (R16, R17, R25) -/

/-- Offers the STATUS of entry into RUN or INVALID, and starts its cadence. -/
def State.firstStatus (s : State) : State :=
  (s.modLine (fun l => { l with nextStatus := some (s.clock + statusPeriod) })).offer
    (.status s.statusNow) none

/-- The load ends in INVALID with a detail: the station holds no roles and no constants. -/
def State.enterInvalid (s : State) (detail : Nat) (digest : Word16) : State :=
  (({ s with loader := { s.loader with
        state := .invalid, retryAt := none, failedReads := 0, digest := digest, consts := {}, roles := {},
        mast := 0, span := 0 } }).report .constantsInvalid detail).firstStatus

/-- The constants, roles, mast and span of a load that ends in RUN. -/
def Loader.enterRun (l : Loader) (digest : Word16) (k : Constants) : Loader :=
  let own := (k.stations.find? (fun e => e.station == l.station)).getD ⟨l.station, {}, 0, 0⟩
  { l with
    state := .run, retryAt := none, failedReads := 0, digest := digest, consts := k,
    roles := own.roles, mast := own.mast, span := own.span }

/-- The blocks that the roles give become active, each from its values at entry into RUN. -/
def State.startBlocks (s : State) (broken : BarrierInputs) : State :=
  let s := s.ifRole (·.start) (·.startEntry broken.first)
  let s := s.ifRole (·.edge) (·.edgeEntry broken)
  let s := s.ifRole (·.mast) (·.windEntry)
  let s := s.ifRole (·.span) (·.spanEntryRun)
  let s := s.ifRole (·.jury) (fun s => { s with judge := {} })
  s.ifRole (·.board) (·.boardEntry)

/-- Starts the CORRIDOR cadence of a MAST station. -/
def State.startCorridorCadence (s : State) : State :=
  s.ifRole (·.mast) (fun s =>
    s.modLine (fun l => { l with nextCorridor := some (s.clock + corridorPeriod) }))

/-- The load ends in RUN. -/
def State.enterRun (s : State) (digest : Word16) (k : Constants) (broken : BarrierInputs) : State :=
  ((({ s with loader := s.loader.enterRun digest k }).startBlocks broken).startCorridorCadence).firstStatus

/-! ## Reads of the EEPROM (R21) -/

/-- The wait after a failed read: 5 ms. -/
def retryTime : Tick := ticks 50

/-- The failed reads in a row that end the load. -/
def readLimit : Nat := 20

/-- A read is in progress: LOADING, RESET released, and not waiting after a failed read. -/
def State.reading (s : State) : Bool :=
  !s.resetAsserted && s.loader.state == .loading && s.loader.retryAt.isNone

/-- A read fails: one more in a row, and the wait begins. -/
def State.failRead (s : State) : State :=
  { s with loader := { s.loader with
      failedReads := s.loader.failedReads + 1, retryAt := some (s.clock + retryTime) } }

/-- The output on the EEPROM bus becomes what a read sends. -/
def State.sendOnEeprom (s : State) (items : List BusItem) : State :=
  { s with loader := { s.loader with eeprom := items } }

/-- EEPROM_READ_END: a read ends with the bytes that the EEPROM has given, and the load with it unless the
read failed. -/
def execEepromReadEnd (bytes : List Byte) (broken : BarrierInputs) (s : State) : Result :=
  .next (if s.reading then
      let result := loadImage s.loader.station bytes
      let s := s.sendOnEeprom (eepromSends s.loader.station bytes)
      match result with
      | .failedRead => s.failRead
      | .invalid detail digest => s.enterInvalid detail digest
      | .run digest k => s.enterRun digest k broken
    else s)

/-- EEPROM_RETRY_TIMER: the wait after a failed read ends, and a read begins from memory address 0; after 20 failures
the load ends (log entry 9). -/
def execEepromRetryTimer (s : State) : Result :=
  .next (if expired s.clock s.loader.retryAt then
      if readLimit ≤ s.loader.failedReads then s.enterInvalid 0 0
      else { s with loader := { s.loader with retryAt := none, eeprom := eepromOpening } }
    else s)

/-! ## RESTART (R34, R186) -/

/-- The console port's queues are emptied; the record in transmission completes (R189). -/
def State.emptyConsole (s : State) : State :=
  { s with console := { s.console with replies := [], notices := [], unit := [] } }

/-- Empties the attempt table, and hands each removal to the blocks (R57). -/
def State.emptyTable (s : State) : State :=
  let cs := s.table.map Change.removed
  let s := { s with table := [] }
  let s := s.ifRole (·.start) (·.startRestart)
  s.handChanges (noLine s.clock) false cs

/-- The competition state of every block is emptied, and the current event number becomes 0 (R18, R34). -/
def State.restart (s : State) : State :=
  let s := s.emptyConsole.standingsRestart.emptyTable
  let s := s.ifRole (·.mast) (·.windRestart)
  let s := s.scoringRestart
  let s := s.ifRole (·.board) (·.boardRestart)
  { s with line := s.line.setEvent 0, judge := {} }

/-- RESTART (R186). -/
def execRestart (s : State) : Result :=
  .next (s.command 0x02 true anyRole (fun s => s.restart.answer 0x02 .ok))

end Sys2Proof.Machine
end

