-- ==== Sys2Proof/Machine/Records.lean ====
section
/-! DEFINITION. The records that the station sends on the console link: replies, notices and reports, as
bytes (section 12.3). -/

namespace Sys2Proof.Machine

open Sys2Proof

/-! ## Codes -/

/-- The code of a station state. -/
def StationState.code : StationState → Nat
  | .loading => 0
  | .run => 1
  | .invalid => 2
  | .muted _ => 3

/-- The code of an attempt state. -/
def AttemptState.code : AttemptState → Nat
  | .called => 0
  | .green => 1
  | .onInrun => 2
  | .airborne => 3
  | .landed => 4
  | .published => 5
  | .void => 6

/-- The code of a coach request. -/
def coachCode : CoachState → Nat
  | .none => 0
  | .pending => 1
  | .granted => 2
  | .withdrawn => 3

/-- The code of a bus state. -/
def BusState.code : BusState → Nat
  | .free => 0
  | .busyPoll | .busyTransfer => 1
  | .releasing _ _ => 2
  | .hung => 3

/-- The code of the master select. -/
def masterCode : MasterSelect → Nat
  | .auto => 0
  | .console => 1

/-- The code of a landing context's phase, 0 for none. -/
def contextCode : Option ContextPhase → Nat
  | none => 0
  | some .inrunWait => 1
  | some .flightWait => 2
  | some .pairing => 3
  | some .closing => 4
  | some .sent => 5

/-- The code of presence in the roster. -/
def Presence.code : Presence → Nat
  | .absent => 0
  | .present => 1
  | .silent => 2

/-- The code of a reply. -/
def ReplyCode.code : ReplyCode → Nat
  | .ok => 0
  | .state => 1
  | .range => 2
  | .role => 3
  | .full => 4
  | .notFound => 5
  | .event => 6

/-- The command kind of a pending console operation. -/
def SensorOp.code : SensorOp → Nat
  | .mode _ => 0x20
  | .transfer _ _ _ => 0x21
  | .release => 0x22

/-- A station-clock time as bytes. -/
def timeBytes (t : Tick) : List Byte := le32 t.toNat

/-! ## Notices -/

/-- A chosen report of LANDING_RESOLVED: span, position and event time, span 0 for a track without one. -/
def chosenBytes : Option ContactReport → List Byte
  | none => [0, 0, 0, 0, 0, 0, 0]
  | some r => byte r.span :: le16 r.position ++ timeBytes r.time

/-- A report of CONTACT_LATE and CONTACT_DISCARDED. -/
def ContactReport.bytes (r : ContactReport) : List Byte :=
  [byte r.span, byte r.track.code] ++ le16 r.position ++ timeBytes r.time

/-- The contents of a notice, in the order in which its owning rule lists them. -/
def NoticeBody.contents : NoticeBody → List Byte
  | .frameIgnored kind sender => [byte kind, byte sender]
  | .callIgnored attempt phase => le16 attempt ++ [byte phase.code]
  | .goIgnored | .gateIgnored | .leaveIgnored | .strayLeave | .corridorIgnored => []
  | .holdRaised cause source detail => [byte cause.code, byte source] ++ le16 detail
  | .holdReleased cause source detail => [byte cause.code, byte source] ++ le16 detail
  | .coachRefused phase coach steps => [byte phase.code, byte (coachCode coach), byte steps]
  | .callSent attempt bib => le16 attempt ++ [byte bib]
  | .callTaken attempt bib => le16 attempt ++ [byte bib]
  | .callLapsed attempt bib => le16 attempt ++ [byte bib]
  | .repeatLost bib => [byte bib]
  | .startListHead bib => [byte bib]
  | .roundClosing round => [byte round]
  | .roundClosed round discarded => [byte round, byte discarded]
  | .roundOpen round length => [byte round, byte length]
  | .attemptState h state missed => h.bytes ++ [byte state.code, boolByte missed]
  | .attemptIgnored attempt kind sender => le16 attempt ++ [byte kind, byte sender]
  | .attemptMismatch record kind sender bib round =>
    record.bytes ++ [byte kind, byte sender, byte bib, byte round]
  | .strayBreak barrier instant => byte (edgeBarrierCode barrier) :: timeBytes instant
  | .breakIgnored attempt barrier => le16 attempt ++ [byte (edgeBarrierCode barrier)]
  | .speedMissing attempt => le16 attempt
  | .speedImplausible attempt micros => le16 attempt ++ le32 (micros.getD 0).toNat
  | .mastStability mast stable => [byte mast, boolByte stable]
  | .sensorBus mast bus => [byte mast, byte bus.code]
  | .meanSent attempt mean used part =>
    le16 attempt ++ le16s (mean.getD 0) ++ [byte used, packByte [part, mean.isNone]]
  | .meanNotSent attempt => le16 attempt
  | .headLink span heard => [byte span, boolByte (!heard)]
  | .strayContact track offset stamp => byte track.code :: le16 offset ++ timeBytes stamp
  | .contactOutOfSpan attempt track offset => le16 attempt ++ byte track.code :: le16 offset
  | .landingResolved attempt distance quality left right notUsed =>
    le16 attempt ++ le16 distance ++ [byte quality.code] ++ chosenBytes left ++ chosenBytes right ++
      [byte notUsed]
  | .contactLate attempt report => le16 attempt ++ report.bytes
  | .contactDiscarded attempt report => le16 attempt ++ report.bytes
  | .takeoffLate attempt => le16 attempt
  | .landingAbandoned attempt => le16 attempt
  | .landingUntracked attempt kind sender => le16 attempt ++ [byte kind, byte sender]
  | .spanMismatch kind sender span => [byte kind, byte sender, byte span]
  | .manualTaken attempt distance phase => le16 attempt ++ le16 distance ++ [byte (contextCode phase)]
  | .meanIgnored attempt mast reason => le16 attempt ++ [byte mast, byte reason]
  | .gatherDone attempt entries deadline => le16 attempt ++ [byte entries, boolByte deadline]
  | .markTaken attempt seat mark replaced => le16 attempt ++ [byte seat, byte mark, boolByte replaced]
  | .markRefused seat mark cause => [byte seat, byte mark, byte cause]
  | .resultSent attempt revision total => le16 attempt ++ byte revision :: le16 total
  | .voidSent attempt reason => le16 attempt ++ [byte reason.code]
  | .resultsFull bib => [byte bib]
  | .pageDropped kind which => byte kind :: le16 which
  | .stationHeard station => [byte station]
  | .stationChanged station => [byte station]
  | .stationSilent station => [byte station]
  | .faultReported kind detail => byte kind.code :: le16 detail

/-- The record of a notice. -/
def Notice.record (n : Notice) : ConsoleRecord :=
  ⟨0x81, [byte n.body.number.1, byte n.body.number.2] ++ timeBytes n.time ++ n.body.contents⟩

/-- The record of a reply. -/
def Reply.record (r : Reply) : ConsoleRecord := ⟨0x80, [byte r.command, byte r.code.code] ++ r.extra⟩

/-! ## Reports (R186) -/

/-- The fault latch in the Station report: kind, time and detail, zeros when it is empty. -/
def FaultLatch.bytes (l : FaultLatch) : List Byte :=
  match l.record with
  | none => [0, 0, 0, 0, 0, 0, 0]
  | some r => byte r.kind.code :: timeBytes r.time ++ le16 r.detail

/-- The Station report. -/
def State.stationReport (s : State) : ConsoleRecord :=
  ⟨0x82, [byte s.loader.station, byte s.loader.state.code, s.loader.roles.toByte, byte s.condition.code] ++
    le16 s.loader.digest.toNat ++ [byte s.line.eventNumber] ++ s.latch.bytes ++
    [boolByte s.latch.overflow, s.console.mask.toByte, boolByte s.console.overrun,
      boolByte s.console.commandLost]⟩

/-- The Roster report of a station number. -/
def State.rosterReport (s : State) (n : Nat) : ConsoleRecord :=
  let e := s.rosterAt n
  ⟨0x83, [byte n, byte e.presence.code] ++ timeBytes (e.lastHeard.getD 0) ++
    (match e.status with
      | none => [0]
      | some h => byte h.event :: h.payload.bytes)⟩

/-- A hold list entry in the START report. -/
def Hold.bytes (h : Hold) : List Byte :=
  byte h.cause.code :: timeBytes h.raisedAt ++ byte h.source :: le16 h.detail

/-- The START report. -/
def State.startReport (s : State) : ConsoleRecord :=
  ⟨0x84, byte s.start.holds.length :: s.start.holds.flatMap Hold.bytes ++ [s.start.failed.toByte]⟩

/-- The MAST report. -/
def State.mastReport (s : State) : ConsoleRecord :=
  ⟨0x85, [byte (masterCode s.wind.master), byte s.wind.bus.code, boolByte s.wind.stable,
    byte ((s.wind.pendingOp.map SensorOp.code).getD 0)]⟩

/-- A pending call in the JURY report. -/
def pendingCallBytes : Option PendingCall → List Byte
  | none => [0, 0, 0, 0, 0, 0, 0, 0]
  | some p => le16 p.attempt ++ [byte p.bib, boolByte p.forerunner] ++ timeBytes p.lapseAt

/-- The JURY report. -/
def State.juryReport (s : State) : ConsoleRecord :=
  ⟨0x86, [byte s.standings.round.number, byte s.standings.round.state.code,
    byte (orZero s.standings.round.refGate), byte s.standings.startList.length] ++
    pendingCallBytes s.standings.pendingCall⟩

/-- The BOARD report. -/
def State.boardReport (s : State) : ConsoleRecord :=
  ⟨0x87, (match s.board.current with
    | none => [0xFF, 0, 0]
    | some c => byte c.entry.page.code :: le16 c.entry.page.which) ++ [byte s.board.queue.length]⟩

/-- The reports of the roles that the station holds. -/
def State.roleReports (s : State) : List ConsoleRecord :=
  (if s.loader.roles.start then [s.startReport] else []) ++
  (if s.loader.roles.mast then [s.mastReport] else []) ++
  (if s.loader.roles.jury then [s.juryReport] else []) ++
  (if s.loader.roles.board then [s.boardReport] else [])

/-- The reports of a STATUS_QUERY: in LOADING the Station report alone. -/
def State.reports (s : State) : List ConsoleRecord :=
  if s.loader.state = .loading then [s.stationReport]
  else s.stationReport :: (List.range 16).map s.rosterReport ++ s.roleReports

end Sys2Proof.Machine
end

