-- ==== Sys2Proof/Machine/Console.lean ====
section
/-! DEFINITION. The console link: the commands that every station answers, what the receive assembler
drops, and the transmitter (R33, R184 to R187). -/

namespace Sys2Proof.Machine

open Sys2Proof

/-- Changes the console port's own state. -/
def State.modConsole (s : State) (f : ConsoleState → ConsoleState) : State :=
  { s with console := f s.console }

/-! ## Commands that every station answers -/

/-- STATUS_QUERY (R186): the reply goes out with the reports, and the two marks are cleared. -/
def execStatusQuery (s : State) : Result :=
  .next (s.command 0x01 true anyRole (fun s =>
    (s.modConsole (fun c => { c with overrun := false, commandLost := false })).reply
      { command := 0x01, code := .ok, reports := s.reports }))

/-- NOTICE_MASK (R186): a flag outside the six classes is answered RANGE. -/
def execNoticeMask (flags : Nat) (s : State) : Result :=
  .next (s.command 0x04 true anyRole (fun s =>
    match ClassSet.ofByte (byte flags) with
    | some m => (s.modConsole (fun c => { c with mask := m })).answer 0x04 .ok
    | none => s.answer 0x04 .range))

/-- CLEAR_FAULT (R33). -/
def execClearFault (s : State) : Result :=
  .next (s.command 0x03 true anyRole (fun s => { s with latch := {} }.answer 0x03 .ok))

/-! ## Records of unknown kind or wrong length (R185, R190) -/

/-- The command kinds with the least and the greatest length of their payloads (section 12.3). -/
def commandLengths : List (Nat × Nat × Nat) := [
  (0x01, 0, 0), (0x02, 0, 0), (0x03, 0, 0), (0x04, 1, 1), (0x10, 0, 0), (0x20, 1, 1), (0x21, 2, 10),
  (0x22, 0, 0), (0x30, 3, 3), (0x31, 1, 60), (0x32, 1, 1), (0x33, 2, 2), (0x34, 2, 2), (0x35, 3, 3),
  (0x36, 2, 2), (0x37, 0, 0), (0x38, 0, 0), (0x39, 4, 4), (0x3A, 4, 4), (0x3B, 4, 4), (0x3C, 2, 2),
  (0x3D, 3, 3), (0x3E, 0, 0), (0x3F, 0, 60)]

/-- The kind is a command of the manual, and the length is one that it has. -/
def knownCommand (kind length : Nat) : Bool :=
  commandLengths.any (fun (k, lo, hi) => k == kind && within lo hi length)

/-- The greatest length byte of a console record. -/
def recordLimit : Nat := 60

/-- UNKNOWN_COMMAND: a complete record of unknown kind or wrong length is answered RANGE. A record whose
length byte is above 60 is skipped without reply (R184). A record that is a command changes nothing here. -/
def execUnknownCommand (kind : Nat) (payload : List Byte) (s : State) : Result :=
  .next (if recordLimit < payload.length then
      if s.resetAsserted then s
      else s.modConsole (fun c => { c with gathered := [], skipping := true, rxQuietUs := 0 })
    else if knownCommand kind payload.length then s
    else s.command kind false anyRole id)

/-! ## The receive assembler (R184) -/

/-- The longest time between two characters of a record: 100 ticks. -/
def consoleGap : Nat := 100

/-- The assembler once console RX has been quiet for a number of microseconds (R184): after 10 ms it ignores
characters no longer, and past 10 ms what was gathered is dropped. -/
def ConsoleState.quietFor (c : ConsoleState) (us : Nat) : ConsoleState :=
  { c with
    gathered := if consoleGap * tickUs < us then [] else c.gathered
    skipping := c.skipping && decide (us < consoleGap * tickUs)
    rxQuietUs := us }

/-- CONSOLE_GAP_TIMEOUT: console RX has been quiet for a number of ticks. -/
def execConsoleGapTimeout (gapTicks : Nat) (s : State) : Result :=
  .next (if s.resetAsserted then s
    else if consoleGap ≤ gapTicks then s.modConsole (·.quietFor (gapTicks * tickUs))
    else s)

/-- CONSOLE_FRAMING_ERROR: a character's stop bit is sampled low, and the partial record is dropped. -/
def execConsoleFramingError (s : State) : Result :=
  .next (if s.resetAsserted then s else s.modConsole (fun c => { c with gathered := [], rxQuietUs := 0 }))

/-! ## The transmitter (R185, R187) -/

/-- The transmitter takes the next record: the rest of a unit, a reply with its reports, or a notice. -/
def ConsoleState.transmit (c : ConsoleState) : ConsoleState :=
  match c.unit with
  | r :: rest => { c with sending := some r, unit := rest }
  | [] =>
    match c.replies with
    | r :: rest => { c with sending := some r.record, unit := r.reports, replies := rest }
    | [] =>
      match c.notices with
      | n :: rest => { c with sending := some n.record, notices := rest }
      | [] => { c with sending := none }

/-- CONSOLE_TRANSMIT: the record in transmission ends, and the next one starts. -/
def execConsoleTransmit (s : State) : Result :=
  .next (if s.resetAsserted then s else s.modConsole (·.transmit))

end Sys2Proof.Machine
end

