-- ==== Sys2Proof/Machine/Clock.lean ====
section
/-! DEFINITION. Time: the microsecond that passes while no command waits, and the time-driven commands that
have fallen due (log entries 1 to 3). -/

namespace Sys2Proof.Machine

open Sys2Proof

/-- A command where a test holds. -/
def whenDue (due : Bool) (c : Instr) : List Instr := if due then [c] else []

/-! ## What has fallen due, block by block -/

/-- The echo of a frame whose last stop bit has gone out, every character having come back as it was sent (R13). With it
the transmission ends at its own time, so no TX_JABBER falls due: DESIGN CHOICE, log entry 58. -/
def State.dueEcho (s : State) : List Instr :=
  match s.line.tx with
  | none => []
  | some g => whenDue (s.line.sentWhole g) (frameCommand g.line.rx g.body)

/-- The hung-line guard and the end of the hung condition (R15). -/
def State.dueGuards (s : State) : List Instr :=
  whenDue (s.lineListens && !s.line.hung && decide (busyLimitUs < s.line.busyUs.getD 0))
    (.lineHung (s.line.busyUs.getD 0)) ++
  whenDue (s.line.hungEnds s.line.quietUs) (.lineHungEnd s.line.quietUs)

/-- Loader, line interface and roster. -/
def State.dueLine (s : State) : List Instr :=
  whenDue (expired s.clock s.loader.retryAt) .eepromRetryTimer ++ s.dueEcho ++ s.dueGuards ++
  whenDue (expired s.clock s.line.nextStatus) .statusOffer ++
  whenDue (expired s.clock s.line.nextCorridor) .corridorOffer ++
  ((List.range 16).filter (fun n => (s.rosterAt n).silentDue s.clock)).map .stationSilent ++
  whenDue (s.startsFrame s.line.quietUs).isSome (.transmissionStart s.line.quietUs)

/-- The green window shows a new whole second. -/
def State.countdownDue (s : State) : Bool :=
  s.start.phase == .green && decide (secondsLeft s.clock s.start.windowAt < s.start.shown)

/-- Start sequencer. -/
def State.dueStart (s : State) : List Instr :=
  whenDue (expired s.clock s.start.readyAt) .readyTimerExpiry ++
  whenDue (expired s.clock s.start.windowAt) .windowTimerExpiry ++
  whenDue (expired s.clock s.start.graceAt) .graceTimerExpiry ++
  whenDue (expired s.clock s.start.settleAt) .settleTimerExpiry ++
  ((s.start.corridor.filter (·.due s.clock)).map (fun e => .corridorEntryAged e.mast)) ++
  whenDue s.countdownDue .countdownTick ++
  whenDue (s.loader.roles.start && s.start.barrier.stuckDue s.clock) .leaveBarrierStuck ++
  whenDue (expired s.clock s.start.rejectUntil) .rejectLampEnd

/-- Edge timer and wind unit. -/
def State.dueEdge (s : State) : List Instr :=
  (([EdgeBarrier.a, .b, .t].filter (fun x => s.loader.roles.edge && (s.edge.barrier x).stuckDue s.clock)).map
    .edgeBarrierStuck) ++
  whenDue (expired s.clock s.wind.nextPoll) (.pollTime s.wind.dataLow)

/-- The view limit of an OPEN claim has been reached. -/
def State.viewDue (s : State) : Bool :=
  match s.span.flight with
  | none => false
  | some f => f.claim == .opened && reached s.clock f.viewLimitAt

/-- The head link has been silent too long. -/
def State.headDue (s : State) : Bool :=
  s.loader.roles.span && s.span.heard && decide (headLimit < since s.clock s.span.lastRecord)

/-- What a landing context has due. -/
def LandingContext.dueCommands (c : LandingContext) (now : Tick) : List Instr :=
  whenDue (c.inrunDue now) (.inrunTimerExpiry c.attempt) ++
  whenDue (c.flightDue now).isSome (.flightTimerExpiry c.attempt) ++
  (if c.phase = .flightWait then
    (c.claims.filter (·.due now)).map (fun k => .claimLimitReached c.attempt k.span)
   else []) ++
  whenDue (c.resolveDue now) (.resolutionTime c.attempt) ++
  whenDue (c.closingDue now) (.closingEnd c.attempt)

/-- Span unit and landing resolver. -/
def State.dueFlight (s : State) : List Instr :=
  whenDue s.headDue .headLinkSilent ++ whenDue s.viewDue .viewLimitExpiry ++
  s.contexts.flatMap (·.dueCommands s.clock)

/-- An OPEN gather of a record has reached its deadline. -/
def AttemptRecord.gatherDue (r : AttemptRecord) (now : Tick) : Bool :=
  match r.scoring with
  | none => false
  | some p => p.gather == .opened && expired now p.deadline

/-- Scoring unit, judge port and standings unit. -/
def State.dueScore (s : State) : List Instr :=
  (s.table.filter (·.gatherDue s.clock)).map (fun r => .gatherDeadline r.hdr.attempt) ++
  ([1, 2, 3, 4, 5].filter (fun c => s.seatRead c && (s.judge.seats.get c).toggleDue s.clock)).map
    .lampFlashToggle ++
  ([1, 2, 3, 4, 5].filter (fun c => s.seatRead c && (s.judge.seats.get c).endDue s.clock)).map
    .lampAnswerEnd ++
  whenDue s.lapsed.isSome .callLapsed

/-- A record waits for a console transmitter that sends none. -/
def ConsoleState.startDue (c : ConsoleState) : Bool :=
  c.sending.isNone && !(c.unit.isEmpty && c.replies.isEmpty && c.notices.isEmpty)

/-- Board unit and console transmitter. -/
def State.dueBoard (s : State) : List Instr :=
  whenDue s.pageDue .pageTimeEnd ++ whenDue s.secondsDue .liveSecondsTick ++
  whenDue (expired s.clock s.board.nextRow) .panelRowPeriod ++ whenDue s.console.startDue .consoleTransmit

/-- The time-driven commands that have fallen due, in the order in which they are taken. -/
def State.dueCommands (s : State) : List Instr :=
  if s.resetAsserted then []
  else s.dueLine ++ s.dueStart ++ s.dueEdge ++ s.dueFlight ++ s.dueScore ++ s.dueBoard

/-! ## A microsecond passes -/

/-- The line interface after a microsecond in which no other station drives the line (R1): while the station
transmits, the busy period grows; else the quiet time does, and at 20 µs the busy period ends. -/
def LineState.micro (l : LineState) : LineState :=
  if l.tx.isSome then { l with busyUs := l.busyUs.map (· + 1) }
  else ({ l with busyUs := l.busyUs.map (· + 1) }).quietFor (l.quietUs + 1)

/-- The free-running clocks after a microsecond: the station clock, the quiet times of the line and of console
RX, and the microsecond timer of an active edge timer (R1, R7, R82, R184). Under RESET nothing runs. -/
def State.micro (s : State) : State :=
  if s.resetAsserted then s
  else
    let s := if s.subTick + 1 < tickUs then { s with subTick := s.subTick + 1 }
      else { s with subTick := 0, clock := s.clock + 1 }
    let s := { s with line := s.line.micro, console := s.console.quietFor (s.console.rxQuietUs + 1) }
    s.ifRole (·.edge) (fun s => s.modEdge (fun e => { e with micros := e.micros + 1 }))

/-- What passes while no command waits: the commands that have fallen due join the queue, or, where there
are none, a microsecond passes. -/
def State.tick (s : State) : State :=
  match s.dueCommands with
  | [] => s.micro
  | cs => { s with pending := cs }

end Sys2Proof.Machine
end

