-- ==== Sys2Proof/Machine/Dispatch.lean ====
section
/-! DEFINITION. One arm for each command: the call of its meaning. -/

namespace Sys2Proof.Machine

open Sys2Proof

def exec (i : Instr) (s : State) : Host.Outcome State Fault Refusal :=
  match i with
  | .resetAssert => Sys2Proof.Machine.execResetAssert s
  | .resetRelease straps => Sys2Proof.Machine.execResetRelease straps s
  | .eepromReadEnd bytes broken => Sys2Proof.Machine.execEepromReadEnd bytes broken s
  | .eepromRetryTimer => Sys2Proof.Machine.execEepromRetryTimer s
  | .transmissionStart quietUs => Sys2Proof.Machine.execTransmissionStart quietUs s
  | .txEcho => Sys2Proof.Machine.execTxEcho s
  | .txJabber assertedUs => Sys2Proof.Machine.execTxJabber assertedUs s
  | .lineHung busyUs => Sys2Proof.Machine.execLineHung busyUs s
  | .lineHungEnd quietUs => Sys2Proof.Machine.execLineHungEnd quietUs s
  | .rxCharacterGap gapUs => Sys2Proof.Machine.execRxCharacterGap gapUs s
  | .invalidFrame bytes => Sys2Proof.Machine.execInvalidFrame bytes s
  | .statusFrame l p => Sys2Proof.Machine.execStatusFrame l p s
  | .corridorFrame l mast meanX meanY used flags => Sys2Proof.Machine.execCorridorFrame l mast meanX meanY used flags s
  | .eventFrame l number mode rounds => Sys2Proof.Machine.execEventFrame l number mode rounds s
  | .callFrame l h gate => Sys2Proof.Machine.execCallFrame l h gate s
  | .goFrame l h => Sys2Proof.Machine.execGoFrame l h s
  | .gateFrame l h gate ack => Sys2Proof.Machine.execGateFrame l h gate ack s
  | .holdFrame l set => Sys2Proof.Machine.execHoldFrame l set s
  | .roundFrame l round state refGate => Sys2Proof.Machine.execRoundFrame l round state refGate s
  | .textFrame l chars => Sys2Proof.Machine.execTextFrame l chars s
  | .phaseFrame l h phase gate seconds greenCount => Sys2Proof.Machine.execPhaseFrame l h phase gate seconds greenCount s
  | .coachFrame l h juryGate requested withdrawn => Sys2Proof.Machine.execCoachFrame l h juryGate requested withdrawn s
  | .leaveFrame l h leftOnHold => Sys2Proof.Machine.execLeaveFrame l h leftOnHold s
  | .voidFrame l h reason => Sys2Proof.Machine.execVoidFrame l h reason s
  | .speedFrame l h speed => Sys2Proof.Machine.execSpeedFrame l h speed s
  | .takeoffFrame l h noSpeed => Sys2Proof.Machine.execTakeoffFrame l h noSpeed s
  | .inViewFrame l h span => Sys2Proof.Machine.execInViewFrame l h span s
  | .viewLostFrame l h span reason => Sys2Proof.Machine.execViewLostFrame l h span reason s
  | .contactFrame l h span track position => Sys2Proof.Machine.execContactFrame l h span track position s
  | .landingFrame l h distance quality noTakeoff lateContact => Sys2Proof.Machine.execLandingFrame l h distance quality noTakeoff lateContact s
  | .mastmeanFrame l h mast mean used partialMean => Sys2Proof.Machine.execMastmeanFrame l h mast mean used partialMean s
  | .resultFrame l r => Sys2Proof.Machine.execResultFrame l r s
  | .statusOffer => Sys2Proof.Machine.execStatusOffer s
  | .corridorOffer => Sys2Proof.Machine.execCorridorOffer s
  | .stationSilent station => Sys2Proof.Machine.execStationSilent station s
  | .readyTimerExpiry => Sys2Proof.Machine.execReadyTimerExpiry s
  | .windowTimerExpiry => Sys2Proof.Machine.execWindowTimerExpiry s
  | .graceTimerExpiry => Sys2Proof.Machine.execGraceTimerExpiry s
  | .settleTimerExpiry => Sys2Proof.Machine.execSettleTimerExpiry s
  | .corridorEntryAged mast => Sys2Proof.Machine.execCorridorEntryAged mast s
  | .countdownTick => Sys2Proof.Machine.execCountdownTick s
  | .leaveBreak => Sys2Proof.Machine.execLeaveBreak s
  | .leaveBarrierClear => Sys2Proof.Machine.execLeaveBarrierClear s
  | .leaveBarrierStuck => Sys2Proof.Machine.execLeaveBarrierStuck s
  | .trackHold => Sys2Proof.Machine.execTrackHold s
  | .trackRelease => Sys2Proof.Machine.execTrackRelease s
  | .coachRequestPress selector => Sys2Proof.Machine.execCoachRequestPress selector s
  | .rejectLampEnd => Sys2Proof.Machine.execRejectLampEnd s
  | .lampFail lamp => Sys2Proof.Machine.execLampFail lamp s
  | .lampCheck faulty => Sys2Proof.Machine.execLampCheck faulty s
  | .barrierABreak => Sys2Proof.Machine.execBarrierABreak s
  | .barrierBBreak => Sys2Proof.Machine.execBarrierBBreak s
  | .barrierTBreak => Sys2Proof.Machine.execBarrierTBreak s
  | .edgeBarrierClear barrier => Sys2Proof.Machine.execEdgeBarrierClear barrier s
  | .edgeBarrierStuck barrier => Sys2Proof.Machine.execEdgeBarrierStuck barrier s
  | .pollTime dataLow => Sys2Proof.Machine.execPollTime dataLow s
  | .pollComplete result => Sys2Proof.Machine.execPollComplete result s
  | .clockStretchTimeout read => Sys2Proof.Machine.execClockStretchTimeout read s
  | .releaseBurstEnd dataHigh => Sys2Proof.Machine.execReleaseBurstEnd dataHigh s
  | .sensorMode mode => Sys2Proof.Machine.execSensorMode mode s
  | .sensorTransfer address readCount write dataLow => Sys2Proof.Machine.execSensorTransfer address readCount write dataLow s
  | .sensorTransferEnd outcome read => Sys2Proof.Machine.execSensorTransferEnd outcome read s
  | .sensorRelease => Sys2Proof.Machine.execSensorRelease s
  | .heartbeat stamp => Sys2Proof.Machine.execHeartbeat stamp s
  | .presence on stamp => Sys2Proof.Machine.execPresence on stamp s
  | .headContact track offset stamp => Sys2Proof.Machine.execHeadContact track offset stamp s
  | .headRecordDiscard chars => Sys2Proof.Machine.execHeadRecordDiscard chars s
  | .headLinkSilent => Sys2Proof.Machine.execHeadLinkSilent s
  | .viewLimitExpiry => Sys2Proof.Machine.execViewLimitExpiry s
  | .inrunTimerExpiry attempt => Sys2Proof.Machine.execInrunTimerExpiry attempt s
  | .flightTimerExpiry attempt => Sys2Proof.Machine.execFlightTimerExpiry attempt s
  | .claimLimitReached attempt span => Sys2Proof.Machine.execClaimLimitReached attempt span s
  | .resolutionTime attempt => Sys2Proof.Machine.execResolutionTime attempt s
  | .closingEnd attempt => Sys2Proof.Machine.execClosingEnd attempt s
  | .manualDistance attempt distance => Sys2Proof.Machine.execManualDistance attempt distance s
  | .gatherDeadline attempt => Sys2Proof.Machine.execGatherDeadline attempt s
  | .keypadRecord channel seat mark check => Sys2Proof.Machine.execKeypadRecord channel seat mark check s
  | .keypadGapTimeout channel why => Sys2Proof.Machine.execKeypadGapTimeout channel why s
  | .lampFlashToggle channel => Sys2Proof.Machine.execLampFlashToggle channel s
  | .lampAnswerEnd channel => Sys2Proof.Machine.execLampAnswerEnd channel s
  | .forceScore attempt => Sys2Proof.Machine.execForceScore attempt s
  | .correctDistance attempt distance => Sys2Proof.Machine.execCorrectDistance attempt distance s
  | .correctMark attempt seat mark => Sys2Proof.Machine.execCorrectMark attempt seat mark s
  | .void attempt reason => Sys2Proof.Machine.execVoid attempt reason s
  | .newEvent number mode rounds => Sys2Proof.Machine.execNewEvent number mode rounds s
  | .startList bibs => Sys2Proof.Machine.execStartList bibs s
  | .dns bib => Sys2Proof.Machine.execDns bib s
  | .call gate forerunner => Sys2Proof.Machine.execCall gate forerunner s
  | .callLapsed => Sys2Proof.Machine.execCallLapsed s
  | .go attempt => Sys2Proof.Machine.execGo attempt s
  | .setGate attempt gate => Sys2Proof.Machine.execSetGate attempt gate s
  | .coachAck attempt => Sys2Proof.Machine.execCoachAck attempt s
  | .hold => Sys2Proof.Machine.execHold s
  | .release => Sys2Proof.Machine.execRelease s
  | .closeRound => Sys2Proof.Machine.execCloseRound s
  | .text chars => Sys2Proof.Machine.execText chars s
  | .pageTimeEnd => Sys2Proof.Machine.execPageTimeEnd s
  | .liveSecondsTick => Sys2Proof.Machine.execLiveSecondsTick s
  | .panelRowPeriod => Sys2Proof.Machine.execPanelRowPeriod s
  | .statusQuery => Sys2Proof.Machine.execStatusQuery s
  | .restart => Sys2Proof.Machine.execRestart s
  | .noticeMask flags => Sys2Proof.Machine.execNoticeMask flags s
  | .clearFault => Sys2Proof.Machine.execClearFault s
  | .unknownCommand kind payload => Sys2Proof.Machine.execUnknownCommand kind payload s
  | .consoleGapTimeout gapTicks => Sys2Proof.Machine.execConsoleGapTimeout gapTicks s
  | .consoleTransmit => Sys2Proof.Machine.execConsoleTransmit s
  | .rxFramingError => Sys2Proof.Machine.execRxFramingError s
  | .consoleFramingError => Sys2Proof.Machine.execConsoleFramingError s

end Sys2Proof.Machine
end

