-- ==== Sys2Proof/WellFormed.lean ====
section
/-! DEFINITION. Well-formed commands: every operand holds a value that the pin, the frame field or the
console record field can carry. -/

namespace Sys2Proof

open Sys2Proof.Machine

/-- A number fits one byte of a console record. -/
def byteWide (n : Nat) : Bool := n < 256

/-- A number fits two bytes of a console record. -/
def twoBytesWide (n : Nat) : Bool := n < 65536

/-- An attempt number (section 12.1). -/
def attemptWide (n : Nat) : Bool := within 1 65535 n

/-- What a frame command carries holds values that chapter 12 gives. -/
def frameWide (l : RxHdr) (b : Body) : Bool := l.inRange && b.inRange

/-- How far a transaction got lies within the transaction's length. -/
def cutWithin (length : Nat) (o : TransferOutcome) : Bool := o.sentCount.all (· ≤ length)

/-- A command is well formed. A poll has 12 conditions and bytes, and the longest console transfer 45. -/
def Instr.wf : Instr → Bool
  | .resetAssert => true
  | .resetRelease _ => true
  | .eepromReadEnd bytes _ => bytes.length ≤ 1024
  | .eepromRetryTimer => true
  | .transmissionStart _ => true
  | .txEcho => true
  | .txJabber _ => true
  | .lineHung _ => true
  | .lineHungEnd _ => true
  | .rxCharacterGap _ => true
  | .invalidFrame bytes => (decodeFrame bytes).isNone
  | .statusFrame l p => frameWide l (.status p)
  | .corridorFrame l m x y u f => frameWide l (.corridor m x y u f)
  | .eventFrame l n m r => frameWide l (.event n m r)
  | .callFrame l h g => frameWide l (.call h g)
  | .goFrame l h => frameWide l (.go h)
  | .gateFrame l h g a => frameWide l (.gate h g a)
  | .holdFrame l b => frameWide l (.hold b)
  | .roundFrame l r m g => frameWide l (.round r m g)
  | .textFrame l cs => frameWide l (.text cs)
  | .phaseFrame l h p g sec n => frameWide l (.phase h p g sec n)
  | .coachFrame l h g q w => frameWide l (.coach h g q w)
  | .leaveFrame l h b => frameWide l (.leave h b)
  | .voidFrame l h r => frameWide l (.void h r)
  | .speedFrame l h v => frameWide l (.speed h v)
  | .takeoffFrame l h n => frameWide l (.takeoff h n)
  | .inViewFrame l h sp => frameWide l (.inView h sp)
  | .viewLostFrame l h sp r => frameWide l (.viewLost h sp r)
  | .contactFrame l h sp t pos => frameWide l (.contact h sp t pos)
  | .landingFrame l h d q n c => frameWide l (.landing h d q n c)
  | .mastmeanFrame l h m mean u p => frameWide l (.mastMean h m mean u p)
  | .resultFrame l r => frameWide l (.result r)
  | .statusOffer => true
  | .corridorOffer => true
  | .stationSilent n => n ≤ 15
  | .readyTimerExpiry => true
  | .windowTimerExpiry => true
  | .graceTimerExpiry => true
  | .settleTimerExpiry => true
  | .corridorEntryAged m => within 1 8 m
  | .countdownTick => true
  | .leaveBreak => true
  | .leaveBarrierClear => true
  | .leaveBarrierStuck => true
  | .trackHold => true
  | .trackRelease => true
  | .coachRequestPress _ => true
  | .rejectLampEnd => true
  | .lampFail _ => true
  | .lampCheck _ => true
  | .barrierABreak => true
  | .barrierBBreak => true
  | .barrierTBreak => true
  | .edgeBarrierClear _ => true
  | .edgeBarrierStuck _ => true
  | .pollTime _ => true
  | .pollComplete r => cutWithin 12 r.outcome
  | .clockStretchTimeout read => read.length ≤ 32
  | .releaseBurstEnd _ => true
  | .sensorMode m => byteWide m
  | .sensorTransfer a n w _ => byteWide a && byteWide n && w.length ≤ 8
  | .sensorTransferEnd o read => cutWithin 45 o && read.length ≤ 32
  | .sensorRelease => true
  | .heartbeat _ => true
  | .presence _ _ => true
  | .headContact _ offset _ => offset ≤ 30000
  | .headRecordDiscard why =>
    match why with
    | .chars cs => (readHeadRecord cs).isNone
    | _ => true
  | .headLinkSilent => true
  | .viewLimitExpiry => true
  | .inrunTimerExpiry n => attemptWide n
  | .flightTimerExpiry n => attemptWide n
  | .claimLimitReached n sp => attemptWide n && within 1 8 sp
  | .resolutionTime n => attemptWide n
  | .closingEnd n => attemptWide n
  | .manualDistance n d => twoBytesWide n && twoBytesWide d
  | .gatherDeadline n => attemptWide n
  | .keypadRecord c _ _ _ => within 1 5 c
  | .keypadGapTimeout c _ => within 1 5 c
  | .lampFlashToggle c => within 1 5 c
  | .lampAnswerEnd c => within 1 5 c
  | .forceScore n => twoBytesWide n
  | .correctDistance n d => twoBytesWide n && twoBytesWide d
  | .correctMark n seat mark => twoBytesWide n && byteWide seat && byteWide mark
  | .void n r => twoBytesWide n && byteWide r
  | .newEvent n m r => byteWide n && byteWide m && byteWide r
  | .startList bibs => within 1 60 bibs.length && bibs.all byteWide
  | .dns b => byteWide b
  | .call g f => byteWide g && byteWide f
  | .callLapsed => true
  | .go n => twoBytesWide n
  | .setGate n g => twoBytesWide n && byteWide g
  | .coachAck n => twoBytesWide n
  | .hold => true
  | .release => true
  | .closeRound => true
  | .text cs => cs.length ≤ 60
  | .pageTimeEnd => true
  | .liveSecondsTick => true
  | .panelRowPeriod => true
  | .statusQuery => true
  | .restart => true
  | .noticeMask f => byteWide f
  | .clearFault => true
  | .unknownCommand k p => byteWide k && p.length ≤ 255
  | .consoleGapTimeout _ => true
  | .consoleTransmit => true
  | .rxFramingError => true
  | .consoleFramingError => true

end Sys2Proof
end

