-- ==== Sys2Proof/Safety.lean ====
section
/-! DEFINITION. What counts as a sound state of the FK-318, in the terms that the statements use: the bounds
and the orders that the manual gives its queues, tables and lists, and the station states in which a
command is taken. -/

namespace Sys2Proof.Machine

open Sys2Proof

/-! ## Invariants -/

/-- The transmit queues hold at most eight frames each, and at most one STATUS and one CORRIDOR wait
(section 1.4, R10). -/
def State.QueuesSound (s : State) : Prop :=
  s.line.urgent.length ≤ 8 ∧ s.line.routine.length ≤ 8 ∧
    (s.line.routine.filter (fun f => f.body.kind == 0x01)).length ≤ 1 ∧
    (s.line.routine.filter (fun f => f.body.kind == 0x02)).length ≤ 1

/-- A MUTED station has nothing to send (R4). -/
def State.MutedQuiet (s : State) : Prop :=
  s.loader.state.isMuted = true → s.line.urgent = [] ∧ s.line.routine = []

/-- The attempt table holds at most eight records, at most one for an attempt, and at most one in a flight
state (R35, R43). -/
def State.TableSound (s : State) : Prop :=
  s.table.length ≤ 8 ∧ (s.table.map (·.hdr.attempt)).Nodup ∧
    (s.table.filter (·.state.flight)).length ≤ 1

/-- No cause stands twice in the hold list, and the start is open only while none stands (R59, R62,
R64). -/
def State.HoldsSound (s : State) : Prop :=
  (s.start.holds.map (·.cause)).Nodup ∧
    (s.start.phase = .amber ∨ s.start.phase = .green → s.start.holds = [])

/-- There is a current attempt exactly outside IDLE (section 4.1). -/
def State.CycleSound (s : State) : Prop := s.start.phase = .idle ↔ s.start.current = none

/-- At most 8 replies and 32 notices wait (R185, R187). -/
def State.ConsoleSound (s : State) : Prop := s.console.replies.length ≤ 8 ∧ s.console.notices.length ≤ 32

/-- The roster has one entry for each station number 0 to 15 (section 2.5). -/
def State.RosterSound (s : State) : Prop := s.roster.length = 16

/-- The ring holds at most 160 samples, and no count of the wind unit passes 10 (R94, R101, R103). -/
def State.WindSound (s : State) : Prop :=
  s.wind.ring.length ≤ 160 ∧ s.wind.heldCount ≤ 10 ∧ s.wind.goodCount ≤ 10 ∧ s.wind.noAnswer ≤ 10

/-- The start list holds at most 80 bibs, none twice; the results list at most 80 entries in the order of
R168, none for a bib listed before (section 9.1, R166, R168). -/
def State.StandingsSound (s : State) : Prop :=
  s.standings.startList.length ≤ 80 ∧ s.standings.startList.Nodup ∧ s.standings.results.length ≤ 80 ∧
    (s.standings.results.map (·.bib)).Nodup ∧
    s.standings.results.Pairwise (fun a b => a.precedes b = true)

/-- The pages that exist, current or waiting. -/
def State.pages (s : State) : List Page :=
  s.board.current.toList.map (·.entry.page) ++ s.board.queue.map (·.page)

/-- At most sixteen pages wait, at most one LIVE page and one HOLD page exist, and no HOLD page while the
known hold set is empty; the standings that the rotation shows hold at most 80 entries (sections 10.2 and
10.3, R166). -/
def State.BoardSound (s : State) : Prop :=
  s.standings.results.length ≤ 80 ∧ s.board.queue.length ≤ 16 ∧ (s.pages.filter (·.isLive)).length ≤ 1 ∧
    (s.pages.filter (·.isHold)).length ≤ 1 ∧
    (s.board.knownHolds.isEmpty = true → (s.pages.filter (·.isHold)).length = 0)

/-- What the board unit makes of a change of the round record or the results list that the standings unit hands
it: a current STANDINGS page is composed again; any other page, and a station that is no board, stay as they
are (R154, R178). -/
def State.BoardFollows (s t : State) : Prop :=
  (∀ c i, s.loader.roles.board = true → s.board.current = some c → c.entry.page = .standings i →
    t.board = { s.board with back := t.composeStandings i, ready := true, shownSeconds := none }) ∧
  (s.loader.roles.board = false ∨
    (∀ c, s.board.current = some c → ∀ i, c.entry.page ≠ .standings i) → t.board = s.board)

/-! ## Station states in which a command is taken -/

/-- The station hears a frame of another station: RESET is released, the load has ended, it does not
transmit, its assembler takes characters, and the frame passes the checks of R3. -/
structure State.Hears (s : State) (l : LineHdr) (b : Body) : Prop where
  released : s.resetAsserted = false
  loaded : s.loader.state ≠ .loading
  silent : s.line.tx = none
  taking : s.line.rx.skipping = false
  line : l.inRange = true
  body : b.inRange = true
  other : l.sender ≠ s.loader.station
  /-- The stamp is the station clock at the frame's first start edge (R2). -/
  stamped : l.stamp = s.startStamp b

/-- The station is in RUN, or MUTED from RUN, and the frame passes the event-number filter (R5). -/
structure State.Takes (s : State) (l : LineHdr) (b : Body) : Prop extends s.Hears l b where
  active : s.loader.state = .run ∨ s.loader.state = .muted true
  filter : s.passesFilter l b = true

/-- The station reads back whole the frame `b` that it has in transmission, with a field of none out of its range,
in RUN or MUTED from RUN and in the current event (R5, R13). -/
structure State.Echoes (s : State) (l : LineHdr) (b : Body) : Prop where
  released : s.resetAsserted = false
  active : s.loader.state = .run ∨ s.loader.state = .muted true
  sending : s.line.tx = some ⟨l, b⟩
  own : l.sender = s.loader.station
  line : l.inRange = true
  body : b.inRange = true
  filter : s.passesFilter l b = true

/-- A frame is delivered in the current event: one of another station, or the station's own at its echo (R5, R13). -/
def State.Delivers (s : State) (l : LineHdr) (b : Body) : Prop := s.Takes l b ∨ s.Echoes l b

/-- The manual distance that the jury's resolver hands over with its own LANDING: that of a context in SENT, to a
part that still waits (R128). -/
def State.manualGiven (s : State) (l : LineHdr) (n : Nat) (p : ScoringPart) : Option Nat :=
  if l.sender = s.loader.station ∧ p.stage = .waiting then
    match s.context? n with
    | some c => if c.phase = .sent then c.manual else none
    | none => none
  else none

/-- The copies that the blocks keep of frames not yet delivered, in the order in which the echo of the station's own
STATUS offers them again (R69, R89, R109, R120, R128, R147, R149, R161, R165). A kept PHASE GREEN goes out with
the countdown's value now (R69). -/
def State.keptCopies (s : State) : List KeptFrame :=
  (if s.loader.roles.start then
    s.start.keptLeave.toList ++
    s.start.keptPhase.toList.map (fun k => match k.body with
      | .phase h .green g _ n => ⟨.phase h .green g s.start.shown n, k.eventTime⟩
      | _ => k) ++
    s.start.keptVoid.toList else []) ++
  (if s.loader.roles.edge then s.edge.keptSpeed.toList ++ s.edge.keptTakeoff.toList else []) ++
  (if s.loader.roles.mast then (s.wind.means.filterMap (·.copy)).map (⟨·, none⟩) else []) ++
  (if s.loader.roles.span then s.span.kept else []) ++
  (if s.loader.roles.jury then
    s.contexts.filterMap (·.copy) ++
    ((s.table.filterMap (·.scoring)).filterMap (·.copy)).map (⟨.result ·, none⟩) ++
    s.scoring.voidCopies.map (fun v => ⟨.void v.hdr v.reason, none⟩) ++
    (s.standings.eventCopy.toList ++ s.standings.roundCopies).map (⟨·, none⟩) else [])

/-- The scoring test of R138 passes for a part in WAITING whose gather is DONE: its distance is KNOWN, the marks that
the attempt needs are held, and no VOID copy is kept for it. -/
def State.Publishes (s : State) (r : AttemptRecord) (p : ScoringPart) : Prop :=
  p.distance ≠ none ∧
  (r.hdr.bib = 0 ∨ s.scoring.mode = some .training ∨ p.marks.held.length = 5 ∨
    p.force = true ∧ 3 ≤ p.marks.held.length) ∧
  ∀ v ∈ s.scoring.voidCopies, v.hdr.attempt ≠ r.hdr.attempt

/-- A complete console record is taken: RESET is released, the load has ended, the assembler takes
characters, and fewer than eight replies wait (R184, R185). -/
structure State.TakesRecord (s : State) : Prop where
  released : s.resetAsserted = false
  loaded : s.loader.state ≠ .loading
  taking : s.console.skipping = false
  room : s.console.replies.length < 8

/-- The station takes a command of the JURY role in an event (R154). -/
structure State.JuryTakes (s : State) : Prop extends s.TakesRecord where
  jury : s.loader.roles.jury = true
  event : s.line.eventNumber ≠ 0

/-- What carrying out a waiting sensor command brings on a bus that a poll or an automatic burst has left FREE or HUNG
(R97 to R99): from `u`, which holds the command no more, to `t`. -/
def State.CarriesOut (u t : State) (op : SensorOp) : Prop :=
  { t with wind := u.wind, latch := u.latch, console := u.console } = u ∧
  match op with
  | .mode m =>
    t.wind = (if u.wind.master = m then u.wind else { u.wind with
      master := m, goodCount := 0, heldCount := 0, noAnswer := 0, lastGood := none, lastSequence := none
      stable := false }) ∧
    t.console.replies = u.console.replies ++ [{ command := 0x20, code := .ok }]
  | .transfer address n write =>
    (u.wind.master = .auto ∨ u.wind.bus = .hung → t.wind = u.wind ∧
      t.console.replies = u.console.replies ++ [{ command := 0x21, code := .state }]) ∧
    (u.wind.master = .console → u.wind.bus = .free →
      (u.wind.dataLow = false → t.wind = { u.wind with
          fifo := [], bus := .busyTransfer, pendingOp := some (.transfer address n write)
          sends := transactionSends address n write } ∧
        t.console.replies = u.console.replies) ∧
      (u.wind.dataLow = true → t.wind = { u.wind with
          fifo := [], bus := .releasing false false, sends := burstSends } ∧
        t.latch = u.latch.take .sensorHung u.clock address ∧
        t.console.replies = u.console.replies ++ [{ command := 0x21, code := .ok, extra := [3, 0] }]))
  | .release =>
    t.wind = { u.wind with
      bus := .releasing true (decide (u.wind.bus = .hung)), pendingOp := some .release, sends := burstSends } ∧
    t.console.replies = u.console.replies

/-- The state after a console record whose only effect on the console port is one reply at the tail. -/
def State.afterReply (s : State) (r : Reply) : State :=
  { s with console := { s.console with
      gathered := [], skipping := false, rxQuietUs := 0, replies := s.console.replies ++ [r] } }

/-- The state after a console record that is answered with a code alone. -/
def State.afterAnswer (s : State) (kind : Nat) (code : ReplyCode) : State :=
  s.afterReply { command := kind, code := code }

/-! ## What the rules make of the hold list, of a cycle's end and of a round's close -/

/-- The raise time of an entry of the hold list, seen from the state before (R59): a cause that stood keeps it, and any
other takes the station clock. -/
def State.RaisedAsBefore (s : State) (x : Hold) : Prop :=
  if s.start.standing x.cause = true then ∃ y ∈ s.start.holds, y.cause = x.cause ∧ y.raisedAt = x.raisedAt
  else x.raisedAt = s.clock

/-- The hold list once the backlog count has come to `n` (R59, R72): where the count has changed, BACKLOG goes, takes
the new count, or is raised. -/
def State.holdsAtBacklog (s : State) (n : Nat) : List Hold :=
  if n = s.start.backlog then s.start.holds
  else if s.loader.consts.cycle.backlogLimit = 0 ∨ n < s.loader.consts.cycle.backlogLimit then
    s.start.holds.filter (fun x => x.cause ≠ .backlog)
  else if s.start.standing .backlog = true then replaceHold .backlog s.loader.station n s.start.holds
  else appendHold ⟨.backlog, s.clock, s.loader.station, n⟩ s.start.holds

/-- BACKLOG stands exactly while the limit is greater than 0 and the count has come to it, with the station's own number
as its source and the count as its detail (R72). -/
def State.BacklogSound (s : State) : Prop :=
  (s.start.standing .backlog = true ↔
    0 < s.loader.consts.cycle.backlogLimit ∧ s.loader.consts.cycle.backlogLimit ≤ s.start.backlog) ∧
  ∀ x ∈ s.start.holds, x.cause = .backlog → x.source = s.loader.station ∧ x.detail = s.start.backlog

/-- From `s` to `t` STATION and CONFIG have been evaluated (R59, R71): each stands while its condition holds of the
roster of `t`, with the lowest-numbered station of the condition as its source. -/
def State.RosterHoldsFollow (s t : State) : Prop :=
  ∀ (notReady other : List Nat),
    notReady = t.loader.consts.required.filter (fun n => !t.ready n) →
    other = (List.range 16).filter (fun n => (t.rosterAt n).presence = .present ∧
      (t.rosterAt n).status.map (·.payload.digest) ≠ some t.loader.digest) →
    (t.start.standing .station = true ↔ notReady ≠ []) ∧ (t.start.standing .config = true ↔ other ≠ []) ∧
    ∀ x ∈ t.start.holds,
      (x.cause = .station → x.source ∈ notReady ∧ (∀ n ∈ notReady, x.source ≤ n) ∧ x.detail = notReady.length ∧
        s.RaisedAsBefore x) ∧
      (x.cause = .config → other.head? = some x.source ∧ s.RaisedAsBefore x ∧
        x.detail = ((t.rosterAt x.source).status.map (·.payload.digest.toNat)).getD 0)

/-- From `s` to `t` the WIND condition has been evaluated on the corridor table of `t` (R59, R73, R74): WIND stands with
its settle timer stopped while a counted, fresh entry is out of band or too few counted entries are fresh; where the
condition is false, a standing WIND settles, or goes at once with a settle time of 0. Source and detail are those of
the latest such entry out of band, else the own number and 0 (log entry 63). -/
def State.WindFollows (s t : State) : Prop :=
  ∀ (fresh out : List CorridorEntry),
    fresh = t.start.corridor.filter (fun e => s.counted e && e.fresh s.clock) →
    out = fresh.filter (fun e => !e.inBand s.loader.consts.corridor) →
    (out ≠ [] ∨ fresh.length < s.loader.consts.corridor.minMasts →
      t.start.standing .wind = true ∧ t.start.settleAt = none ∧
      (s.HoldsSound → t.start.phase ≠ .amber ∧ t.start.phase ≠ .green) ∧
      ∀ x ∈ t.start.holds, x.cause = .wind → s.RaisedAsBefore x ∧
        (out = [] → x.source = s.loader.station ∧ x.detail = 0) ∧
        (out ≠ [] → ∃ e ∈ out, (∀ f ∈ out, since s.clock e.arrival ≤ since s.clock f.arrival) ∧
          x.source = e.sender ∧ x.detail = e.mast)) ∧
    (out = [] → s.loader.consts.corridor.minMasts ≤ fresh.length →
      (s.start.standing .wind = false ∨ s.loader.consts.corridor.settleS = 0 →
        t.start.standing .wind = false ∧ t.start.settleAt = s.start.settleAt) ∧
      (s.start.standing .wind = true → s.loader.consts.corridor.settleS ≠ 0 →
        t.start.holds.filter (fun x => x.cause = .wind) = s.start.holds.filter (fun x => x.cause = .wind) ∧
        t.start.settleAt =
          some (s.start.settleAt.getD (s.clock + secondsT s.loader.consts.corridor.settleS))))

/-- The sequencer after the end of a cycle, with its hold list and its copy of an own VOID as they were (R68, R69). -/
def StartState.atIdle (st : StartState) : StartState :=
  { st with
    phase := .idle, current := none, goMark := false, readyAt := none, windowAt := none, graceAt := none
    coach := .none, requested := none, keptPhase := none, keptLeave := none, shown := 0 }

/-- From `s` to `t` a cycle has ended (R68, R69), `kept` being the copy of an own VOID that remains: the hold list changes
by COACH, and where the frame that ended the cycle moved the backlog count by BACKLOG; where it brought its sender
back, by STATION and CONFIG too. -/
def State.CycleEnds (s t : State) (sender : Nat) (kept : Option KeptFrame) : Prop :=
  t.start = { s.start.atIdle with keptVoid := kept, backlog := t.start.backlog, holds := t.start.holds } ∧
  t.start.standing .coach = false ∧
  ((s.rosterAt sender).presence = .present →
    t.start.holds = (s.holdsAtBacklog t.start.backlog).filter (fun x => x.cause ≠ .coach))

/-- From `s` to `t` the CLOSING round closes, with a number of bibs discarded (R163, R164): ROUND CLOSED is kept, and
waits in the routine queue unless that is full; short of the planned rounds the next round opens with its start list from
the results list as it stands; the notices are raised. -/
def State.RoundCloses (s t : State) (discarded : Nat) : Prop :=
  ∀ (n planned : Nat) (closed : Body), n = s.standings.round.number →
    planned = s.standings.roundsPlanned.getD 0 → closed = .round n .closed (orZero s.standings.round.refGate) →
    (planned ≤ n → t.standings.round = { s.standings.round with state := .closed } ∧
      t.standings.startList = [] ∧ t.standings.roundCopies = s.standings.roundCopies ++ [closed]) ∧
    (n < planned → t.standings.round = { number := n + 1, state := .opened, refGate := none } ∧
      t.standings.startList = nextStartList t.standings.results n s.loader.consts.qualifiers ∧
      t.standings.roundCopies = s.standings.roundCopies ++ [closed, .round (n + 1) .opened 0]) ∧
    (s.loader.state.isMuted = false → 8 ≤ t.line.routine.length ∨
      (⟨closed, s.line.eventNumber, none⟩ : QueuedFrame) ∈ t.line.routine) ∧
    (s.loader.state ≠ .loading → s.console.mask.cycle = true → t.console.overrun = true ∨
      (⟨s.clock, .roundClosed n discarded⟩ : Notice) ∈ t.console.notices ∧
      (n < planned →
        (⟨s.clock, .roundOpen (n + 1) t.standings.startList.length⟩ : Notice) ∈ t.console.notices))

/-! ## The console commands, as R185 sees them -/

/-- The kind of the console record that a command reports (section 12.3); none for any other command, and
for UNKNOWN_COMMAND, whose record has no kind of the manual. -/
def consoleKind : Instr → Option Nat
  | .statusQuery => some 0x01
  | .restart => some 0x02
  | .clearFault => some 0x03
  | .noticeMask _ => some 0x04
  | .lampCheck _ => some 0x10
  | .sensorMode _ => some 0x20
  | .sensorTransfer .. => some 0x21
  | .sensorRelease => some 0x22
  | .newEvent .. => some 0x30
  | .startList _ => some 0x31
  | .dns _ => some 0x32
  | .call .. => some 0x33
  | .go _ => some 0x34
  | .setGate .. => some 0x35
  | .coachAck _ => some 0x36
  | .hold => some 0x37
  | .release => some 0x38
  | .manualDistance .. => some 0x39
  | .correctDistance .. => some 0x3A
  | .correctMark .. => some 0x3B
  | .forceScore _ => some 0x3C
  | .void .. => some 0x3D
  | .closeRound => some 0x3E
  | .text _ => some 0x3F
  | _ => none

/-- The role to which a console command kind belongs (section 12.3). -/
def consoleRole (kind : Nat) (r : RoleSet) : Bool :=
  if kind < 0x10 then true
  else if kind < 0x20 then r.start
  else if kind < 0x30 then r.mast
  else r.jury

/-- The kinds of the jury station that R154 answers EVENT while the event number is 0: all but
NEW_EVENT. -/
def needsEvent (kind : Nat) : Bool := 0x30 < kind

end Sys2Proof.Machine
end

