-- ==== Sys2Proof/Certificates/Slice0/Obligations.lean ====
section
/-! DEFINITION. The statements of this model, for its provers: what the commands of the FK-318 do, block by
block, and the invariants that every step keeps. -/

open Sys2Proof Sys2Proof.Machine

/-! ## The step, time, and the frame of every command -/

/-- With a command waiting, a step is that command on the state with the rest of the queue. -/
def Obligations.StepRunsTheFrontCommand : Prop :=
  ∀ (c : Instr) (rest : List Instr) (s : State), s.pending = c :: rest →
    step s = exec c { s with pending := rest }

/-- A command takes no time: every command of the table answers a next state, and leaves the queue, the station
clock and the reset pin as they are, RESET_ASSERT and RESET_RELEASE apart, which leave the queue. The model's
choice: log entries 1 and 2. On an empty queue a step lets time pass: what has fallen due joins the queue, in the
one order of `dueCommands` (the model's choice: log entry 3); where nothing has, a microsecond passes, a hundredth
of them being a tick of the station clock (R7), and the microsecond timer of an EDGE station counts it (R82). It is
one in which no other station drives the line and console RX is quiet (the model's choice: log entry 30): while the
station transmits, its busy period grows; else the quiet time of the line does, at 20 µs the busy period ends and
the assembler ignores characters no longer, and past 20 µs what it gathered is dropped (R1, R3; log entry 29); and
so with console RX at and past 10 ms (R184; log entry 29). Under RESET nothing runs. The model's choice: log
entry 1. -/
def Obligations.TimePassesBetweenCommands : Prop :=
  (∀ (c : Instr) (s : State), ∃ t, exec c s = .next t ∧
     t.pending = s.pending ∧
     (c ≠ .resetAssert → (∀ n, c ≠ .resetRelease n) →
       t.clock = s.clock ∧ t.subTick = s.subTick ∧ t.resetAsserted = s.resetAsserted)) ∧
  (∀ s : State, s.pending = [] →
     (s.dueCommands ≠ [] → step s = .next { s with pending := s.dueCommands }) ∧
     (s.resetAsserted = true → step s = .next s) ∧
     (s.dueCommands = [] → s.resetAsserted = false → ∃ t, step s = .next t ∧
       (s.subTick + 1 < 100 → t.subTick = s.subTick + 1 ∧ t.clock = s.clock) ∧
       (100 ≤ s.subTick + 1 → t.subTick = 0 ∧ t.clock = s.clock + 1) ∧
       t.edge.micros = (if s.loader.roles.edge then s.edge.micros + 1 else s.edge.micros) ∧
       (s.line.tx ≠ none → t.line = { s.line with busyUs := s.line.busyUs.map (· + 1) }) ∧
       (∀ quiet, s.line.tx = none → quiet = s.line.quietUs + 1 → t.line = { s.line with
         quietUs := quiet
         busyUs := if 20 ≤ quiet then none else s.line.busyUs.map (· + 1)
         rx := { gathered := if 20 < quiet then [] else s.line.rx.gathered
                 skipping := s.line.rx.skipping && decide (quiet < 20) } }) ∧
       (∀ quiet, quiet = s.console.rxQuietUs + 1 → t.console = { s.console with
         rxQuietUs := quiet
         gathered := if 10000 < quiet then [] else s.console.gathered
         skipping := s.console.skipping && decide (quiet < 10000) }) ∧
       { t with
         subTick := s.subTick, clock := s.clock, line := s.line, console := s.console
         edge := { t.edge with micros := s.edge.micros } } = s))

/-! ## Reset and the constants load (chapter 2) -/

/-- RESET_ASSERT leaves a station that holds nothing, with the red lamp lit; RESET_RELEASE samples the straps and
begins LOADING with the clock at 0 and the read of the image from memory address 0 of the EEPROM at 0x51 (R19 to
R21). What the manual gives for a cold reset: LOADING with the clock at 0, an empty latch, every roster entry
ABSENT, no frame waiting, event number 0, no attempt record, the sequencer in IDLE with no current attempt and the
red lamp lit, an empty start list and results list, a blank panel, and the notice mask at FAULT alone. The model's
choice: that the waiting commands stay and that a second RESET_ASSERT, and a RESET_RELEASE without RESET, do nothing
(log entry 5), how a read opens on the bus (log entry 57), and the fields whose reset value the manual does not give
(log entry 6). Every invariant stated below holds of it. -/
def Obligations.ResetAndItsState : Prop :=
  ((∀ s : State, s.resetAsserted = false →
     exec .resetAssert s = .next { pending := s.pending, resetAsserted := true }) ∧
   (∀ s : State, s.resetAsserted = true → exec .resetAssert s = .next s) ∧
   (∀ (s : State) (n : BitVec 4), s.resetAsserted = true →
     exec (.resetRelease n) s =
       .next { pending := s.pending, loader := {
         station := n.toNat, state := .loading
         eeprom := [.start, .address 0x51 false, .memoryAddress 0, .repeatedStart, .address 0x51 true] } }) ∧
   (∀ (s : State) (n : BitVec 4), s.resetAsserted = false → exec (.resetRelease n) s = .next s) ∧
   (∀ s : State, s.resetAsserted = true → s.lampOutputs = { red := true } ∧ s.countdown = none)) ∧
  (State.reset.pending = [] ∧ State.reset.clock = 0 ∧ State.reset.loader.state = .loading ∧
   State.reset.loader.eeprom =
     [.start, .address 0x51 false, .memoryAddress 0, .repeatedStart, .address 0x51 true] ∧
   State.reset.latch = { record := none, overflow := false } ∧
   State.reset.roster = List.replicate 16 { presence := .absent, lastHeard := none, status := none } ∧
   State.reset.line.urgent = [] ∧ State.reset.line.routine = [] ∧ State.reset.line.tx = none ∧
   State.reset.line.eventNumber = 0 ∧ State.reset.line.yieldMark = false ∧
   State.reset.line.hung = false ∧ State.reset.table = [] ∧ State.reset.contexts = [] ∧
   State.reset.start.phase = .idle ∧ State.reset.start.current = none ∧
   State.reset.lampOutputs = { red := true } ∧ State.reset.standings.startList = [] ∧
   State.reset.standings.results = [] ∧ State.reset.board.panel.blank = true ∧
   State.reset.console.replies = [] ∧ State.reset.console.notices = [] ∧
   State.reset.console.mask = { fault := true } ∧
   State.reset.QueuesSound ∧ State.reset.MutedQuiet ∧ State.reset.ConsoleSound ∧
   State.reset.RosterSound ∧ State.reset.WindSound ∧ State.reset.TableSound ∧ State.reset.HoldsSound ∧
   State.reset.CycleSound ∧ State.reset.StandingsSound ∧ State.reset.BoardSound)

/-- A pass over an image that ends with every check passed brings RUN: the digest and the constants of the image,
the roles, mast and span of the station's own entry, the two cadences, each role block from its values at entry,
and a first STATUS; the latch, the roster and the table stay (R16, R17, R25, R81, R115, R183). The pass reads in order
no more bytes than decide the load (R21). The model's choice: how a read opens and ends on the bus (log entry 57), the
values that the manual does not give a block at entry (log entry 6), the data line high at entry (log entry 19), and
a barrier that shows a break at entry BROKEN since that instant (log entry 15). -/
def Obligations.LoadEndsInRun : Prop :=
  ∀ (s : State) (bytes : List Byte) (broken : BarrierInputs) (digest : Word16) (k : Constants),
    s.resetAsserted = false → s.loader.state = .loading → s.loader.retryAt = none →
    s.line.routine = [] → s.console.notices.length < 32 →
    loadImage s.loader.station bytes = .run digest k →
    ∃ t, exec (.eepromReadEnd bytes broken) s = .next t ∧
      t.loader.state = .run ∧ t.loader.station = s.loader.station ∧ t.loader.digest = digest ∧
      t.loader.consts = k ∧
      (∃ e ∈ k.stations, e.station = s.loader.station ∧ t.loader.roles = e.roles ∧
        t.loader.mast = e.mast ∧ t.loader.span = e.span) ∧
      (∃ f, f.body.kind = 0x01 ∧ f.event = s.line.eventNumber ∧ t.line.routine = [f]) ∧
      t.line.nextStatus = some (s.clock + 2500) ∧
      (t.loader.roles.mast = true → t.line.nextCorridor = some (s.clock + 10000) ∧
        t.wind = { nextPoll := some s.clock }) ∧
      (t.loader.roles.start = true → t.start.phase = .idle ∧ t.start.current = none ∧
        t.start.barrier = (if broken.first then .broken s.clock else .clear)) ∧
      (t.loader.roles.edge = true → t.edge.micros = 0 ∧ t.edge.run = none) ∧
      (t.loader.roles.span = true → t.span = { heard := true, lastRecord := s.clock }) ∧
      (t.loader.roles.board = true → t.board.nextRow = some s.clock ∧
        t.board.current.map (·.entry.page) = some (.standings 0)) ∧
      (∃ n ≤ bytes.length, loadImage s.loader.station (bytes.take n) = .run digest k ∧
        (∀ m < n, loadImage s.loader.station (bytes.take m) = .failedRead) ∧
        t.loader.eeprom =
          [.start, .address 0x51 false, .memoryAddress 0, .repeatedStart, .address 0x51 true] ++
            List.replicate n .receive ++ [.stop]) ∧
      t.latch = s.latch ∧ t.roster = s.roster ∧ t.table = s.table ∧ t.standings = s.standings ∧
      t.clock = s.clock

/-- The ends of a pass that do not bring RUN: a failing check ends the load in INVALID, without roles or constants,
with the digest and CONSTANTS_INVALID reported, having read no more bytes than decide it; a failed read waits 5 ms;
the wait's end reads again from memory address 0, and after 20 failed reads in a row ends the load in INVALID (R21,
R25; log entry 9). The model's choice: how a read opens and ends on the bus (log entry 57). -/
def Obligations.LoadFails : Prop :=
  (∀ (s : State) (bytes : List Byte) (broken : BarrierInputs) (detail : Nat) (digest : Word16),
    s.resetAsserted = false → s.loader.state = .loading → s.loader.retryAt = none →
    s.line.routine = [] → loadImage s.loader.station bytes = .invalid detail digest →
    ∃ t n, exec (.eepromReadEnd bytes broken) s = .next t ∧ n ≤ bytes.length ∧
      loadImage s.loader.station (bytes.take n) = .invalid detail digest ∧
      (∀ m < n, loadImage s.loader.station (bytes.take m) = .failedRead) ∧
      t.loader = {
        station := s.loader.station, state := .invalid, digest := digest
        eeprom := [.start, .address 0x51 false, .memoryAddress 0, .repeatedStart, .address 0x51 true] ++
          List.replicate n .receive ++ [.stop] } ∧
      t.latch = s.latch.take .constantsInvalid s.clock detail ∧
      t.line.nextStatus = some (s.clock + 2500) ∧
      (∃ f, f.body.kind = 0x01 ∧ t.line.routine = [f]) ∧
      { t with loader := s.loader, latch := s.latch, console := s.console, line := s.line } = s) ∧
  (∀ (s : State) (bytes : List Byte) (broken : BarrierInputs),
    s.resetAsserted = false → s.loader.state = .loading → s.loader.retryAt = none →
    loadImage s.loader.station bytes = .failedRead →
    exec (.eepromReadEnd bytes broken) s =
      .next { s with loader := { s.loader with
        failedReads := s.loader.failedReads + 1, retryAt := some (s.clock + 50)
        eeprom := [.start, .address 0x51 false, .memoryAddress 0, .repeatedStart, .address 0x51 true] ++
          List.replicate bytes.length .receive ++ [.stop] } }) ∧
  (∀ (s : State) (e : Tick), s.loader.retryAt = some e → reached s.clock e = true →
    s.loader.failedReads < 20 →
    exec .eepromRetryTimer s = .next { s with loader := { s.loader with
      retryAt := none
      eeprom := [.start, .address 0x51 false, .memoryAddress 0, .repeatedStart, .address 0x51 true] } }) ∧
  (∀ (s : State) (e : Tick), s.loader.retryAt = some e → reached s.clock e = true →
    20 ≤ s.loader.failedReads → s.line.routine = [] → s.loader.state = .loading →
    ∃ t, exec .eepromRetryTimer s = .next t ∧
      t.loader = { station := s.loader.station, state := .invalid, eeprom := s.loader.eeprom } ∧
      t.latch = s.latch.take .constantsInvalid s.clock 0 ∧
      (∃ f, f.body.kind = 0x01 ∧ t.line.routine = [f]) ∧
      { t with loader := s.loader, latch := s.latch, console := s.console, line := s.line } = s)

/-- An image that brings RUN opens with its marker, and its length field, of 8 to 1024, says where its digest stands:
the last two bytes, low byte first, are the CRC of the bytes before them (R21, R22). Its map satisfies every check
of R24: no two entries have one station number, or one mast number or span number other than 0. -/
def Obligations.LoadedMapIsSound : Prop :=
  ∀ (own : Nat) (bytes : List Byte) (digest : Word16) (k : Constants),
    loadImage own bytes = .run digest k →
    (∃ (len : Nat) (lo hi dlo dhi : Byte), bytes[2]? = some lo ∧ bytes[3]? = some hi ∧
      len = lo.toNat + 256 * hi.toNat ∧ 8 ≤ len ∧ len ≤ 1024 ∧ len ≤ bytes.length ∧
      digest = crc16 (bytes.take (len - 2)) ∧ bytes[len - 2]? = some dlo ∧ bytes[len - 1]? = some dhi ∧
      digest.toNat = dlo.toNat + 256 * dhi.toNat) ∧
    bytes.take 2 = [0x48, 0x4C] ∧
    countRole k.stations (·.start) = 1 ∧ countRole k.stations (·.edge) = 1 ∧
    countRole k.stations (·.jury) = 1 ∧ countRole k.stations (·.board) ≤ 2 ∧
    countRole k.stations (·.mast) ≤ 8 ∧ 1 ≤ countRole k.stations (·.span) ∧
    countRole k.stations (·.span) ≤ 8 ∧
    (k.stations.map (·.station)).Nodup ∧ (∃ e ∈ k.stations, e.station = own) ∧
    ((k.stations.map (·.mast)).filter (· ≠ 0)).Nodup ∧
    ((k.stations.map (·.span)).filter (· ≠ 0)).Nodup ∧
    (∀ e ∈ k.stations, (e.roles.start && e.roles.edge) = false ∧
      (e.roles.mast = true → 1 ≤ e.mast ∧ e.mast ≤ 8 ∧ ∃ m ∈ k.masts, m.mast = e.mast) ∧
      (e.roles.mast = false → e.mast = 0) ∧
      (e.roles.span = true → 1 ≤ e.span ∧ e.span ≤ 8 ∧ ∃ m ∈ k.spans, m.span = e.span) ∧
      (e.roles.span = false → e.span = 0)) ∧
    (k.masts.map (·.mast)).Nodup ∧ (k.spans.map (·.span)).Nodup

/-- Once the load has ended, no command but a cold reset changes the station number, the constants, the digest, the
roles, the mast or the span, nor brings LOADING back (R19, R25, R26). -/
def Obligations.LoaderHeldUntilColdReset : Prop :=
  ∀ (c : Instr) (s t : State), s.resetAsserted = false → s.loader.state ≠ .loading →
    s.loader.retryAt = none → c ≠ .resetAssert → exec c s = .next t →
    t.loader.station = s.loader.station ∧ t.loader.consts = s.loader.consts ∧
    t.loader.digest = s.loader.digest ∧ t.loader.roles = s.loader.roles ∧
    t.loader.mast = s.loader.mast ∧ t.loader.span = s.loader.span ∧
    t.loader.state.base = s.loader.state.base ∧
    (s.loader.state.isMuted = true → t.loader.state = s.loader.state)

/-! ## The hill line (chapter 1) -/

/-- A frame offered: discarded at a MUTED station; else it joins the tail of its class's queue with the current event
number, or, where eight frames wait, is dropped with TX_OVERFLOW (R4, R9). A STATUS or CORRIDOR while a frame of its
kind waits is the next statement's. -/
def Obligations.OfferedFrames : Prop :=
  (∀ (s : State) (b : Body) (e : Option Tick), s.loader.state.isMuted = true → s.offer b e = s) ∧
  (∀ (s : State) (b : Body) (e : Option Tick), s.loader.state.isMuted = false → b.urgent = true →
    s.offer b e =
      if s.line.urgent.length < 8 then
        { s with line := { s.line with urgent := s.line.urgent ++ [⟨b, s.line.eventNumber, e⟩] } }
      else s.report .txOverflow b.kind) ∧
  (∀ (s : State) (b : Body) (e : Option Tick), s.loader.state.isMuted = false → b.urgent = false →
    (b.kind ≠ 0x01 ∧ b.kind ≠ 0x02 ∨ ∀ g ∈ s.line.routine, g.body.kind ≠ b.kind) →
    s.offer b e =
      if s.line.routine.length < 8 then
        { s with line := { s.line with routine := s.line.routine ++ [⟨b, s.line.eventNumber, e⟩] } }
      else s.report .txOverflow b.kind)

/-- R10: a STATUS or CORRIDOR offered while one waits takes its place in the routine queue, full or not, and reports
nothing; a frame in transmission does not count as waiting; at most one of each kind waits. -/
def Obligations.StatusAndCorridorReplace : Prop :=
  (∀ (s : State) (b : Body) (e : Option Tick) (front back : List QueuedFrame) (g : QueuedFrame),
    s.loader.state.isMuted = false → b.kind = 0x01 ∨ b.kind = 0x02 →
    s.line.routine = front ++ g :: back → g.body.kind = b.kind →
    (∀ f ∈ front, f.body.kind ≠ b.kind) →
    s.offer b e = { s with line := { s.line with
      routine := front ++ ⟨b, s.line.eventNumber, e⟩ :: back } }) ∧
  (∀ (s : State) (b : Body) (e : Option Tick), s.loader.state.isMuted = false →
    b.kind = 0x01 ∨ b.kind = 0x02 → (∀ f ∈ s.line.routine, f.body.kind ≠ b.kind) →
    s.line.routine.length < 8 →
    (s.offer b e).line.routine = s.line.routine ++ [⟨b, s.line.eventNumber, e⟩]) ∧
  (∀ (s : State) (b : Body) (e : Option Tick), s.QueuesSound →
    ((s.offer b e).line.routine.filter (fun f => f.body.kind == 0x01)).length ≤ 1 ∧
    ((s.offer b e).line.routine.filter (fun f => f.body.kind == 0x02)).length ≤ 1)

/-- The candidate is sent as soon as the quiet time is at or past 24 µs plus 8 µs a slot: its station number for an
urgent frame, 16 more for a routine one, 32 more under the yield mark, and after a hung condition not before 1 ms
more. It leaves its queue and becomes the frame in transmission, with the event number of its offer and its age at
this instant; a busy period begins. Short of that quiet time, in a busy period and while a frame is in transmission
nothing happens (R1, R7, R9, R11, R12, R15). The model's choice: what is short of its condition does nothing (log
entry 2), the guard after a hung condition stands until the station's own next start (log entry 14), the quiet time
that the idle step counts, and of a command's quiet time no more than that (log entry 30), and the saturated age of
an event after the start (log entry 34). The age carries the event time across the hill: a receiver whose clock
stands `offset` ticks from the sender's recovers the event's instant on its own clock, unless more than 65,534 ticks
have passed; then the age is 65,535, the saturated mark, and the event time 65,535 ticks before the stamp (R7, R8).
-/
def Obligations.TransmissionCarriesTheAge : Prop :=
  (∀ (s : State) (f : QueuedFrame) (slot : Nat), s.resetAsserted = false →
     s.loader.state = .run ∨ s.loader.state = .invalid → s.line.tx = none → s.line.busyUs = none →
     s.line.hung = false →
     (s.line.urgent.head? = some f ∨ s.line.urgent = [] ∧ s.line.routine.head? = some f) →
     slot = (if f.body.urgent then s.loader.station
       else if s.line.yieldMark then 32 + s.loader.station else 16 + s.loader.station) →
     ((if s.line.resumeGuard then 1000 else 0) + 24 + 8 * slot ≤ s.line.quietUs →
       ∃ age : Word16, (f.eventTime = none → age = 0) ∧
         (∀ e, f.eventTime = some e → age.toNat = min 65535 (s.clock - e).toNat) ∧
         ∀ us, (if s.line.resumeGuard then 1000 else 0) + 24 + 8 * slot ≤ us →
         exec (.transmissionStart us) s = .next { s with line := { s.line with
           urgent := s.line.urgent.tail
           routine := if s.line.urgent = [] then s.line.routine.tail else s.line.routine
           tx := some ⟨⟨s.loader.station, f.event, age, s.clock⟩, f.body⟩
           quietUs := 0
           busyUs := some 0
           resumeGuard := false
           rx := {} } }) ∧
     (∀ us, min us s.line.quietUs < (if s.line.resumeGuard then 1000 else 0) + 24 + 8 * slot →
       exec (.transmissionStart us) s = .next s)) ∧
  (∀ (s : State) (us : Nat),
     s.line.tx ≠ none ∨ s.line.busyUs ≠ none ∨ s.line.urgent = [] ∧ s.line.routine = [] →
     exec (.transmissionStart us) s = .next s) ∧
  (∀ (sent event offset : Tick) (sender number : Nat),
     let l : LineHdr := ⟨sender, number, ageAt sent (some event), sent + offset⟩
     ((sent - event).toNat ≤ 65534 → l.eventTime = event + offset ∧ l.saturated = false) ∧
     (65534 < (sent - event).toNat → l.eventTime = sent + offset - 65535 ∧ l.saturated = true) ∧
     (LineHdr.eventTime ⟨sender, number, ageAt sent none, sent + offset⟩ = sent + offset))

/-- A failing echo, and driver enable asserted for more than 1.0 ms, abandon the frame in transmission and report
TX_ECHO or TX_JABBER with its kind; a routine frame sets the yield mark. With no frame in transmission nothing
happens (R12, R13, R14). Driver enable is asserted for the time of the frame, 20 µs a character, after which the
idle step queues the frame's echo (R13, R14; the model's choice, log entry 58). A busy period of more than 2 ms
hangs the line and reports LINE_HUNG once; a quiet time of 1 ms ends the condition and arms the guard on the
resumption (R15). The model's choice: what is short of its time does nothing (log entry 2), the guard's mark (log
entry 14), the assembler that takes characters again at the end of the condition (log entry 29), the counted quiet
time, no more of a command's than that (log entry 30), and LOADING, in which a long busy period hangs nothing (log
entry 35). -/
def Obligations.LineGuards : Prop :=
  ((∀ (s : State) (g : LineFrame), s.line.tx = some g →
     let ended := { s with line := { s.line with
       tx := none, quietUs := 0, rx := {}, yieldMark := s.line.yieldMark || !g.body.urgent } }
     exec .txEcho s = .next (ended.report .txEcho g.body.kind) ∧
     (∀ us, 1000 < us → exec (.txJabber us) s = .next (ended.report .txJabber g.body.kind))) ∧
   (∀ (s : State) (us : Nat), us ≤ 1000 → exec (.txJabber us) s = .next s) ∧
   (∀ (s : State) (us : Nat), s.line.tx = none →
     exec .txEcho s = .next s ∧ exec (.txJabber us) s = .next s ∧ s.driverEnable = false) ∧
   (∀ (s : State) (g : LineFrame) (us : Nat), s.line.tx = some g → s.line.busyUs = some us →
     ∀ length, length = 20 * (frameBytes g.line.sender g.line.event g.line.age g.body).length →
     s.driverEnable = decide (us < length) ∧
     (s.resetAsserted = false → (frameCommand g.line.rx g.body ∈ s.dueCommands ↔ length ≤ us)))) ∧
  ((∀ (s : State) (us : Nat), s.resetAsserted = false → s.loader.state ≠ .loading →
     s.line.hung = false → 2000 < us →
     exec (.lineHung us) s =
       .next (({ s with line := { s.line with
         hung := true, quietUs := 0, busyUs := some us } }).report .lineHung 0)) ∧
   (∀ (s : State) (us : Nat), s.resetAsserted = false → s.line.hung = true ∨ s.loader.state = .loading →
     2000 < us →
     exec (.lineHung us) s = .next { s with line := { s.line with quietUs := 0, busyUs := some us } }) ∧
   (∀ (s : State) (us : Nat), us ≤ 2000 → exec (.lineHung us) s = .next s) ∧
   (∀ (s : State) (us : Nat), s.line.hung = true → 1000 ≤ us → 1000 ≤ s.line.quietUs →
     exec (.lineHungEnd us) s = .next { s with line := { s.line with
       hung := false, resumeGuard := true, busyUs := none, rx := {} } }) ∧
   (∀ (s : State) (us : Nat), s.line.hung = false ∨ us < 1000 ∨ s.line.quietUs < 1000 →
     exec (.lineHungEnd us) s = .next s) ∧
   (∀ (s : State) (us : Nat), s.line.hung = true → exec (.transmissionStart us) s = .next s))

/-- What the receive assembler drops, at a station that does not transmit. At a quiet time of 20 µs the line is idle
and the assembler ignores characters no longer; past it what was gathered is dropped (R1, R3). At a station that
listens: characters that spell no frame, all that follow a length byte above 32 being ignored until the line is
idle; and everything until the line is idle after a framing error (R3). What is not taken: any frame under RESET; a
frame in LOADING or while the assembler ignores characters, which is line activity of its duration, 20 µs a
character, alone; a frame with a field out of its range, which is discarded whole (R1, R3, R16, R20, R190). The
model's choice: a shorter gap does nothing (log entry 2), the mark that ignores characters (log entry 29), the
counted quiet time (log entry 30), and what is out of range where chapter 12 gives no range (log entries 60 and 65). -/
def Obligations.WhatTheLineDoesNotTake : Prop :=
  (∀ s : State, s.resetAsserted = false → s.line.tx = none →
     (∀ us, 20 ≤ us → exec (.rxCharacterGap us) s =
       .next { s with line := { s.line with
         quietUs := us, busyUs := none
         rx := { gathered := if 20 < us then [] else s.line.rx.gathered, skipping := false } } }) ∧
     (∀ us, us < 20 → exec (.rxCharacterGap us) s = .next s) ∧
     (s.loader.state ≠ .loading →
       (∀ bytes, decodeFrame bytes = none → exec (.invalidFrame bytes) s =
         .next { s with line := { s.line with
           quietUs := 0, busyUs := some (s.line.busyUs.getD 0 + 20 * bytes.length)
           rx := { gathered := [], skipping := s.line.rx.skipping || overlong bytes } } }) ∧
       exec .rxFramingError s = .next { s with line := { s.line with
         quietUs := 0, busyUs := some (s.line.busyUs.getD 0 + 20)
         rx := { gathered := [], skipping := true } } }) ∧
     (∀ kind station len rest, 32 < len.toNat → overlong (kind :: station :: len :: rest) = true)) ∧
  (∀ (s : State) (l : LineHdr) (b : Body) (us : Nat), us = 20 * (frameBytes l.sender l.event l.age b).length →
     (s.resetAsserted = true → exec (frameCommand l.rx b) s = .next s) ∧
     (s.resetAsserted = false →
       (s.loader.state = .loading ∨ s.line.tx = none ∧ s.line.rx.skipping = true →
         exec (frameCommand l.rx b) s = .next { s with line := { s.line with
           quietUs := 0, busyUs := some (s.line.busyUs.getD 0 + us) } }) ∧
       (s.loader.state ≠ .loading → s.line.tx = none → s.line.rx.skipping = false →
         (l.inRange && b.inRange) = false →
         exec (frameCommand l.rx b) s = .next { s with line := { s.line with
           quietUs := 0, busyUs := some us, rx := {} } })))

/-- The cadences: every 2,500 ticks a STATUS of the station as it stands, and at a MAST station every 10,000 ticks a
CORRIDOR over the samples of the window, are offered; before their time nothing happens (R16, R17, R104, R105). The
content of a STATUS: the roles, the condition, the digest, the latched fault's kind, and a part for each of the
roles START, JURY, MAST, SPAN and EDGE that the station holds, with what the block holds now, EDGE saying that no
barrier is STUCK; the condition is INVALID in INVALID, and in RUN DEGRADED exactly while a source stands (R27, R31,
R80, R83, R110, R121, R169). The model's choice: a cadence before its time does nothing (log entry 2), the bus
source during a burst ordered out of HUNG (log entry 19), and a number of samples above W × 10 (log entry 54). The
echo of the station's own STATUS, which changes nothing in its roster entry but the time, offers every copy that a
block keeps again, and no other frame (R69, R89, R109, R120, R128, R147, R149, R161, R165). The span unit's copies
go in the order of their first offers, and so do the ROUNDs (R120, R165). The order of any others is the model's
choice: LEAVE, PHASE, VOID at the sequencer and the like in the other blocks (log entry 21), and among the blocks
that in which they take a frame (log entry 8). A block drops its copy of a frame at the frame's own echo: a LEAVE,
VOID or PHASE of the sequencer, a PHASE GONE offering a LEAVE still kept again and nothing else; SPEED and TAKEOFF;
a MASTMEAN; IN_VIEW, VIEW_LOST and CONTACT; VOID, ROUND and EVENT of the jury. That a copy is known by its content,
a PHASE's by all of it but the seconds, is the model's choice (log entry 21). -/
def Obligations.CadencesAndStatusContent : Prop :=
  ((∀ (s : State) (e : Tick), s.line.nextStatus = some e → reached s.clock e = true →
     exec .statusOffer s = .next
       (({ s with line := { s.line with nextStatus := some (e + 2500) } }).offer (.status s.statusNow)
         none)) ∧
   (∀ (s : State) (e : Tick) (used : List Sample), s.line.nextCorridor = some e →
     reached s.clock e = true →
     used = s.wind.ring.filter (fun x => 0 ≤ since s.clock x.time &&
       since s.clock x.time < (s.loader.consts.corridor.windowS : Int) * 10000) →
     exec .corridorOffer s = .next
       (({ s with line := { s.line with nextCorridor := some (e + 10000) } }).offer
         (.corridor s.loader.mast
           (if used = [] then 0 else roundHalfAway (used.map Sample.x).sum used.length)
           (if used = [] then 0 else roundHalfAway (used.map Sample.y).sum used.length)
           used.length
           { held := used.any Sample.held
             stale := decide (2 * used.length < s.loader.consts.corridor.windowS * 10) || !s.wind.stable
             service := decide (s.wind.master = MasterSelect.console) }) none)) ∧
   (∀ s : State, expired s.clock s.line.nextStatus = false → exec .statusOffer s = .next s) ∧
   (∀ s : State, expired s.clock s.line.nextCorridor = false → exec .corridorOffer s = .next s)) ∧
  (∀ s : State,
     s.statusNow.roles = s.loader.roles ∧ s.statusNow.digest = s.loader.digest ∧
     s.statusNow.fault = s.latch.record.map (·.kind) ∧
     (s.loader.state = .invalid → s.statusNow.condition = .invalid) ∧
     (s.loader.state = .run → (s.statusNow.condition = .degraded ↔
       (s.loader.roles.mast = true ∧ s.wind.bus.hungSource = true) ∨
       (s.loader.roles.span = true ∧ s.span.heard = false) ∨
       (s.loader.roles.start = true ∧ (s.start.barrier = .stuck ∨ s.start.failed ≠ {})) ∨
       (s.loader.roles.edge = true ∧
         (s.edge.a = .stuck ∨ s.edge.b = .stuck ∨ s.edge.t = .stuck)))) ∧
     (s.loader.state = .run → s.statusNow.condition ≠ .invalid) ∧
     s.statusNow.start = (if s.loader.roles.start then
       some ⟨s.start.phase, s.start.current.map (·.attempt), CauseSet.ofHolds s.start.holds,
         s.start.backlog⟩ else none) ∧
     s.statusNow.jury = (if s.loader.roles.jury then
       some ⟨s.standings.lastAttempt, s.standings.round.number, s.standings.round.state⟩ else none) ∧
     s.statusNow.mast = (if s.loader.roles.mast then some ⟨s.loader.mast, s.wind.stable⟩ else none) ∧
     s.statusNow.span = (if s.loader.roles.span then some ⟨s.loader.span, s.span.heard⟩ else none) ∧
     s.statusNow.edge = (if s.loader.roles.edge then
       some ⟨decide (s.edge.a ≠ .stuck ∧ s.edge.b ≠ .stuck ∧ s.edge.t ≠ .stuck)⟩ else none)) ∧
  (∀ (s : State) (l : LineHdr) (p : StatusPayload), s.Echoes l (.status p) →
     (s.rosterAt l.sender).presence = .present →
     (s.rosterAt l.sender).status.map (fun h => (h.payload.digest, h.payload.condition)) =
       some (p.digest, p.condition) →
     (s.loader.roles.start = true → s.start.backlog = s.countBacklog) →
     s.line.eventNumber ≠ 0 ∨ s.loader.roles.jury = true ∨
       s.loader.consts.stationWith (·.jury) ≠ some l.sender →
     ∃ t, exec (.statusFrame l.rx p) s = .next t ∧
       t.line = (s.keptCopies.foldl (fun (u : State) (k : KeptFrame) => u.offer k.body k.eventTime)
         { s with line := { s.line with
             tx := none, quietUs := 0, rx := {}, yieldMark := true
             busyUs := some (20 * (frameBytes l.sender l.event l.age (.status p)).length) } }).line) ∧
  (∀ (s : State) (l : LineHdr) (b : Body), s.Echoes l b → ∃ t, exec (frameCommand l.rx b) s = .next t ∧
     (s.loader.roles.start = true →
       (∀ h o, b = .leave h o → ∀ k, t.start.keptLeave = some k → k.body ≠ b) ∧
       (∀ h why, b = .void h why → ∀ k, t.start.keptVoid = some k → k.body ≠ b) ∧
       (∀ h p g sec n, b = .phase h p g sec n →
         ∀ k sec', t.start.keptPhase = some k → k.body ≠ .phase h p g sec' n)) ∧
     (s.loader.roles.edge = true →
       (∀ h v, b = .speed h v → ∀ k, t.edge.keptSpeed = some k → k.body ≠ b) ∧
       (∀ h n, b = .takeoff h n → ∀ k, t.edge.keptTakeoff = some k → k.body ≠ b)) ∧
     (s.loader.roles.mast = true → ∀ h m x n part, b = .mastMean h m x n part →
       ∀ r ∈ t.wind.means, r.attempt = h.attempt → r.copy = none) ∧
     (s.loader.roles.span = true →
       (∃ h sp, b = .inView h sp) ∨ (∃ h sp why, b = .viewLost h sp why) ∨
         (∃ h sp track pos, b = .contact h sp track pos) →
       ∀ k ∈ t.span.kept, k.body ≠ b) ∧
     (s.loader.roles.jury = true →
       (∀ h why, b = .void h why → ∀ v ∈ t.scoring.voidCopies, v ≠ ⟨h, why⟩) ∧
       (∀ r m g, b = .round r m g → ∀ c ∈ t.standings.roundCopies, c ≠ b) ∧
       (∀ n m r, b = .event n m r → t.standings.eventCopy = none))) ∧
  (∀ (s : State) (h : AttemptHdr) (g sec n : Nat) (k : KeptFrame), s.start.keptLeave = some k →
     (s.startOwnPhase (.phase h .gone g sec n)).line = (s.offer k.body k.eventTime).line) ∧
  (∀ (s : State) (l : LineHdr) (h : AttemptHdr) (g sec n : Nat) (k : KeptFrame),
     s.Echoes l (.phase h .gone g sec n) → s.loader.roles.start = true → s.loader.roles.jury = false →
     s.start.phase = .gone → s.start.keptLeave = some k →
     ∃ t, exec (.phaseFrame l.rx h .gone g sec n) s = .next t ∧
       t.line = (({ s with line := { s.line with
         tx := none, quietUs := 0, rx := {}
         yieldMark := s.line.yieldMark || !(Body.phase h .gone g sec n).urgent
         busyUs := some (20 * (frameBytes l.sender l.event l.age (.phase h .gone g sec n)).length) } }).offer
           k.body k.eventTime).line)

/-! ## Frames heard (R3 to R6, R28, R190) -/

/-- Every frame heard from another station refreshes its sender's roster entry and no other, clears the yield mark,
and leaves the clock, the loader, the judge port and the frame in transmission as they are. A block whose role
the station does not hold keeps its state. A frame without an attempt header, EVENT apart, leaves the attempts,
the edge timer, the wind and span units and the landing resolver alone; so does every frame of another event and
every frame at a station that is not in RUN, which reach no block but through the roster: they leave the event
number, the standings and the board too. At event number 0 every frame but STATUS and EVENT is so filtered, whatever
its header carries (R5, R6, R12, R26, R28, R57; at a cold reset too: log entry 43). At a START station a frame that
brings its sender back to PRESENT has STATION and CONFIG evaluated, so that a sender from which no STATUS has been
heard raises CONFIG (R28, R71). -/
def Obligations.HeardFrameRefreshesTheRoster : Prop :=
  ∀ (s : State) (l : LineHdr) (b : Body), s.Hears l b → s.RosterSound →
    ∃ t, exec (frameCommand l.rx b) s = .next t ∧
      t.rosterAt l.sender = {
        presence := .present
        lastHeard := some l.stamp
        status := match b with
          | .status p => some ⟨p, l.event⟩
          | _ => (s.rosterAt l.sender).status } ∧
      (∀ n, n ≠ l.sender → t.rosterAt n = s.rosterAt n) ∧
      t.line.yieldMark = false ∧ t.line.tx = none ∧ t.line.quietUs = 0 ∧
      t.loader = s.loader ∧ t.clock = s.clock ∧ t.judge = s.judge ∧
      (s.loader.roles.start = false → t.start = s.start) ∧
      (s.loader.roles.edge = false → t.edge = s.edge) ∧
      (s.loader.roles.mast = false → t.wind = s.wind) ∧
      (s.loader.roles.span = false → t.span = s.span) ∧
      (s.loader.roles.jury = false → t.contexts = s.contexts ∧ t.scoring = s.scoring) ∧
      (s.loader.roles.jury = false → s.loader.roles.board = false → t.standings = s.standings) ∧
      (s.loader.roles.board = false → t.board = s.board) ∧
      (s.loader.roles.start = true → (s.rosterAt l.sender).presence ≠ .present → s.RosterHoldsFollow t) ∧
      (s.loader.state.base ≠ .run ∨ s.passesFilter l b = false ∨
          (b.hdr? = none ∧ ∀ n m r, b ≠ .event n m r) ∨
          (s.line.eventNumber = 0 ∧ ∀ n m r, b ≠ .event n m r) →
        t.table.map (fun r => { r with scoring := none }) =
          s.table.map (fun r => { r with scoring := none }) ∧
        t.edge = s.edge ∧ t.wind = s.wind ∧ t.span = s.span ∧ t.contexts = s.contexts ∧
        t.scoring = s.scoring) ∧
      (s.loader.state.base ≠ .run ∨ s.passesFilter l b = false ∨
          (s.line.eventNumber = 0 ∧ (∀ p, b ≠ .status p) ∧ ∀ n m r, b ≠ .event n m r) →
        t.line.eventNumber = s.line.eventNumber ∧ t.standings = s.standings ∧ t.board = s.board)

/-- The station's own frame, read back whole, ends its transmission and refreshes its own roster entry; a routine
frame sets the yield mark; the duplicate-station test is not made (R12, R13, R28). It is delivered to the station
itself: a known record moves as R36 and R38 give, at a START station too (R39); the jury's own CALL, and the own
PHASE of a START station without JURY, create the record of an unknown attempt (R40, R41); an own RESULT makes the
scoring part PUBLISHED and drops its copy (R147); an own LANDING removes the context that has sent it (R128).
A frame of the station's own number that it did not send mutes it: DUPLICATE_STATION is reported, both queues are
emptied, no cadence runs, the sequencer's cycle ends, and nothing is delivered; heard again it has no further
effect (R4, R26, R81). The model's choice: the echo is told by being equal to the frame in transmission (log entry
7), and both cadences stop at MUTED (log entry 31). -/
def Obligations.OwnFramesEchoOrMute : Prop :=
  (∀ (s : State) (l : LineHdr) (b : Body), s.resetAsserted = false → s.loader.state ≠ .loading →
     s.line.tx = some ⟨l, b⟩ → l.sender = s.loader.station → l.inRange = true → b.inRange = true →
     s.RosterSound →
     ∃ t, exec (frameCommand l.rx b) s = .next t ∧ t.line.tx = none ∧
       t.line.yieldMark = (s.line.yieldMark || !b.urgent) ∧ t.loader = s.loader ∧
       (t.rosterAt l.sender).presence = .present ∧ (t.rosterAt l.sender).lastHeard = some l.stamp) ∧
  (∀ (s : State) (l : LineHdr) (b : Body) (h : AttemptHdr) (r : AttemptRecord), s.Echoes l b → b.hdr? = some h →
     s.attempt? h.attempt = some r →
     ∃ t r', exec (frameCommand l.rx b) s = .next t ∧ t.attempt? h.attempt = some r' ∧ r'.hdr = r.hdr ∧
       (r.state = .void → r'.state = .void) ∧
       (r.state ≠ .void → (∃ why, b = .void h why) → r'.state = .void) ∧
       (r.state = .green → (∃ p g n c, b = .phase h p g n c ∧ (p = .red ∨ p = .amber)) →
         r'.state = .called) ∧
       (r.state ≠ .void → (∀ why, b ≠ .void h why) →
         ¬(r.state = .green ∧ ∃ p g n c, b = .phase h p g n c ∧ (p = .red ∨ p = .amber)) →
         r'.state = if r.state.rank < (impliedState b).rank then impliedState b else r.state) ∧
       (∀ (res : ResultPayload) (p : ScoringPart) (v : Nat), b = .result res → s.loader.roles.jury = true →
         r.state ≠ .void → r.scoring = some p → p.stage = .sent → p.revision = some v → v ≤ res.revision →
         ∃ p', r'.scoring = some p' ∧ p'.stage = .published ∧ p'.copy = none ∧ p'.revision = some v ∧
           p'.computed = p.computed ∧ p'.marks = p.marks)) ∧
  (∀ (s : State) (l : LineHdr) (b : Body) (h : AttemptHdr), s.Echoes l b → b.hdr? = some h →
     s.attempt? h.attempt = none → s.table.length < 8 →
     ∃ t, exec (frameCommand l.rx b) s = .next t ∧
       ((∃ g, b = .call h g) ∧ s.loader.roles.jury = true ∨
           (∃ p g n c, b = .phase h p g n c) ∧ s.loader.roles.start = true ∧ s.loader.roles.jury = false →
         ∃ r, t.attempt? h.attempt = some r ∧ r.hdr = h ∧ r.state = impliedState b ∧ r.created = l.stamp ∧
           (∀ g, (b = .call h g ∨ ∃ p n c, b = .phase h p g n c) →
             r.juryGate = some g ∧ r.gateUsed = some g) ∧
           t.table.map (·.hdr) = s.table.map (·.hdr) ++ [h]) ∧
       ((∀ g, b ≠ .call h g) ∧ s.loader.roles.jury = true ∨
           (∀ p g n c, b ≠ .phase h p g n c) ∧ s.loader.roles.start = true ∧ s.loader.roles.jury = false →
         t.attempt? h.attempt = none ∧ t.table.map (·.hdr) = s.table.map (·.hdr))) ∧
  (∀ (s : State) (l : LineHdr) (h : AttemptHdr) (d : Nat) (q : Quality) (nt lc : Bool) (c : LandingContext),
     s.Echoes l (.landing h d q nt lc) → s.loader.roles.jury = true → s.context? h.attempt = some c →
     c.phase = .sent →
     ∃ t, exec (.landingFrame l.rx h d q nt lc) s = .next t ∧
       t.contexts = s.contexts.filter (fun x => x.attempt ≠ h.attempt)) ∧
  ((∀ (s : State) (l : LineHdr) (b : Body), s.resetAsserted = false →
     s.loader.state = .run ∨ s.loader.state = .invalid → s.line.tx = none →
     s.line.rx.skipping = false → l.inRange = true → b.inRange = true → l.sender = s.loader.station →
     ∃ t, exec (frameCommand l.rx b) s = .next t ∧
       t.loader = { s.loader with state := .muted (s.loader.state = .run) } ∧
       t.latch = s.latch.take .duplicateStation s.clock b.kind ∧
       t.line.urgent = [] ∧ t.line.routine = [] ∧ t.line.nextStatus = none ∧
       t.line.nextCorridor = none ∧ t.roster = s.roster ∧ t.table = s.table ∧
       (s.loader.roles.start = true → t.start.phase = .idle ∧ t.start.current = none ∧
         t.start.keptVoid = none ∧ t.start.rejectUntil = none) ∧
       { t with
         loader := s.loader, latch := s.latch, line := s.line, start := s.start
         console := s.console } = s) ∧
   (∀ (s : State) (l : LineHdr) (b : Body) (fromRun : Bool), s.resetAsserted = false →
     s.loader.state = .muted fromRun → s.line.tx = none → s.line.rx.skipping = false →
     l.inRange = true → b.inRange = true → l.sender = s.loader.station →
     exec (frameCommand l.rx b) s = .next { s with line := { s.line with
       quietUs := 0, busyUs := some (20 * (frameBytes l.sender l.event l.age b).length), rx := {} } }))

/-- The jury's STATUS gives its event number to a station that has none; no other STATUS changes it (R6). At a START
station a STATUS that brings its sender back to PRESENT, or changes the digest or the condition that the sender
announces, of another station or the station's own at its echo, has STATION and CONFIG evaluated: each is raised where
its condition begins, takes source and detail while it lasts, and is released where it ends, with the local digest
announced again by all that are PRESENT, or every required station ready; any other STATUS leaves the two as they
stand (R28, R30, R71). So a PRESENT station whose digest is not the local one closes the start by CONFIG; and where
the hold list empties in RED with the GO mark set, the phase becomes AMBER (R62). At a BOARD station the START part of
the start station's STATUS gives the known hold set and attempt (R176). -/
def Obligations.StatusFrameAtAStation : Prop :=
  ∀ (s : State) (l : LineHdr) (p : StatusPayload), s.Delivers l (.status p) → s.RosterSound →
    ∃ t, exec (.statusFrame l.rx p) s = .next t ∧
      t.line.eventNumber = (if s.line.eventNumber = 0 ∧ s.loader.roles.jury = false ∧
          s.loader.consts.stationWith (·.jury) = some l.sender then l.event else s.line.eventNumber) ∧
      (s.loader.roles.start = true →
        ((s.rosterAt l.sender).presence ≠ .present ∨
            (s.rosterAt l.sender).status.map (fun k => (k.payload.digest, k.payload.condition)) ≠
              some (p.digest, p.condition) → s.RosterHoldsFollow t) ∧
        ((s.rosterAt l.sender).presence = .present →
          (s.rosterAt l.sender).status.map (fun k => (k.payload.digest, k.payload.condition)) =
            some (p.digest, p.condition) →
          t.start.holds.filter (fun x => x.cause = .station ∨ x.cause = .config) =
            s.start.holds.filter (fun x => x.cause = .station ∨ x.cause = .config)) ∧
        (s.HoldsSound → t.start.standing .station = true ∨ t.start.standing .config = true →
          t.start.phase ≠ .amber ∧ t.start.phase ≠ .green) ∧
        (p.digest ≠ s.loader.digest →
          (s.rosterAt l.sender).status.map (·.payload.digest) ≠ some p.digest →
          t.start.standing .config = true) ∧
        (s.start.phase = .red → s.start.goMark = true → s.start.holds ≠ [] → t.start.holds = [] →
          t.start.phase = .amber)) ∧
      (s.loader.roles.board = true → s.loader.consts.stationWith (·.start) = some l.sender →
        ∀ q, p.start = some q → t.board.knownHolds = q.causes ∧ t.board.knownAttempt = q.attempt)

/-- A delivered EVENT, of another station or the jury's own at its echo, gives its number, empties the attempt
table, and the queues of all but STATUS, and ends the cycle of the sequencer (R6, R54, R68). Round 1 begins with an
empty results list at a board without JURY, and at the jury station at its own EVENT, which also drops the kept
copies and the start list, and leaves the last attempt number; the EVENT of another sender leaves the jury's
standings as they are, but for a CLOSING round that the removal of the records completes (R161, R163). The jury
takes the mode (R151). The model's choice: that no frame but STATUS waits afterwards rests at a START station on the
cycle ending before the backlog is counted (log entry 8), and the mode of another sender's EVENT is taken (log entry
51). -/
def Obligations.EventFrameBeginsAnEvent : Prop :=
  ∀ (s : State) (l : LineHdr) (n : Nat) (m : EventMode) (rounds : Nat),
    s.Delivers l (.event n m rounds) →
    ∃ t, exec (.eventFrame l.rx n m rounds) s = .next t ∧ t.line.eventNumber = n ∧ t.table = [] ∧
      (¬(s.loader.roles.jury = true ∧ l.sender ≠ s.loader.station ∧ s.standings.round.state = .closing) →
        ∀ f ∈ t.line.urgent ++ t.line.routine, f.body.kind = 0x01) ∧
      (s.loader.roles.start = true → s.CycleSound → t.start.phase = .idle ∧ t.start.current = none ∧
        t.start.keptVoid = none) ∧
      (s.loader.roles.jury = true ∧ l.sender = s.loader.station ∨
          s.loader.roles.jury = false ∧ s.loader.roles.board = true →
        t.standings.results = [] ∧ t.standings.roundsPlanned = some rounds ∧
        t.standings.round = { number := 1, state := .opened, refGate := none }) ∧
      (s.loader.roles.jury = true →
        t.scoring.mode = some m ∧ t.scoring.lastMarked = ⟨none, none, none, none, none⟩ ∧
        (l.sender = s.loader.station → t.standings.startList = [] ∧ t.standings.eventCopy = none ∧
          t.standings.roundCopies = [] ∧ t.standings.lastAttempt = s.standings.lastAttempt) ∧
        (l.sender ≠ s.loader.station → t.standings.eventCopy = s.standings.eventCopy ∧
          t.standings.results = s.standings.results ∧
          (s.standings.round.state ≠ .closing → t.standings = s.standings)))

/-! ## Frames at the start sequencer (R58 to R76) -/

/-- A CORRIDOR from the station that holds the mast stands in the corridor table, the WIND condition is evaluated, and,
where the entry is counted, fresh and out of band, WIND closes the start; from any other sender it leaves the table,
WIND and the settle timer as they were. A HOLD from the jury raises or releases JURY, and one from another sender
changes nothing of it (R59, R70, R73, R74; the source of WIND: log entry 63). -/
def Obligations.CorridorAndHoldFrames : Prop :=
  (∀ (s : State) (l : LineHdr) (mast : Nat) (x y : Int) (used : Nat) (f : CorridorFlags)
      (e : CorridorEntry),
    s.Takes l (.corridor mast x y used f) → s.loader.roles.start = true →
    e = ⟨mast, l.sender, x, y, used, f, l.stamp, false⟩ →
    ∃ t, exec (.corridorFrame l.rx mast x y used f) s = .next t ∧
      t.table.map (·.hdr) = s.table.map (·.hdr) ∧
      (s.loader.consts.mastStation mast = some l.sender → e ∈ t.start.corridor ∧
        s.WindFollows t ∧
        (s.HoldsSound → s.counted e = true → e.fresh s.clock = true →
          e.inBand s.loader.consts.corridor = false →
          t.start.standing .wind = true ∧ t.start.settleAt = none ∧
            t.start.phase ≠ .amber ∧ t.start.phase ≠ .green)) ∧
      (s.loader.consts.mastStation mast ≠ some l.sender → t.start.corridor = s.start.corridor ∧
        t.start.settleAt = s.start.settleAt ∧
        t.start.holds.filter (fun x => x.cause = .wind) = s.start.holds.filter (fun x => x.cause = .wind))) ∧
  (∀ (s : State) (l : LineHdr) (set : Bool), s.Takes l (.hold set) → s.loader.roles.start = true →
    ∃ t, exec (.holdFrame l.rx set) s = .next t ∧ t.table.map (·.hdr) = s.table.map (·.hdr) ∧
      (s.loader.consts.stationWith (·.jury) = some l.sender →
        t.start.standing .jury = set ∧
        (set = true → s.HoldsSound → t.start.phase ≠ .amber ∧ t.start.phase ≠ .green)) ∧
      (s.loader.consts.stationWith (·.jury) ≠ some l.sender →
        t.start.standing .jury = s.start.standing .jury))

/-- A CALL from the jury in IDLE, for an attempt without a record and a gate of the hill, begins a cycle in RED at
that gate with PHASE RED offered; in any other phase, at a gate beyond the hill's or from another sender it is
ignored. The CALL creates no record at the start station (R40, R58, R61). A GO from the jury for the current
attempt sets the GO mark in RED, and with an empty hold list brings AMBER with the ready timer; in AMBER, GREEN
and GONE it changes nothing, and one for another attempt, in IDLE or from another sender is ignored (R62). -/
def Obligations.CallAndGoFrames : Prop :=
  (∀ (s : State) (l : LineHdr) (h : AttemptHdr) (gate : Nat), s.Takes l (.call h gate) →
     s.loader.roles.start = true → (s.rosterAt l.sender).presence = .present →
     s.start.backlog = s.countBacklog → s.attempt? h.attempt = none →
     ∃ t, exec (.callFrame l.rx h gate) s = .next t ∧ t.table = s.table ∧
       (s.loader.consts.stationWith (·.jury) = some l.sender → s.start.phase = .idle →
         s.loader.state = .run → gate ≤ s.loader.consts.gates.count →
         t.start = { s.start with
           phase := .red, current := some h, juryGate := gate, gate := gate, goMark := false
           greenCount := 0, readyAt := none, windowAt := none, coach := .none, requested := none
           keptVoid := none, keptPhase := some ⟨.phase h .red gate 0 0, none⟩ } ∧
         (s.line.urgent.length < 8 → t.line.urgent =
           s.line.urgent ++ [⟨.phase h .red gate 0 0, s.line.eventNumber, none⟩])) ∧
       (s.loader.consts.stationWith (·.jury) ≠ some l.sender ∨ s.start.phase ≠ .idle ∨
         s.loader.consts.gates.count < gate → t.start = s.start ∧ t.line.urgent = s.line.urgent)) ∧
  (∀ (s : State) (l : LineHdr) (h c : AttemptHdr), s.Takes l (.go h) →
     s.loader.roles.start = true → (s.rosterAt l.sender).presence = .present →
     s.start.backlog = s.countBacklog → s.start.current = some c →
     ∃ t, exec (.goFrame l.rx h) s = .next t ∧
       (s.loader.consts.stationWith (·.jury) = some l.sender → c.attempt = h.attempt →
         s.start.phase = .red →
         (s.start.holds = [] → t.start = { s.start with
           phase := .amber, goMark := true, graceAt := none
           readyAt := some (s.clock + secondsT s.loader.consts.cycle.readyS)
           keptPhase := some ⟨.phase c .amber s.start.gate 0 s.start.greenCount, none⟩ }) ∧
         (s.start.holds ≠ [] → t.start = { s.start with goMark := true })) ∧
       (s.loader.consts.stationWith (·.jury) ≠ some l.sender ∨ c.attempt ≠ h.attempt ∨
         s.start.phase ≠ .red → t.start = s.start)) ∧
  (∀ (s : State) (l : LineHdr) (h : AttemptHdr), s.Takes l (.go h) →
     s.loader.roles.start = true → (s.rosterAt l.sender).presence = .present →
     s.start.backlog = s.countBacklog → s.start.phase = .idle → s.start.current = none →
     ∃ t, exec (.goFrame l.rx h) s = .next t ∧ t.start = s.start)

/-- A GATE from the jury in RED or AMBER for the current attempt. With no coach request standing, a new gate is
taken, and AMBER falls back to RED with the GO mark cleared; the acknowledging GATE of a PENDING request grants
it, takes the gate and releases COACH; any other withdraws it with a COACH offered, is then handled as without it, and
releases COACH, which in RED with the GO mark and no other cause brings AMBER; the acknowledging GATE of a GRANTED
request changes nothing. In IDLE, GREEN and GONE, and from another sender, it is ignored (R65, R76). -/
def Obligations.GateFrameAtTheSequencer : Prop :=
  (∀ (s : State) (l : LineHdr) (h : AttemptHdr) (gate : Nat) (ack : Bool), s.Takes l (.gate h gate ack) →
    s.loader.roles.start = true → (s.rosterAt l.sender).presence = .present →
    s.start.backlog = s.countBacklog → s.start.phase = .idle → s.start.current = none →
    ∃ t, exec (.gateFrame l.rx h gate ack) s = .next t ∧ t.start = s.start) ∧
  ∀ (s : State) (l : LineHdr) (h c : AttemptHdr) (gate : Nat) (ack : Bool), s.Takes l (.gate h gate ack) →
    s.loader.roles.start = true → (s.rosterAt l.sender).presence = .present →
    s.start.backlog = s.countBacklog → s.start.current = some c →
    ∃ t, exec (.gateFrame l.rx h gate ack) s = .next t ∧
      (s.loader.consts.stationWith (·.jury) = some l.sender → c.attempt = h.attempt →
        gate ≤ s.loader.consts.gates.count →
        (s.start.phase = .red → s.start.coach = .none ∨ s.start.coach = .withdrawn →
          t.start = { s.start with
            juryGate := if gate = s.start.gate then s.start.juryGate else gate
            gate := gate }) ∧
        (s.start.phase = .amber → s.start.coach = .none ∨ s.start.coach = .withdrawn →
          gate ≠ s.start.gate →
          t.start = { s.start with
            phase := .red, juryGate := gate, gate := gate, goMark := false, readyAt := none
            windowAt := none
            keptPhase := some ⟨.phase c .red gate 0 s.start.greenCount, none⟩ }) ∧
        (s.start.phase = .red ∨ s.start.phase = .amber → s.start.coach = .pending →
          s.start.requested = some gate →
          ack = true →
          t.start.gate = gate ∧ t.start.juryGate = s.start.juryGate ∧ t.start.coach = .granted ∧
            t.start.standing .coach = false) ∧
        (s.start.phase = .red ∨ s.start.phase = .amber →
          s.start.coach = .pending ∨ s.start.coach = .granted →
          ¬(s.start.requested = some gate ∧ ack = true) →
          t.start.gate = gate ∧ t.start.coach = .withdrawn ∧ t.start.standing .coach = false ∧
          t.start.juryGate = (if gate = s.start.gate then s.start.juryGate else gate) ∧
          (s.loader.state = .run → s.line.urgent.length < 8 → s.line.urgent ++
            [⟨.coach c s.start.juryGate (s.start.requested.getD 0) true, s.line.eventNumber, none⟩] <+:
              t.line.urgent) ∧
          (s.start.phase = .red → t.start.goMark = s.start.goMark ∧
            (t.start.phase = .amber ↔ s.start.standing .coach = true ∧ s.start.goMark = true ∧
              ∀ x ∈ s.start.holds, x.cause = .coach)) ∧
          (s.start.phase = .amber → gate = s.start.gate → t.start = { s.start with
            coach := .withdrawn, holds := s.start.holds.filter (fun x => x.cause ≠ .coach) }) ∧
          (s.start.phase = .amber → gate ≠ s.start.gate → t.start = { s.start with
            phase := .red, juryGate := gate, gate := gate, goMark := false, readyAt := none
            windowAt := none, coach := .withdrawn
            holds := s.start.holds.filter (fun x => x.cause ≠ .coach)
            keptPhase := some ⟨.phase c .red gate 0 s.start.greenCount, none⟩ })) ∧
        (s.start.coach = .granted → s.start.requested = some gate → ack = true →
          t.start = s.start)) ∧
      (s.loader.consts.stationWith (·.jury) ≠ some l.sender ∨ c.attempt ≠ h.attempt ∨
        s.loader.consts.gates.count < gate ∨ s.start.phase = .idle ∨ s.start.phase = .green ∨
        s.start.phase = .gone → t.start = s.start)

/-! ## Rounds and texts at a board (R165, R172, R177) -/

/-- A ROUND at a board without JURY: a lower round changes nothing; of the round held, REF_SET gives the reference
gate and CLOSED the state; a higher round becomes the round held. A jury station keeps its own record (the model's
choice for a ROUND of another sender: log entry 49). A TEXT from the jury interrupts a STANDINGS page and waits
behind the pages of its priority otherwise; from another sender it changes nothing. The page queue: LIVE and HOLD
have priority 1, RESULT and TEXT 2, STANDINGS 3. In a queue in priority order a page that joins stands behind every
entry of its own priority, and one that re-enters ahead of them (R171). A page that arrives is shown where there is
no current page or where it is better, the page that it interrupts re-entering, and joins the queue otherwise
(R172). In a queue of sixteen a page of priority 3 is dropped; any other makes room: the newest entry goes where it
has priority 3, else the first of priority 2; PAGE_DROPPED names the page that went (R173). -/
def Obligations.RoundAndTextFrames : Prop :=
  (∀ (s : State) (l : LineHdr) (r : Nat) (m : RoundMsg) (g : Nat), s.Takes l (.round r m g) →
    ∃ t, exec (.roundFrame l.rx r m g) s = .next t ∧ t.table.map (·.hdr) = s.table.map (·.hdr) ∧
      (s.loader.roles.jury = true → t.standings = s.standings) ∧
      (s.loader.roles.jury = false → s.loader.roles.board = true →
        t.standings = { s.standings with round :=
          if r < s.standings.round.number then s.standings.round
          else if r = s.standings.round.number then
            match m with
            | .opened => s.standings.round
            | .refSet => { s.standings.round with refGate := some g }
            | .closed => { s.standings.round with state := .closed }
          else
            { number := r
              state := if m = .closed then .closed else .opened
              refGate := if m = .refSet then some g else none } })) ∧
  (∀ (s : State) (l : LineHdr) (cs : List Byte), s.Takes l (.text cs) → s.loader.roles.board = true →
    ∃ t, exec (.textFrame l.rx cs) s = .next t ∧ t.standings = s.standings ∧
      (s.loader.consts.stationWith (·.jury) ≠ some l.sender → t.board = s.board) ∧
      (s.loader.consts.stationWith (·.jury) = some l.sender → s.board.queue.length < 16 →
        ∀ c, s.board.current = some c →
        (∀ i, c.entry.page = .standings i →
          t.board.current = some ⟨⟨.text cs, some (s.loader.consts.board.resultS * 10000)⟩,
            some (s.clock + ticks (s.loader.consts.board.resultS * 10000))⟩ ∧
          t.board.queue = reenterQueue c.entry s.board.queue ∧ t.board.ready = true ∧
          t.board.back = composeText cs) ∧
        ((∀ i, c.entry.page ≠ .standings i) →
          t.board.current = s.board.current ∧
          t.board.queue = joinQueue ⟨.text cs, some (s.loader.consts.board.resultS * 10000)⟩
            s.board.queue)) ∧
      (s.loader.consts.stationWith (·.jury) = some l.sender →
        t.board = (s.arrive ⟨.text cs, some (s.loader.consts.board.resultS * 10000)⟩).board)) ∧
  ((∀ n p g, (Page.live n p g).priority = 1) ∧ Page.hold.priority = 1 ∧
   (∀ r, (Page.result r).priority = 2 ∧ (Page.result r).code = 2 ∧ (Page.result r).which = r.hdr.attempt) ∧
   (∀ cs, (Page.text cs).priority = 2 ∧ (Page.text cs).code = 3) ∧
   (∀ i, (Page.standings i).priority = 3 ∧ (Page.standings i).code = 4 ∧ (Page.standings i).which = i)) ∧
  (∀ (e : PageEntry) (q : List PageEntry) (p : PageEntry → Nat), (∀ f, p f = f.page.priority) →
    q.Pairwise (fun a b => p a ≤ p b) →
    joinQueue e q = q.filter (fun f => p f ≤ p e) ++ e :: q.filter (fun f => p e < p f) ∧
    reenterQueue e q = q.filter (fun f => p f < p e) ++ e :: q.filter (fun f => p e ≤ p f)) ∧
  (∀ (s : State) (e : PageEntry),
    (s.board.current = none → (s.arrive e).board = { s.board with
      current := some ⟨e, e.duration.map (fun d => s.clock + ticks d)⟩
      back := s.compose e.page, ready := true, shownSeconds := s.liveSeconds e.page }) ∧
    ∀ (c : CurrentPage) (better : Bool) (w : PageEntry) (put : PageEntry → List PageEntry → List PageEntry),
      s.board.current = some c → better = decide (e.page.priority < c.entry.page.priority) →
      w = (if better then c.entry else e) → put = (if better then reenterQueue else joinQueue) →
      (better = true → (s.arrive e).board.back = s.compose e.page ∧ (s.arrive e).board.ready = true ∧
        (s.arrive e).board.current = some ⟨e, e.duration.map (fun d => s.clock + ticks d)⟩) ∧
      (better = false →
        (s.arrive e).board = { s.board with queue := (s.arrive e).board.queue }) ∧
      (s.board.queue.length < 16 →
        (s.arrive e).board.queue = put w s.board.queue ∧ (s.arrive e).console = s.console) ∧
      (16 ≤ s.board.queue.length →
        (w.page.priority = 3 → (s.arrive e).board.queue = s.board.queue ∧
          (s.arrive e).console = (s.raise (.pageDropped w.page.code w.page.which)).console) ∧
        (w.page.priority ≠ 3 →
          (∀ front x, s.board.queue = front ++ [x] → x.page.priority = 3 →
            (s.arrive e).board.queue = put w front ∧
            (s.arrive e).console = (s.raise (.pageDropped x.page.code x.page.which)).console) ∧
          (∀ front x back, s.board.queue = front ++ x :: back → x.page.priority = 2 →
            (∀ f ∈ front, f.page.priority = 1) → (∀ f ∈ back, f.page.priority ≠ 3) →
            (s.arrive e).board.queue = put w (front ++ back) ∧
            (s.arrive e).console = (s.raise (.pageDropped x.page.code x.page.which)).console))))

/-! ## The attempt tracker (R35 to R54) -/

/-- A delivered frame of a known attempt moves its record by R36 to R39: a VOID record takes nothing; a VOID makes
any other VOID; at the start station a frame of another station leaves a record in CALLED or GREEN where it is;
PHASE RED and AMBER bring GREEN back to CALLED; and else the record goes to the state that the frame implies,
never back, at the start station too for a record past GREEN. The header of the record stays. A frame of an unknown
attempt creates its record at a station with neither START nor JURY while the table has room: in the state that its
kind implies, with its stamp as the creation stamp. At a JURY or START station a frame of another station creates none
(R40, R41). -/
def Obligations.AttemptsFollowTheFrames : Prop :=
  (∀ (s : State) (l : LineHdr) (b : Body) (h : AttemptHdr) (r : AttemptRecord), s.Takes l b →
     b.hdr? = some h → s.attempt? h.attempt = some r →
     ∃ t r', exec (frameCommand l.rx b) s = .next t ∧ t.attempt? h.attempt = some r' ∧ r'.hdr = r.hdr ∧
       r'.created = r.created ∧
       (r.state = .void → r'.state = .void) ∧
       (r.state ≠ .void → (∃ why, b = .void h why) → r'.state = .void ∧
         (s.loader.roles.jury = true → r'.scoring = none)) ∧
       (r.state ≠ .void → (∀ why, b ≠ .void h why) →
         (s.loader.roles.start = true → r.state = .called ∨ r.state = .green → r'.state = r.state) ∧
         (¬(s.loader.roles.start = true ∧ (r.state = .called ∨ r.state = .green)) →
           (r.state = .green → (∃ p g n c, b = .phase h p g n c ∧ (p = .red ∨ p = .amber)) →
             r'.state = .called) ∧
           (¬(r.state = .green ∧ ∃ p g n c, b = .phase h p g n c ∧ (p = .red ∨ p = .amber)) →
             r'.state = if r.state.rank < (impliedState b).rank then impliedState b else r.state)) ∧
         (r.state.rank ≤ r'.state.rank ∨ r.state = .green ∧ r'.state = .called))) ∧
  (∀ (s : State) (l : LineHdr) (b : Body) (h : AttemptHdr), s.Takes l b → b.hdr? = some h →
     s.attempt? h.attempt = none →
     ∃ t, exec (frameCommand l.rx b) s = .next t ∧
       (s.loader.roles.jury = true ∨ s.loader.roles.start = true → t.attempt? h.attempt = none ∧
         t.table.map (·.hdr) = s.table.map (·.hdr)) ∧
       (s.loader.roles.jury = false → s.loader.roles.start = false → s.table.length < 8 →
         ∃ r, t.attempt? h.attempt = some r ∧ r.hdr = h ∧ r.state = impliedState b ∧
           r.created = l.stamp ∧ t.table.map (·.hdr) = s.table.map (·.hdr) ++ [h]))

/-- What PHASE RED and AMBER, GATE and COACH, delivered of another station or as the station's own, write into a
record in CALLED, which they leave in place: a PHASE the gate used, the green count, and the jury gate where none is
held; a GATE in CALLED the jury gate and gate used, or the grant or withdrawal of a request; a COACH in CALLED the
request (R45 to R47). The scoring part apart, nothing else of the record changes but TIME_SATURATED (R44; that a
saturated COACH sets it where it writes nothing else is the model's choice, log entry 44). For a record in any other
state a GATE and a COACH write nothing and leave the state; that a saturated one sets TIME_SATURATED, but for a VOID
record, is the model's choice (R45, R46; log entry 44). -/
def Obligations.CalledRecordsAreWritten : Prop :=
  (∀ (s : State) (l : LineHdr) (h : AttemptHdr) (r : AttemptRecord) (sat : AttemptFlags),
    s.attempt? h.attempt = some r → r.state = .called →
    sat = { r.flags with timeSaturated := r.flags.timeSaturated || l.saturated } →
    (∀ p g n c, s.Delivers l (.phase h p g n c) → p = .red ∨ p = .amber →
      ∃ t r', exec (.phaseFrame l.rx h p g n c) s = .next t ∧ t.attempt? h.attempt = some r' ∧
        { r' with scoring := r.scoring } = { r with
          flags := sat, gateUsed := some g, greenCount := c
          juryGate := if r.juryGate = none then some g else r.juryGate }) ∧
    (∀ g ack, s.Delivers l (.gate h g ack) →
      ∃ t r', exec (.gateFrame l.rx h g ack) s = .next t ∧ t.attempt? h.attempt = some r' ∧
        { r' with scoring := r.scoring } =
          if (r.coach = .pending ∨ r.coach = .granted) ∧ ack = true ∧ r.requested = some g then
            { r with
              flags := sat, coach := .granted
              gateUsed := if r.coach = .pending then some g else r.gateUsed }
          else { r with
            flags := sat, juryGate := some g, gateUsed := some g
            coach := if r.coach = .none then .none else .withdrawn }) ∧
    (∀ g q w, s.Delivers l (.coach h g q w) →
      ∃ t r', exec (.coachFrame l.rx h g q w) s = .next t ∧ t.attempt? h.attempt = some r' ∧
        { r' with scoring := r.scoring } =
          if w = true then { r with
            flags := sat, coach := if r.coach = .pending then .withdrawn else r.coach }
          else if r.coach = .none ∨ r.coach = .withdrawn then { r with
            flags := sat, coach := .pending, requested := some q, juryGate := some g }
          else { r with flags := sat })) ∧
  (∀ (s : State) (l : LineHdr) (b : Body) (h : AttemptHdr) (r : AttemptRecord), s.Delivers l b →
    s.attempt? h.attempt = some r → r.state ≠ .called →
    (∃ g ack, b = .gate h g ack) ∨ (∃ g q w, b = .coach h g q w) →
    ∃ t r', exec (frameCommand l.rx b) s = .next t ∧ t.attempt? h.attempt = some r' ∧
      { r' with scoring := r.scoring } =
        if r.state = .void then r
        else { r with flags := { r.flags with timeSaturated := r.flags.timeSaturated || l.saturated } })

/-- What PHASE, LEAVE, SPEED and TAKEOFF, delivered of another station or as the station's own, write into the record of
a known attempt, not VOID: a PHASE of any phase the gate used, the green count and, where none is held, the jury gate,
and RED and AMBER take GREEN back to CALLED; the first leave time and LEFT_ON_HOLD; the speed; the first takeoff time,
each time being the event time of R8; at a START station a frame of another station leaves the state of a record in
CALLED or GREEN (R38, R39, R47, R48, R49). -/
def Obligations.FlightRecordsAreWritten : Prop :=
  ∀ (s : State) (l : LineHdr) (h : AttemptHdr) (r : AttemptRecord) (sat : AttemptFlags)
      (stays : Bool),
    s.attempt? h.attempt = some r → r.state ≠ .void →
    (stays = true ↔ s.loader.roles.start = true ∧ l.sender ≠ s.loader.station ∧
      (r.state = .called ∨ r.state = .green)) →
    sat = { r.flags with timeSaturated := r.flags.timeSaturated || l.saturated } →
    (∀ p g sec n, s.Delivers l (.phase h p g sec n) →
      ∃ t r', exec (.phaseFrame l.rx h p g sec n) s = .next t ∧ t.attempt? h.attempt = some r' ∧
        { r' with scoring := r.scoring } = { r with
          state :=
            if stays = true then r.state
            else if r.state = .green ∧ (p = .red ∨ p = .amber) then .called
            else if p = .green ∧ r.state = .called then .green
            else if p = .gone ∧ (r.state = .called ∨ r.state = .green) then .onInrun
            else r.state
          gateUsed := some g, greenCount := n
          juryGate := if r.juryGate = none then some g else r.juryGate
          flags := sat }) ∧
    (∀ held, s.Delivers l (.leave h held) →
      ∃ t r', exec (.leaveFrame l.rx h held) s = .next t ∧ t.attempt? h.attempt = some r' ∧
        { r' with scoring := r.scoring } = { r with
          state := if (r.state = .called ∨ r.state = .green) ∧ stays = false then .onInrun else r.state
          leaveTime := if r.leaveTime = none then some l.eventTime else r.leaveTime
          flags := { sat with leftOnHold := r.flags.leftOnHold || held } }) ∧
    (∀ v, s.Delivers l (.speed h v) →
      ∃ t r', exec (.speedFrame l.rx h v) s = .next t ∧ t.attempt? h.attempt = some r' ∧
        { r' with scoring := r.scoring } = { r with
          state := if (r.state = .called ∨ r.state = .green) ∧ stays = false then .onInrun else r.state
          speed := some v, flags := sat }) ∧
    (∀ n, s.Delivers l (.takeoff h n) →
      ∃ t r', exec (.takeoffFrame l.rx h n) s = .next t ∧ t.attempt? h.attempt = some r' ∧
        { r' with scoring := r.scoring } = { r with
          state := if r.state.rank < 3 ∧ stays = false then .airborne else r.state
          takeoffTime := if r.takeoffTime = none then some l.eventTime else r.takeoffTime
          flags := sat })

/-- What LANDING, RESULT and VOID, delivered of another station or as the station's own, write into the record of a
known attempt, not VOID: the first LANDING the landing time, quality, distance and its flags; a RESULT of a newer
revision its values, an older one nothing; a VOID its reason (R39, R50 to R52). That an older RESULT sets not even
TIME_SATURATED is the model's choice: log entry 20. What a frame does to the other records. One that puts a record into
a flight state, by moving it up or by creating it, at a START station as at any other, forces every other record in a
flight state to LANDED, with MISSED, and leaves the rest; one that puts none there leaves every other record (R43).
Where a full table is to hold a new record, the ended record with the oldest creation stamp goes; with none ended, a
live new record takes the place of the oldest, with TABLE_EVICT of its number, and an ended one is not created (R42).
At a START station the backlog count is at once the number of records in ON_INRUN, AIRBORNE and LANDED that R43 has not
forced out of GREEN (R55), and BACKLOG follows it: where the count has changed, BACKLOG is raised with the own number
and the count once the count has come to the limit, takes the count while it stands, and is released below the limit
(R72; its raise time is left out where the own frame makes room in a full table, which changes the count twice). -/
def Obligations.EndedRecordsAreWritten : Prop :=
 (  ∀ (s : State) (l : LineHdr) (h : AttemptHdr) (r : AttemptRecord) (sat : AttemptFlags)
      (stays : Bool),
    s.attempt? h.attempt = some r → r.state ≠ .void →
    (stays = true ↔ s.loader.roles.start = true ∧ l.sender ≠ s.loader.station ∧
      (r.state = .called ∨ r.state = .green)) →
    sat = { r.flags with timeSaturated := r.flags.timeSaturated || l.saturated } →
    (∀ d q nt lc, s.Delivers l (.landing h d q nt lc) →
      ∃ t r', exec (.landingFrame l.rx h d q nt lc) s = .next t ∧ t.attempt? h.attempt = some r' ∧
        { r' with scoring := r.scoring } =
          if r.quality = none then { r with
            state := if r.state.rank < 4 ∧ stays = false then .landed else r.state
            landingTime := some l.eventTime, quality := some q
            distance := if q = .none then r.distance else some d
            flags := { sat with
              noTakeoff := r.flags.noTakeoff || nt, lateContact := r.flags.lateContact || lc } }
          else { r with
            state := if r.state.rank < 4 ∧ stays = false then .landed else r.state
            flags := sat }) ∧
    (∀ p : ResultPayload, p.hdr = h → s.Delivers l (.result p) →
      ∃ t r', exec (.resultFrame l.rx p) s = .next t ∧ t.attempt? h.attempt = some r' ∧
        { r' with scoring := r.scoring } =
          if (∀ v, r.revision = some v → v < p.revision) then { r with
            state := if stays = true then r.state else .published, revision := some p.revision, distance := some p.distance
            quality := some (if p.flags.manualDistance then .manual else p.quality)
            speed := if p.speed = none then r.speed else p.speed
            gateUsed := some p.gateUsed
            flags := { sat with timeSaturated := sat.timeSaturated || p.flags.timeSaturated } }
          else { r with state := if stays = true then r.state else .published }) ∧
    (∀ why, s.Delivers l (.void h why) →
      ∃ t r', exec (.voidFrame l.rx h why) s = .next t ∧ t.attempt? h.attempt = some r' ∧
        { r' with scoring := none } = { r with
          state := .void, voidReason := some why, flags := sat, scoring := none })) ∧
  (∀ (s : State) (l : LineHdr) (b : Body) (h : AttemptHdr) (moves creates : Prop), s.Delivers l b →
     b.hdr? = some h →
     (moves ↔ ∃ r, s.attempt? h.attempt = some r ∧ r.state.rank < (impliedState b).rank ∧
       ¬(s.loader.roles.start = true ∧ l.sender ≠ s.loader.station ∧ (r.state = .called ∨ r.state = .green))) →
     (creates ↔ s.attempt? h.attempt = none ∧ s.loader.roles.jury = false ∧
       (s.loader.roles.start = false ∨ l.sender = s.loader.station ∧ ∃ p g sec n, b = .phase h p g sec n)) →
     ∃ t, exec (frameCommand l.rx b) s = .next t ∧
       ∀ q, s.attempt? q.hdr.attempt = some q → q.hdr.attempt ≠ h.attempt →
         (s.table.length < 8 ∨ s.attempt? h.attempt ≠ none → ∃ q', t.attempt? q.hdr.attempt = some q') ∧
         ∀ q', t.attempt? q.hdr.attempt = some q' →
           ((moves ∨ creates) → (impliedState b).flight = true → q.state.flight = true →
             { q' with scoring := q.scoring } = { q with
               state := .landed, flags := { q.flags with missed := true }
               forcedFromGreen := decide (q.state = .green) }) ∧
           (¬(moves ∨ creates) ∨ (impliedState b).flight = false ∨ q.state.flight = false →
             { q' with scoring := q.scoring } = q)) ∧
  (∀ (s : State) (l : LineHdr) (b : Body) (h : AttemptHdr) (old : AttemptRecord), s.Takes l b →
     s.loader.roles.jury = false → s.loader.roles.start = false → b.hdr? = some h →
     s.attempt? h.attempt = none → 8 ≤ s.table.length → s.TableSound → old ∈ s.table →
     (old.state = .published ∨ old.state = .void →
       (∀ q ∈ s.table, q ≠ old → q.state = .published ∨ q.state = .void →
         since s.clock q.created < since s.clock old.created) →
       ∃ t, exec (frameCommand l.rx b) s = .next t ∧
         t.table.map (·.hdr) = (s.table.filter (fun q => q ≠ old)).map (·.hdr) ++ [h]) ∧
     ((∀ q ∈ s.table, q.state ≠ .published ∧ q.state ≠ .void) →
       (∀ q ∈ s.table, q ≠ old → since s.clock q.created < since s.clock old.created) →
       (impliedState b ≠ .published → impliedState b ≠ .void →
         ∃ t, exec (frameCommand l.rx b) s = .next t ∧
           t.table.map (·.hdr) = (s.table.filter (fun q => q ≠ old)).map (·.hdr) ++ [h] ∧
           (s.latch.record = none → t.latch.record = some ⟨.tableEvict, s.clock, old.hdr.attempt⟩)) ∧
       (impliedState b = .published ∨ impliedState b = .void →
         ∃ t, exec (frameCommand l.rx b) s = .next t ∧
           t.table.map (fun r => { r with scoring := none }) =
             s.table.map (fun r => { r with scoring := none })))) ∧
  (∀ (s : State) (l : LineHdr) (b : Body), s.Delivers l b → s.loader.roles.start = true →
     ∃ t, exec (frameCommand l.rx b) s = .next t ∧
       t.start.backlog = (t.table.filter (fun r => !r.forcedFromGreen &&
         (r.state == .onInrun || r.state == .airborne || r.state == .landed))).length ∧
       (s.BacklogSound → t.BacklogSound) ∧
       (l.sender ≠ s.loader.station ∨ s.table.length < 8 ∨ (∀ h, b.hdr? = some h → s.attempt? h.attempt ≠ none) →
         t.start.holds.filter (fun x => x.cause = .backlog) =
           (s.holdsAtBacklog t.start.backlog).filter (fun x => x.cause = .backlog)))

/-! ## Landing, scoring and wind at a delivered frame (R106, R122 to R126, R133, R134) -/

/-- At the jury station the first LANDING delivered, of another station's sending or the jury's own at its echo,
gives the scoring part its distance, or the manual distance of a context in SENT (R128), and opens the gather, with
its deadline counted from the LANDING's stamp; the gather stays open until every expected mast has an entry. Where
all have one, or with the MASTMEAN that brings the last, it is DONE and the scoring test is made: passed, the part
is SENT with revision 0 and the RESULT of R140 to R145, which is kept (R133, R135, R138, R146). At a MAST station
the LANDING closes the flight window: one MASTMEAN for the attempt, with the mean, the samples used and the PARTIAL
mark of the window, is offered and kept (R106 to R109). A MASTMEAN from the station that holds a scoring mast enters
the attempt's means list, until the gather is DONE; any other is ignored (R134). The mean of a record is that of the
samples from its takeoff time less the pre-window to its landing time, both included, rounded half away; none
without both times or without a sample; PARTIAL where the oldest retained sample lies after the start (R107). A mast
is expected where its entry carries the scoring flag and its station is PRESENT (R133). The reference gate is that
of the round record for the attempt's round, else the jury gate (R142). -/
def Obligations.LandingAndMeansAtTheJury : Prop :=
  (∀ (s : State) (l : LineHdr) (h : AttemptHdr) (d : Nat) (q : Quality) (nt lc : Bool) (r : AttemptRecord),
     s.Delivers l (.landing h d q nt lc) → (s.rosterAt l.sender).presence = .present →
     s.attempt? h.attempt = some r → r.state = .airborne ∨ r.state = .landed →
     ∃ t, exec (.landingFrame l.rx h d q nt lc) s = .next t ∧
       (s.loader.roles.jury = true → ∀ p dist, r.scoring = some p → p.gather = .notOpen →
         p.distance = none → r.quality = none →
         dist = (match s.manualGiven l h.attempt p with
           | some m => some (m, .manual)
           | none => if q = .none then none else some (d, q)) →
         (s.expectedMasts.all (fun m => p.means.any (·.mast == m)) = false →
           ∃ p', t.part? h.attempt = some p' ∧ p' = { p with
             gather := .opened
             deadline := some (l.stamp + secondsT s.loader.consts.flight.gatherS)
             distance := dist }) ∧
         (s.expectedMasts.all (fun m => p.means.any (·.mast == m)) = true →
           ∃ r' p', t.attempt? h.attempt = some r' ∧ r'.scoring = some p' ∧ p'.gather = .done ∧
             p'.deadline = none ∧ p'.distance = dist ∧
             p'.means = p.means ∧ p'.marks = p.marks ∧
             (p.stage = .waiting →
               (p'.stage = .sent ↔ s.Publishes r' p') ∧
               (p'.stage = .sent → p'.revision = some 0 ∧
                 p'.copy = some (s.computeResult r' p' (s.referenceGate r') 0))))) ∧
       (s.loader.roles.mast = true → s.wind.hasMean h.attempt = false → r.quality = none →
         ∀ mean used part body,
           (mean, used, part) = s.flightMean { r with landingTime := some l.eventTime } →
           body = .mastMean r.hdr s.loader.mast mean used part →
           t.wind = { s.wind with means := s.wind.means ++ [⟨h.attempt, some body, false⟩] } ∧
           (s.loader.roles.start = false → s.loader.state = .run → s.line.urgent.length < 8 →
             s.line.urgent ++ [⟨body, s.line.eventNumber, none⟩] <+: t.line.urgent))) ∧
  (∀ (s : State) (l : LineHdr) (h : AttemptHdr) (mast : Nat) (mean : Option Int) (used : Nat) (part : Bool)
       (r : AttemptRecord) (p : ScoringPart),
     s.Delivers l (.mastMean h mast mean used part) → (s.rosterAt l.sender).presence = .present →
     s.loader.roles.jury = true → s.attempt? h.attempt = some r → r.state ≠ .void → r.scoring = some p →
     ∃ t p', exec (.mastmeanFrame l.rx h mast mean used part) s = .next t ∧ t.part? h.attempt = some p' ∧
       p'.marks = p.marks ∧ p'.distance = p.distance ∧
       (s.loader.consts.mastStation mast = some l.sender → s.loader.consts.isScoring mast = true →
         p.gather ≠ .done → p'.means = putMean ⟨mast, mean, used, part⟩ p.means ∧
         (p.gather = .opened → ∀ r', t.attempt? h.attempt = some r' →
           (p'.gather = .done ↔ s.expectedMasts.all (fun m => p'.means.any (·.mast == m)) = true) ∧
           (p.stage = .waiting →
             (p'.stage = .sent ↔ p'.gather = .done ∧ r.state ≠ .published ∧ s.Publishes r' p') ∧
             (p'.stage = .sent → p'.revision = some 0 ∧
               p'.copy = some (s.computeResult r' p' (s.referenceGate r') 0))))) ∧
       (s.loader.consts.mastStation mast ≠ some l.sender ∨ s.loader.consts.isScoring mast = false ∨
         p.gather = .done → p' = p)) ∧
  (∀ (s : State) (r : AttemptRecord),
     (r.takeoffTime = none ∨ r.landingTime = none → s.flightMean r = (none, 0, false)) ∧
     (∀ (takeoff stop start : Tick) (xs : List Sample), r.takeoffTime = some takeoff →
       r.landingTime = some stop → start = takeoff - ticks (s.loader.consts.wind.preWindowMs * 10) →
       xs = (if 0 < since start stop then []
         else s.wind.ring.filter (fun x => 0 ≤ since x.time start && 0 ≤ since stop x.time)) →
       (xs = [] → s.flightMean r = (none, 0, false)) ∧
       (xs ≠ [] → ∃ part, s.flightMean r = (some (roundHalfAway (xs.map Sample.x).sum xs.length), xs.length, part) ∧
         (part = true ↔ ∃ o, s.wind.ring.head? = some o ∧ 0 < since o.time start)))) ∧
  (∀ (s : State) (m : Nat), m ∈ s.expectedMasts ↔ ∃ e st, s.loader.consts.masts.find? (·.mast == m) = some e ∧
     e.scoring = true ∧ s.loader.consts.mastStation m = some st ∧ (s.rosterAt st).presence = .present) ∧
  (∀ (s : State) (r : AttemptRecord),
     (∀ g, s.standings.round.refGate = some g → s.standings.round.number = r.hdr.round →
       s.referenceGate r = g) ∧
     (∀ g, s.standings.round.refGate = none ∨ s.standings.round.number ≠ r.hdr.round → r.juryGate = some g →
       s.referenceGate r = g))

/-- The resolver at frames of the span stations, for an attempt in AIRBORNE with a context in FLIGHT_WAIT. An
IN_VIEW adds the span's claim, whose first suspends the flight timer with its remaining ticks; a VIEW_LOST
removes it, and the last one's removal runs the timer again; a CONTACT enters the contact set, stops the timer,
and sets the anchor and the resolution time. A frame that the span's own station did not send changes no context
(R122, R125, R126). -/
def Obligations.SpanFramesAtTheResolver : Prop :=
  ∀ (s : State) (l : LineHdr) (h : AttemptHdr) (span : Nat) (r : AttemptRecord) (c : LandingContext),
    s.loader.roles.jury = true → (s.rosterAt l.sender).presence = .present →
    s.attempt? h.attempt = some r → r.state = .airborne → s.context? h.attempt = some c →
    c.phase = .flightWait →
    (s.Takes l (.inView h span) → ∃ t, exec (.inViewFrame l.rx h span) s = .next t ∧
      (s.loader.consts.spanStation span = some l.sender →
        (c.claimed.contains span = false →
          before s.clock (l.eventTime + secondsT s.loader.consts.flight.viewS) = true →
          ∃ c', t.context? h.attempt = some c' ∧ c' = { c with
            claims := c.claims ++
              [⟨l.sender, span, l.eventTime + secondsT s.loader.consts.flight.viewS⟩]
            claimed := c.claimed ++ [span]
            timer := match c.claims, c.timer with
              | [], .running e => .suspended (e - s.clock)
              | _, v => v }) ∧
        (c.claimed.contains span = true → t.context? h.attempt = some c)) ∧
      (s.loader.consts.spanStation span ≠ some l.sender → t.contexts = s.contexts)) ∧
    (∀ why, s.Takes l (.viewLost h span why) → ∃ t, exec (.viewLostFrame l.rx h span why) s = .next t ∧
      (s.loader.consts.spanStation span = some l.sender →
        ∃ c', t.context? h.attempt = some c' ∧
          c'.claims = c.claims.filter (fun k => k.span ≠ span) ∧
          c'.timer = (match c.timer with
            | .suspended left =>
              if c.claims ≠ [] ∧ c'.claims = [] then .running (s.clock + left) else .suspended left
            | v => v) ∧
          { c' with claims := c.claims, timer := c.timer } = c) ∧
      (s.loader.consts.spanStation span ≠ some l.sender → t.contexts = s.contexts)) ∧
    (∀ track pos, s.Takes l (.contact h span track pos) →
      ∃ t, exec (.contactFrame l.rx h span track pos) s = .next t ∧
      (s.loader.consts.spanStation span = some l.sender → c.contacts = [] →
        reached s.clock (l.eventTime + millisT s.loader.consts.flight.pairingMs + 500) = false →
        t.context? h.attempt = some { c with
          phase := .pairing, timer := .stopped, claims := []
          contacts := [⟨span, track, pos, l.eventTime⟩], anchor := l.eventTime
          resolveAt := l.eventTime + millisT s.loader.consts.flight.pairingMs + 500 }) ∧
      (s.loader.consts.spanStation span ≠ some l.sender → t.contexts = s.contexts))

/-- The results list of a jury or board station at a RESULT and a VOID delivered, of another station or the jury's own
at its echo. A RESULT without TRIAL makes the round's status
OK with its total, unless the status is DSQ, or the same attempt's with an equal or greater revision; a VOID DSQ,
FALSE_START or LATE makes it DSQ whatever it held; DNS and WITHDRAWN give theirs where the round is neither OK nor
DSQ. A bib without an entry gets one, the other rounds at none, while fewer than 80 entries are listed, and else is
not listed, with RESULTS_FULL. The other rounds of the entry, and every other bib's entry, stay. A RESULT with TRIAL,
a VOID REPEAT and a frame of bib 0 leave the list as it was (R166, R167). -/
def Obligations.ResultsListFollowsTheFrames : Prop :=
  (∀ (s : State) (l : LineHdr) (b : Body) (h : AttemptHdr) (f : RoundStatus → RoundStatus),
    s.loader.roles.jury = true ∨ s.loader.roles.board = true → s.Delivers l b → h.bib ≠ 0 →
    (∃ p, b = .result p ∧ p.hdr = h ∧ p.flags.trial = false ∧ f = fun held => match held with
        | .dsq a => .dsq a
        | .ok total a v =>
          if a = h.attempt ∧ p.revision ≤ v then .ok total a v else .ok p.total h.attempt p.revision
        | _ => .ok p.total h.attempt p.revision) ∨
      (∃ why, b = .void h why ∧ (why = .dsq ∨ why = .falseStart ∨ why = .late) ∧ f = fun _ => .dsq h.attempt) ∨
      (b = .void h .dns ∧ f = fun held => match held with
        | .ok total a v => .ok total a v
        | .dsq a => .dsq a
        | _ => .dns h.attempt) ∨
      (b = .void h .withdrawn ∧ f = fun held => match held with
        | .ok total a v => .ok total a v
        | .dsq a => .dsq a
        | _ => .withdrawn h.attempt) →
    ∃ t, exec (frameCommand l.rx b) s = .next t ∧
      (∀ o, s.standings.results.find? (fun e => e.bib == h.bib) = some o →
        ∃ e ∈ t.standings.results, e.bib = h.bib ∧ e.rounds.get h.round = f (o.rounds.get h.round) ∧
          ∀ k, 1 ≤ k → k ≤ 4 → k ≠ h.round → e.rounds.get k = o.rounds.get k) ∧
      ((∀ e ∈ s.standings.results, e.bib ≠ h.bib) →
        (s.standings.results.length < 80 →
          ∃ e ∈ t.standings.results, e.bib = h.bib ∧ e.rounds.get h.round = f .none ∧
            ∀ k, 1 ≤ k → k ≤ 4 → k ≠ h.round → e.rounds.get k = .none) ∧
        (80 ≤ s.standings.results.length → t.standings.results = s.standings.results)) ∧
      (∀ e, e.bib ≠ h.bib → (e ∈ t.standings.results ↔ e ∈ s.standings.results))) ∧
  (∀ (s : State) (l : LineHdr),
    (∀ p : ResultPayload, s.Delivers l (.result p) → p.hdr.bib = 0 ∨ p.flags.trial = true →
      ∃ t, exec (.resultFrame l.rx p) s = .next t ∧ t.standings.results = s.standings.results) ∧
    (∀ (h : AttemptHdr) (why : VoidReason), s.Delivers l (.void h why) → h.bib = 0 ∨ why = .repeatJump →
      ∃ t, exec (.voidFrame l.rx h why) s = .next t ∧ t.standings.results = s.standings.results)) ∧
  (∀ (s : State) (h : AttemptHdr), h.bib ≠ 0 → (∀ e ∈ s.standings.results, e.bib ≠ h.bib) →
    80 ≤ s.standings.results.length →
    (∀ p : ResultPayload, p.hdr = h → p.flags.trial = false →
      s.listResult p = s.raise (.resultsFull h.bib)) ∧
    (∀ why, why ≠ .repeatJump → s.listVoid h why = s.raise (.resultsFull h.bib)))

/-- STATION_SILENT takes effect when 10,000 ticks have passed since the entry's last heard stamp: the entry becomes
SILENT and keeps what it heard; at the START station STATION and CONFIG are evaluated, and its silence, where the
station is required, closes the start by STATION; at the jury its claims end (R29, R71, R125). Before that nothing
happens: the model's choice, log entry 2. -/
def Obligations.StationSilence : Prop :=
  (∀ (s : State) (n : Nat) (heard : Tick), s.RosterSound → n < 16 →
    (s.rosterAt n).presence = .present → (s.rosterAt n).lastHeard = some heard →
    10000 ≤ since s.clock heard →
    ∃ t, exec (.stationSilent n) s = .next t ∧
      t.rosterAt n = { s.rosterAt n with presence := .silent } ∧
      (∀ m, m ≠ n → t.rosterAt m = s.rosterAt m) ∧
      (s.loader.roles.start = true → s.RosterHoldsFollow t) ∧
      (s.loader.roles.start = true → n ∈ s.loader.consts.required → s.HoldsSound →
        t.start.standing .station = true ∧ t.start.phase ≠ .amber ∧ t.start.phase ≠ .green) ∧
      (s.loader.roles.jury = true → ∀ c ∈ t.contexts, c.phase = .flightWait →
        ∀ k ∈ c.claims, k.station ≠ n) ∧
      t.edge = s.edge ∧ t.wind = s.wind ∧ t.span = s.span ∧ t.standings = s.standings ∧
      t.board = s.board ∧ t.line.eventNumber = s.line.eventNumber) ∧
  (∀ (s : State) (n : Nat), (s.rosterAt n).silentDue s.clock = false →
    exec (.stationSilent n) s = .next s)

/-! ## The start sequencer's own events (R58 to R79) -/

/-- The sequencer's timers at their expiry. In AMBER the ready timer brings GREEN with a full window, one more green
and PHASE GREEN; in GREEN the window timer offers VOID LATE and ends the cycle; the leave grace ends; the
countdown shows the whole seconds left; the reject lamp goes out. Before its expiry none has an effect (R58,
R63, R64, R67, R68, R75). WIND's release: the settle timer's expiry removes WIND from the hold list and, where
that empties it with the GO mark set in RED, brings AMBER. A corridor entry that passes 3000 ms is marked aged,
and, where neither STALE nor SERVICE had ended its freshness before, the WIND condition is evaluated on the table as it
then stands, whatever other entries it holds: WIND is raised again, or its settle timer stopped or started (R62, R73,
R74; the source of WIND: log entry 63). The model's choice: a timer short of its expiry does nothing (log entry 2), and
the mark of an aged entry (log entry 17). -/
def Obligations.StartAndWindTimers : Prop :=
  ((∀ (s : State) (e : Tick) (h : AttemptHdr), s.start.readyAt = some e → reached s.clock e = true →
     s.start.phase = .amber → s.start.current = some h →
     exec .readyTimerExpiry s = .next
       (({ s with start := { s.start with
         phase := .green, readyAt := none, greenCount := min 255 (s.start.greenCount + 1)
         windowAt := some (s.clock + secondsT s.loader.consts.cycle.greenS)
         shown := s.loader.consts.cycle.greenS
         keptPhase := some ⟨.phase h .green s.start.gate s.loader.consts.cycle.greenS
           (min 255 (s.start.greenCount + 1)), none⟩ } }).offer
         (.phase h .green s.start.gate s.loader.consts.cycle.greenS
           (min 255 (s.start.greenCount + 1))) none)) ∧
   (∀ (s : State) (e : Tick) (h : AttemptHdr), s.start.windowAt = some e → reached s.clock e = true →
     s.start.phase = .green → s.start.current = some h →
     exec .windowTimerExpiry s = .next
       ((({ s with start := { s.start with
         phase := .idle, current := none, goMark := false, readyAt := none, windowAt := none
         graceAt := none, coach := .none, requested := none, keptPhase := none, keptLeave := none
         keptVoid := some ⟨.void h .late, none⟩, shown := 0 } }).offer (.void h .late) none).releaseHold
         .coach)) ∧
   (∀ (s : State) (e : Tick), s.start.graceAt = some e → reached s.clock e = true →
     exec .graceTimerExpiry s = .next { s with start := { s.start with graceAt := none } }) ∧
   (∀ s : State, s.start.phase = .green → secondsLeft s.clock s.start.windowAt < s.start.shown →
     exec .countdownTick s = .next { s with start := { s.start with
       shown := secondsLeft s.clock s.start.windowAt } }) ∧
   (∀ (s : State) (e : Tick), s.start.rejectUntil = some e → reached s.clock e = true →
     exec .rejectLampEnd s = .next { s with start := { s.start with rejectUntil := none } }) ∧
   (∀ s : State, (expired s.clock s.start.readyAt = false → exec .readyTimerExpiry s = .next s) ∧
     (expired s.clock s.start.windowAt = false → exec .windowTimerExpiry s = .next s) ∧
     (expired s.clock s.start.graceAt = false → exec .graceTimerExpiry s = .next s) ∧
     (expired s.clock s.start.rejectUntil = false → exec .rejectLampEnd s = .next s) ∧
     (s.start.phase ≠ .green → exec .countdownTick s = .next s))) ∧
  ((∀ (s : State) (e : Tick), s.start.settleAt = some e → reached s.clock e = true →
     ∃ t, exec .settleTimerExpiry s = .next t ∧ t.start.settleAt = none ∧
       t.start.standing .wind = false ∧
       t.start.holds = s.start.holds.filter (fun h => h.cause ≠ .wind) ∧
       t.start.phase = (if s.start.standing .wind = true ∧ t.start.holds = [] ∧ s.start.phase = .red ∧
         s.start.goMark = true then .amber else s.start.phase) ∧
       { t with start := s.start, line := s.line, latch := s.latch, console := s.console } = s) ∧
   (∀ s : State, expired s.clock s.start.settleAt = false → exec .settleTimerExpiry s = .next s) ∧
   (∀ (s : State) (mast : Nat) (x : CorridorEntry), x ∈ s.start.corridor → x.mast = mast →
     x.aged = false → 30000 ≤ since s.clock x.arrival →
     ∃ t, exec (.corridorEntryAged mast) s = .next t ∧
       t.start.corridor = s.start.corridor.map (fun y =>
         if y.mast = mast ∧ y.aged = false ∧ 30000 ≤ since s.clock y.arrival then
           { y with aged := true } else y) ∧
       ((∀ y ∈ s.start.corridor, y.mast = mast → y.aged = false → 30000 ≤ since s.clock y.arrival →
           y.flags.stale = false ∧ y.flags.service = false) → s.WindFollows t) ∧
       ((∀ y ∈ s.start.corridor, y.mast = mast → y.aged = false → 30000 ≤ since s.clock y.arrival →
           y.flags.stale = true ∨ y.flags.service = true) →
         t.start = { s.start with corridor := t.start.corridor }) ∧
       (s.HoldsSound → s.start.corridor = [x] → x.flags.stale = false → x.flags.service = false →
         1 ≤ s.loader.consts.corridor.minMasts →
         t.start.standing .wind = true ∧ t.start.settleAt = none ∧ t.start.phase ≠ .amber ∧
           t.start.phase ≠ .green) ∧
       { t with start := s.start, line := s.line, latch := s.latch, console := s.console } = s))

/-- A leave break, taken from a CLEAR barrier with the instant 10 ticks before as its time: in GREEN it is a leave,
in RED within the grace a leave on hold; in RED otherwise and in AMBER it voids the attempt for a false start
and ends the cycle; in GONE and IDLE it is ignored. A barrier not CLEAR gives none (R66, R79). The break's instant 10
ticks before the command is the model's reading: log entry 15.
The other ends of a cycle (R68, R69), at a frame of another station or the station's own at its echo: a VOID for the
current attempt, of the jury or the station's own, in any phase but IDLE; a LANDING, MASTMEAN or RESULT for it in GONE;
an EVENT in any phase but IDLE. Each leaves IDLE without a current attempt, GO mark, timer or coach request, COACH
released, the kept PHASE and LEAVE dropped, and the hold list as it was but for COACH and for the BACKLOG that the same
frame's change of the count moves (R72); the kept VOID goes at its own echo and at an EVENT. A VOID of another sender,
a frame of these kinds for another attempt, and a LANDING, MASTMEAN or RESULT in another phase change nothing of the
sequencer but by the backlog count. At an EVENT the cycle ends before the count is taken, the model's choice: log entry
8. -/
def Obligations.LeaveBreakByPhase : Prop :=
  (∀ (s : State) (at_ : Tick) (h : AttemptHdr), s.loader.roles.start = true → s.loader.state = .run →
    s.start.barrier = .clear → s.start.current = some h → at_ = s.clock - 10 →
    (s.start.phase = .green ∨ s.start.phase = .red ∧ s.start.graceAt.isSome = true →
      exec .leaveBreak s = .next
        ((({ s with start := { s.start with
          phase := .gone, windowAt := none, graceAt := none, barrier := .broken at_
          keptLeave := some ⟨.leave h (decide (s.start.phase = Phase.red)), some at_⟩
          keptPhase := some ⟨.phase h .gone s.start.gate 0 s.start.greenCount, none⟩ } }).offer
          (.leave h (decide (s.start.phase = Phase.red))) (some at_)).offer
          (.phase h .gone s.start.gate 0 s.start.greenCount) none)) ∧
    (s.start.phase = .amber ∨ s.start.phase = .red ∧ s.start.graceAt = none →
      exec .leaveBreak s = .next
        ((({ s with start := { s.start with
          phase := .idle, current := none, goMark := false, readyAt := none, windowAt := none
          graceAt := none, coach := .none, requested := none, keptPhase := none, keptLeave := none
          keptVoid := some ⟨.void h .falseStart, none⟩, shown := 0
          barrier := .broken at_ } }).offer (.void h .falseStart) none).releaseHold .coach)) ∧
    (s.start.phase = .gone → exec .leaveBreak s = .next
      (({ s with start := { s.start with barrier := .broken at_ } }).raise .leaveIgnored))) ∧
  (∀ s : State, s.loader.roles.start = true → s.start.barrier = .clear →
    s.start.phase = .idle ∨ s.loader.state ≠ .run →
    exec .leaveBreak s = .next
      (({ s with start := { s.start with barrier := .broken (s.clock - 10) } }).raise .strayLeave)) ∧
  (∀ s : State, s.loader.roles.start = false ∨ s.start.barrier ≠ .clear →
    exec .leaveBreak s = .next s) ∧
  (∀ (s : State) (l : LineHdr) (h : AttemptHdr) (why : VoidReason) (kept : Option KeptFrame),
    s.Delivers l (.void h why) → s.loader.roles.start = true →
    kept = (if l.sender = s.loader.station ∧ s.start.keptVoid.map (·.body) = some (.void h why) then none
      else s.start.keptVoid) →
    ∃ t, exec (.voidFrame l.rx h why) s = .next t ∧
      (s.loader.consts.stationWith (·.jury) = some l.sender ∨ l.sender = s.loader.station →
        s.start.current.map (·.attempt) = some h.attempt → s.start.phase ≠ .idle → s.CycleEnds t l.sender kept) ∧
      (s.loader.consts.stationWith (·.jury) ≠ some l.sender ∧ l.sender ≠ s.loader.station ∨
          s.start.current.map (·.attempt) ≠ some h.attempt ∨ s.start.phase = .idle →
        (s.rosterAt l.sender).presence = .present → t.start.backlog = s.start.backlog →
        t.start = { s.start with keptVoid := kept })) ∧
  (∀ (s : State) (l : LineHdr) (b : Body) (h : AttemptHdr), s.Delivers l b → s.loader.roles.start = true →
    (∃ d q nt lc, b = .landing h d q nt lc) ∨ (∃ m mean used part, b = .mastMean h m mean used part) ∨
      (∃ r, b = .result r ∧ r.hdr = h) →
    ∃ t, exec (frameCommand l.rx b) s = .next t ∧
      (s.start.current.map (·.attempt) = some h.attempt → s.start.phase = .gone →
        s.CycleEnds t l.sender s.start.keptVoid) ∧
      (s.start.current.map (·.attempt) ≠ some h.attempt ∨ s.start.phase ≠ .gone →
        (s.rosterAt l.sender).presence = .present → t.start.backlog = s.start.backlog → t.start = s.start)) ∧
  (∀ (s : State) (l : LineHdr) (n : Nat) (m : EventMode) (rounds : Nat), s.Delivers l (.event n m rounds) →
    s.loader.roles.start = true →
    ∃ t, exec (.eventFrame l.rx n m rounds) s = .next t ∧ t.start.backlog = 0 ∧
      (s.start.phase ≠ .idle → s.CycleEnds t l.sender none) ∧
      (s.start.phase = .idle → (s.rosterAt l.sender).presence = .present →
        t.start = { s.start with keptVoid := none, backlog := 0, holds := s.holdsAtBacklog 0 }))

/-- The barriers of START and EDGE: the unbroken level returns a barrier to CLEAR; one that is BROKEN for 2 s
becomes STUCK with BARRIER_STUCK of its own detail (R79, R83); that the command does nothing before is the model's
choice: log entry 2. -/
def Obligations.BarriersClearAndStick : Prop :=
  (∀ s : State, s.loader.roles.start = true →
    exec .leaveBarrierClear s = .next { s with start := { s.start with barrier := .clear } } ∧
    (∀ since_, s.start.barrier = .broken since_ →
      (20000 ≤ since s.clock since_ → exec .leaveBarrierStuck s = .next
        (({ s with start := { s.start with barrier := .stuck } }).report .barrierStuck 0)) ∧
      (since s.clock since_ < 20000 → exec .leaveBarrierStuck s = .next s))) ∧
  (∀ (s : State) (x : EdgeBarrier), s.loader.roles.edge = true →
    (∃ t, exec (.edgeBarrierClear x) s = .next t ∧ t.edge.barrier x = .clear ∧
      (∀ y, y ≠ x → t.edge.barrier y = s.edge.barrier y) ∧ t.edge.run = s.edge.run ∧
      { t with edge := s.edge } = s) ∧
    (∀ since_, s.edge.barrier x = .broken since_ →
      (20000 ≤ since s.clock since_ → ∃ t, exec (.edgeBarrierStuck x) s = .next t ∧
        t.edge.barrier x = .stuck ∧ (∀ y, y ≠ x → t.edge.barrier y = s.edge.barrier y) ∧
        t.latch = s.latch.take .barrierStuck s.clock
          (match x with | .a => 1 | .b => 2 | .t => 3) ∧
        { t with edge := s.edge, latch := s.latch, console := s.console } = s) ∧
      (since s.clock since_ < 20000 → exec (.edgeBarrierStuck x) s = .next s))) ∧
  (∀ s : State, (s.loader.roles.start = false →
      exec .leaveBarrierClear s = .next s ∧ exec .leaveBarrierStuck s = .next s) ∧
    (s.loader.roles.edge = false → ∀ x, exec (.edgeBarrierClear x) s = .next s ∧
      exec (.edgeBarrierStuck x) s = .next s))

/-- The official's panel and the coach's: TRACK HOLD raises TRACK with the station as its source and TRACK RELEASE
releases it; a request is taken in RED or AMBER while none is PENDING or GRANTED, for the selected steps below
the jury gate: COACH is raised, and COACH offered; any other press lights the reject lamp for 2 s and changes no
request (R70, R75). A lamp commanded on that shows the fault level joins the failed set, reports LAMP_FAIL and
raises LAMP; LAMP_CHECK with three good inputs empties the set and releases LAMP, and with a faulty one answers
STATE and changes nothing; with an empty set it answers OK and changes nothing (R77, R78). That it does so at a station
MUTED from RUN too is the model's choice: log entry 66. -/
def Obligations.PanelsAndLamps : Prop :=
  ((∀ s : State, s.loader.roles.start = true →
     (∃ t, exec .trackHold s = .next t ∧ t.start.standing .track = true ∧
       (s.HoldsSound → t.start.phase ≠ .amber ∧ t.start.phase ≠ .green) ∧
       (∃ h ∈ t.start.holds, h.cause = .track ∧ h.source = s.loader.station ∧ h.detail = 0) ∧
       { t with start := s.start, line := s.line, latch := s.latch, console := s.console } = s) ∧
     (∃ t, exec .trackRelease s = .next t ∧ t.start.standing .track = false ∧
       t.start.holds = s.start.holds.filter (fun h => h.cause ≠ .track) ∧
       { t with start := s.start, line := s.line, latch := s.latch, console := s.console } = s)) ∧
   (∀ (s : State) (sel : BitVec 4) (steps : Nat), s.loader.roles.start = true → s.loader.state = .run →
     steps = (if sel = 1 then 1 else if sel = 2 then 2 else if sel = 4 then 3 else if sel = 8 then 4 else 0) →
     (∀ h, s.start.current = some h → s.HoldsSound → s.start.phase = .red ∨ s.start.phase = .amber →
       s.start.coach = .none ∨ s.start.coach = .withdrawn → 0 < steps → steps < s.start.juryGate →
       ∃ t, exec (.coachRequestPress sel) s = .next t ∧ t.start.coach = .pending ∧
         t.start.requested = some (s.start.juryGate - steps) ∧ t.start.phase = .red ∧
         t.start.standing .coach = true ∧ t.start.rejectUntil = s.start.rejectUntil ∧
         (s.line.urgent.length < 7 → ∃ f ∈ t.line.urgent,
           f.body = .coach h s.start.juryGate (s.start.juryGate - steps) false) ∧
         { t with start := s.start, line := s.line, latch := s.latch, console := s.console } = s) ∧
     (s.start.coach = .pending ∨ s.start.coach = .granted ∨ steps = 0 ∨ s.start.juryGate ≤ steps ∨
         s.start.phase = .idle ∨ s.start.phase = .green ∨ s.start.phase = .gone →
       exec (.coachRequestPress sel) s = .next
         (({ s with start := { s.start with
           rejectUntil := some (s.clock + secondsT 2) } }).raise
           (.coachRefused s.start.phase s.start.coach steps)))) ∧
   (∀ (s : State) (sel : BitVec 4), s.loader.roles.start = false →
     exec .trackHold s = .next s ∧ exec .trackRelease s = .next s ∧
     exec (.coachRequestPress sel) s = .next s)) ∧
  ((∀ (s : State) (x : Lamp), s.loader.roles.start = true → s.lampOutputs.has x = true →
     s.start.failed.has x = false →
     ∃ t, exec (.lampFail x) s = .next t ∧ t.start.failed = s.start.failed.insert x ∧
       t.start.standing .lamp = true ∧
       (s.HoldsSound → t.start.phase ≠ .amber ∧ t.start.phase ≠ .green) ∧
       (s.latch.record = none → t.latch.record = some
         ⟨.lampFail, s.clock, match x with | .red => 0 | .amber => 1 | .green => 2⟩) ∧
       (∀ r, s.latch.record = some r → t.latch.record = some r ∧ t.latch.overflow = true) ∧
       { t with start := s.start, line := s.line, latch := s.latch, console := s.console } = s) ∧
   (∀ (s : State) (x : Lamp), s.loader.roles.start = false ∨ s.lampOutputs.has x = false ∨
     s.start.failed.has x = true → exec (.lampFail x) s = .next s) ∧
   (∀ s : State, s.TakesRecord → s.loader.roles.start = true →
     (∀ x, s.start.failed = {} → exec (.lampCheck x) s = .next (s.afterAnswer 0x10 .ok)) ∧
     (∀ x, s.start.failed ≠ {} → x ≠ {} → exec (.lampCheck x) s = .next (s.afterAnswer 0x10 .state)) ∧
     (s.start.failed ≠ {} → ∃ t, exec (.lampCheck {}) s = .next t ∧ t.start.failed = {} ∧
       t.start.standing .lamp = false ∧
       t.start.holds = s.start.holds.filter (fun h => h.cause ≠ .lamp) ∧
       t.console.replies = s.console.replies ++ [{ command := 0x10, code := .ok }])))

/-! ## The edge timer (R82 to R88) -/

/-- A break of a CLEAR barrier at an EDGE station, with its instants 10 ticks and 1000 µs before it is taken, is
attributed to the attempt on the inrun, and is stray without one. Where no run record is held, or one of another
attempt, a new one takes its place, and the old one's kept frames go (R84). A: the first one before B and T sets the A
time. T: the first one offers TAKEOFF, with NO_SPEED unless a SPEED has been offered. Any other is ignored (R83,
R84, R85, R88). The two instants before the command are the model's reading: log entry 15. -/
def Obligations.BarrierBreaks : Prop :=
  (∀ (s : State) (x : EdgeBarrier) (c : Instr), s.loader.roles.edge = true → s.edge.barrier x = .clear →
    c = (match x with | .a => .barrierABreak | .b => .barrierBBreak | .t => .barrierTBreak) →
    (∀ r ∈ s.table, r.state ≠ .onInrun) →
    exec c s = .next (({ s with edge := s.edge.setBarrier x (.broken (s.clock - 10)) }).raise
      (.strayBreak x (s.clock - 10)))) ∧
  (∀ (s : State) (r : AttemptRecord) (run : RunRecord), s.loader.roles.edge = true →
    s.table.find? (fun r => r.state == .onInrun) = some r → s.edge.run = some run → run.hdr = r.hdr →
    (s.edge.a = .clear →
      (run.aTime = none ∧ run.bTaken = false ∧ run.tTaken = false →
        exec .barrierABreak s = .next { s with edge := { s.edge with
          a := .broken (s.clock - 10)
          run := some { run with aTime := some (s.clock - 10, s.edge.micros - 1000) } } }) ∧
      (run.aTime ≠ none ∨ run.bTaken = true ∨ run.tTaken = true →
        exec .barrierABreak s = .next (({ s with edge := { s.edge with
          a := .broken (s.clock - 10) } }).raise (.breakIgnored r.hdr.attempt .a)))) ∧
    (s.edge.t = .clear →
      (run.tTaken = false → exec .barrierTBreak s = .next
        (({ s with edge := { s.edge with
          t := .broken (s.clock - 10)
          run := some { run with tTaken := true }
          keptTakeoff := some ⟨.takeoff r.hdr (!run.speedOffered), some (s.clock - 10)⟩ } }).offer
          (.takeoff r.hdr (!run.speedOffered)) (some (s.clock - 10)))) ∧
      (run.tTaken = true → exec .barrierTBreak s = .next
        (({ s with edge := { s.edge with t := .broken (s.clock - 10) } }).raise
          (.breakIgnored r.hdr.attempt .t))))) ∧
  (∀ (s : State) (r : AttemptRecord), s.loader.roles.edge = true →
    s.table.find? (fun r => r.state == .onInrun) = some r →
    (∀ run, s.edge.run = some run → run.hdr.attempt ≠ r.hdr.attempt) →
    (s.edge.a = .clear → exec .barrierABreak s = .next { s with edge := { s.edge with
      a := .broken (s.clock - 10), keptSpeed := none, keptTakeoff := none
      run := some { hdr := r.hdr, aTime := some (s.clock - 10, s.edge.micros - 1000) } } }) ∧
    (s.edge.b = .clear → exec .barrierBBreak s = .next (({ s with edge := { s.edge with
      b := .broken (s.clock - 10), keptSpeed := none, keptTakeoff := none
      run := some { hdr := r.hdr, bTaken := true } } }).raise (.speedMissing r.hdr.attempt))) ∧
    (s.edge.t = .clear → exec .barrierTBreak s = .next (({ s with edge := { s.edge with
      t := .broken (s.clock - 10), keptSpeed := none
      keptTakeoff := some ⟨.takeoff r.hdr true, some (s.clock - 10)⟩
      run := some { hdr := r.hdr, tTaken := true } } }).offer (.takeoff r.hdr true) (some (s.clock - 10))))) ∧
  (∀ s : State, (s.loader.roles.edge = false ∨ s.edge.a ≠ .clear → exec .barrierABreak s = .next s) ∧
    (s.loader.roles.edge = false ∨ s.edge.b ≠ .clear → exec .barrierBBreak s = .next s) ∧
    (s.loader.roles.edge = false ∨ s.edge.t ≠ .clear → exec .barrierTBreak s = .next s))

/-- A B break for the attempt of the run record. With an A time no more than 20,000 ticks before it and an interval
of t µs that passes the plausibility test, SPEED is offered with the rounded speed and the break's instant;
otherwise no speed is offered: SPEED_MISSING without an A time, SPEED_IMPLAUSIBLE with t, or without it where
the breaks lie too far apart. A second B, and one after T, is ignored (R86, R87). The break's instants, 10 ticks and
1000 µs before the command, are the model's reading: log entry 15. -/
def Obligations.SpeedFromTwoBreaks : Prop :=
  ∀ (s : State) (r : AttemptRecord) (run : RunRecord) (taken : State), s.loader.roles.edge = true →
    s.edge.b = .clear → s.table.find? (fun r => r.state == .onInrun) = some r →
    s.edge.run = some run → run.hdr = r.hdr →
    taken = { s with edge := { s.edge with
      b := .broken (s.clock - 10), run := some { run with bTaken := true } } } →
    (run.bTaken = false → run.tTaken = false →
      (run.aTime = none → exec .barrierBBreak s = .next (taken.raise (.speedMissing r.hdr.attempt))) ∧
      (∀ ta ua, run.aTime = some (ta, ua) →
        (20000 < since (s.clock - 10) ta →
          exec .barrierBBreak s = .next (taken.raise (.speedImplausible r.hdr.attempt none))) ∧
        (∀ (k : EdgeConsts) (us : Micros), k = s.loader.consts.edge → us = s.edge.micros - 1000 - ua →
          since (s.clock - 10) ta ≤ 20000 →
          (k.speedMin * us.toNat ≤ k.spacingMm * 36000 →
            k.spacingMm * 36000 ≤ k.speedMax * us.toNat →
            exec .barrierBBreak s = .next
              (({ taken with edge := { taken.edge with
                run := some { run with bTaken := true, speedOffered := true }
                keptSpeed := some ⟨.speed r.hdr (roundHalfUp (k.spacingMm * 36000) us.toNat),
                  some (s.clock - 10)⟩ } }).offer
                (.speed r.hdr (roundHalfUp (k.spacingMm * 36000) us.toNat)) (some (s.clock - 10)))) ∧
          (k.spacingMm * 36000 < k.speedMin * us.toNat ∨
            k.speedMax * us.toNat < k.spacingMm * 36000 →
            exec .barrierBBreak s = .next
              (taken.raise (.speedImplausible r.hdr.attempt (some us))))))) ∧
    (run.bTaken = true ∨ run.tTaken = true →
      exec .barrierBBreak s = .next (({ s with edge := { s.edge with b := .broken (s.clock - 10) } }).raise
        (.breakIgnored r.hdr.attempt .b)))

/-- R87: an interval passes exactly when speed min × t ≤ s × 36,000 ≤ speed max × t; the speed of one that passes is
the quotient rounded half up and lies between the two limits; for the spacings that R23 allows the product is at
most 720,000,000; and the worked intervals pass and fail as the manual's table gives. -/
def Obligations.SpeedLiesBetweenItsLimits : Prop :=
  (∀ (k : EdgeConsts) (t : Nat), speedPlausible k t = true ↔
    k.speedMin * t ≤ k.spacingMm * 36000 ∧ k.spacingMm * 36000 ≤ k.speedMax * t) ∧
  (∀ (k : EdgeConsts) (t : Nat), 0 < t → speedPlausible k t = true →
    speedOf k t = (2 * (k.spacingMm * 36000) + t) / (2 * t) ∧
    k.speedMin ≤ speedOf k t ∧ speedOf k t ≤ k.speedMax) ∧
  (∀ k : EdgeConsts, k.spacingMm ≤ 20000 → k.spacingMm * 36000 ≤ 720000000) ∧
  (∀ k : EdgeConsts, k = ⟨5000, 400, 1300⟩ →
    speedPlausible k 138461 = false ∧ speedPlausible k 138462 = true ∧ speedOf k 138462 = 1300 ∧
    speedPlausible k 194800 = true ∧ speedOf k 194800 = 924 ∧ speedPlausible k 450000 = true ∧
    speedOf k 450000 = 400 ∧ speedPlausible k 450001 = false)

/-! ## The wind unit (R92 to R103) -/

/-- A poll time that has come moves the next one 1,000 ticks on. In CONSOLE nothing else happens; in AUTO a FREE bus
begins a poll, or, with the data line low, hangs: SENSOR_HUNG and a release burst; on a bus that is not FREE the
poll fails (R92, R95). A stretched clock hangs the bus: SENSOR_HUNG with the address in use and the release burst; a
poll under way fails, and a transfer is answered with outcome 3 and the bytes read. The burst's end samples the data
line: high frees the bus and low leaves it HUNG, and it answers the SENSOR_RELEASE that ordered it; after an
automatic burst a waiting sensor command is carried out (R97); it answers (R95, R96, R99). A poll sends the six
steps of section 6.2, and a burst nine clock pulses and a stop. The model's choice: a poll time that has not come
does nothing (log entry 2), the register of the data line and the automatic burst that answers nothing (log entry
19), the answer of a hung transfer at the detection (log entry 45), and the address of the transaction as the detail of
SENSOR_HUNG (log entry 62). -/
def Obligations.PollTimesAndHangs : Prop :=
  (∀ (s : State) (e : Tick) (low : Bool), s.wind.nextPoll = some e →
     (reached s.clock e = true →
       ∃ t, exec (.pollTime low) s = .next t ∧ t.wind.nextPoll = some (e + 1000) ∧
         t.wind.dataLow = low ∧ t.wind.master = s.wind.master ∧ t.wind.lastSequence = s.wind.lastSequence ∧
         (s.wind.master = .console → t.wind = { s.wind with nextPoll := some (e + 1000), dataLow := low }) ∧
         (s.wind.master = .auto → s.wind.bus = .free → low = false →
           t.wind = { s.wind with
             nextPoll := some (e + 1000), dataLow := false, bus := .busyPoll
             sends := [.start, .address s.loader.consts.sensorAddress false, .send 0, .repeatedStart,
               .address s.loader.consts.sensorAddress true, .receive, .receive, .receive, .receive, .receive,
               .receive, .stop] }) ∧
         (s.wind.master = .auto → s.wind.bus = .free → low = true →
           t.wind.bus = .releasing false false ∧ t.wind.goodCount = 0 ∧
           t.wind.sends = List.replicate 9 .clockPulse ++ [.stop] ∧
           t.latch = s.latch.take .sensorHung s.clock s.loader.consts.sensorAddress) ∧
         (s.wind.master = .auto → s.wind.bus ≠ .free →
           t.wind.bus = s.wind.bus ∧ t.wind.goodCount = 0 ∧
           (∀ x y, s.wind.lastGood = some (x, y) → s.wind.heldCount < 10 →
             t.wind.heldCount = s.wind.heldCount + 1 ∧
             t.wind.ring.getLast? = some ⟨s.clock, x, y, true⟩)) ∧
         { t with wind := s.wind, latch := s.latch, console := s.console } = s) ∧
     (reached s.clock e = false → exec (.pollTime low) s = .next s)) ∧
  ((∀ (s : State) (read : List Byte), s.wind.bus = .busyPoll →
     ∃ t, exec (.clockStretchTimeout read) s = .next t ∧ t.wind.bus = .releasing false false ∧
       t.wind.goodCount = 0 ∧ t.latch = s.latch.take .sensorHung s.clock s.loader.consts.sensorAddress ∧
       t.wind.sends = List.replicate 9 .clockPulse ++ [.stop] ∧
       { t with wind := s.wind, latch := s.latch, console := s.console } = s) ∧
   (∀ (s : State) (read write : List Byte) (address n : Nat), s.wind.bus = .busyTransfer →
     s.wind.pendingOp = some (.transfer address n write) → s.console.replies.length < 8 →
     ∃ t, exec (.clockStretchTimeout read) s = .next t ∧
       t.wind = { s.wind with
         bus := .releasing false false, fifo := read.take n, pendingOp := none
         sends := List.replicate 9 .clockPulse ++ [.stop] } ∧
       t.latch = s.latch.take .sensorHung s.clock address ∧
       t.console.replies = s.console.replies ++ [⟨0x21, .ok,
         byte 3 :: byte (read.take n).length :: read.take n, []⟩] ∧
       { t with wind := s.wind, latch := s.latch, console := s.console } = s) ∧
   (∀ (s : State) (high ordered fromHung : Bool), s.wind.bus = .releasing ordered fromHung →
     ∃ t, exec (.releaseBurstEnd high) s = .next t ∧ t.wind.dataLow = !high ∧
       (ordered = true → s.console.replies.length < 8 →
         t.wind.bus = (if high then .free else .hung) ∧ t.wind.pendingOp = none ∧
         t.console.replies = s.console.replies ++
           [{ command := 0x22, code := .ok, extra := [if high then 0 else 3] }]) ∧
       (ordered = false → s.wind.pendingOp = none → t.wind.bus = (if high then .free else .hung)) ∧
       (ordered = false → ∀ op, s.wind.pendingOp = some op → s.console.replies.length < 8 →
         ∃ u, exec (.releaseBurstEnd high) { s with wind := { s.wind with pendingOp := none } } = .next u ∧
           u.wind = { s.wind with
             pendingOp := none, dataLow := !high, bus := if high then .free else .hung } ∧
           u.CarriesOut t op) ∧
       { t with wind := s.wind, latch := s.latch, console := s.console } = s))

/-- The end of a poll on a BUSY bus frees the bus, and a sensor command that waits is then carried out (R97). A new
measurement with the valid bit set, its sequence not the last one's, is a good poll: the sample, clamped, enters the
ring, the held count is 0, and the tenth in a row makes the mast STABLE. NO_ACK, an invalid status, a repeated
sequence and a lost arbitration fail the poll: the last good sample is held, up to ten times, and the eleventh
failure makes the mast UNSTABLE (R93, R94, R100, R103). After NO_ACK a stop condition follows what has gone out, and
after ARB_LOST none (R93). The model's choice, where the command that waits is a transfer: what log entries 19, 45, 52
and 62 say of it. -/
def Obligations.PollResults : Prop :=
  ∀ (s : State) (now : Sample) (whole : List BusItem),
    s.wind.bus = .busyPoll → s.wind.pendingOp = none → s.WindSound →
    whole = [.start, .address s.loader.consts.sensorAddress false, .send 0, .repeatedStart,
      .address s.loader.consts.sensorAddress true, .receive, .receive, .receive, .receive, .receive, .receive,
      .stop] →
    (∀ (x y : Word16) (status q : Byte), status.getLsbD 0 = true → s.wind.lastSequence ≠ some q →
      now = ⟨s.clock, max (-4000) (min 4000 x.toInt), max (-4000) (min 4000 y.toInt), false⟩ →
      ∃ t, exec (.pollComplete (.data x y status q)) s = .next t ∧ t.wind.bus = .free ∧
        t.wind.sends = whole ∧
        t.wind.lastSequence = some q ∧ t.wind.noAnswer = 0 ∧ t.wind.heldCount = 0 ∧
        t.wind.lastGood = some (now.x, now.y) ∧ t.wind.ring.getLast? = some now ∧
        t.wind.goodCount = min 10 (s.wind.goodCount + 1) ∧
        t.wind.stable = (s.wind.stable || decide (9 ≤ s.wind.goodCount)) ∧
        { t with wind := s.wind, console := s.console } = s) ∧
    (∀ result, (∃ k, result = .noAck k) ∨ (∃ k, result = .arbLost k) ∨
        (∃ x y status q, result = .data x y status q ∧
          (status.getLsbD 0 = false ∨ s.wind.lastSequence = some q)) →
      ∃ t, exec (.pollComplete result) s = .next t ∧ t.wind.bus = .free ∧ t.wind.goodCount = 0 ∧
        t.wind.lastSequence = s.wind.lastSequence ∧
        t.wind.noAnswer = (match result with
          | .noAck _ => min 10 (s.wind.noAnswer + 1)
          | .arbLost _ => s.wind.noAnswer
          | .data .. => 0) ∧
        t.wind.sends = (match result with
          | .noAck k => whole.dropLast.take k ++ [.stop]
          | .arbLost k => whole.take k
          | .data .. => whole) ∧
        (s.wind.lastGood = none → t.wind.ring = s.wind.ring ∧ t.wind.stable = s.wind.stable) ∧
        (∀ x y, s.wind.lastGood = some (x, y) →
          (s.wind.heldCount < 10 → t.wind.heldCount = s.wind.heldCount + 1 ∧
            t.wind.ring.getLast? = some ⟨s.clock, x, y, true⟩ ∧ t.wind.stable = s.wind.stable) ∧
          (s.wind.heldCount = 10 → t.wind.lastGood = none ∧ t.wind.stable = false ∧
            t.wind.ring = s.wind.ring)) ∧
        ((∃ k, result = .noAck k) → s.wind.noAnswer = 9 →
          (s.wind.missingReported = false →
            t.latch = s.latch.take .sensorMissing s.clock s.loader.consts.sensorAddress) ∧
          (s.wind.missingReported = true → t.latch = s.latch)) ∧
        { t with wind := s.wind, latch := s.latch, console := s.console } = s) ∧
    (∀ (result : PollResult) (op : SensorOp) (u : State), s.console.replies.length < 8 →
      exec (.pollComplete result) s = .next u →
      ∃ t, exec (.pollComplete result) { s with wind := { s.wind with pendingOp := some op } } = .next t ∧
        u.CarriesOut t op)

/-- The sensor commands at a MAST station with no operation pending. SENSOR_MODE sets the master select, and a
change clears the counts and the last sample and makes the mast UNSTABLE; SENSOR_TRANSFER in CONSOLE on a FREE bus
whose data line is high makes it BUSY and sends the address and the bytes written, the address and the bytes to
read, or for an address test the address alone; its end answers with the outcome and the bytes read, and after
ARB_LOST without a stop; with the line low the bus hangs; in AUTO or on a HUNG bus it answers STATE; SENSOR_RELEASE
begins an ordered burst. On a BUSY or RELEASING bus each becomes the pending operation and waits. A second operation
answers STATE, and operands out of range RANGE (R97 to R99). The model's choice: a SENSOR_MODE code above 1 is
answered RANGE (log entry 11), the register of the data line and the burst ordered out of HUNG (log entry 19), the
answer of a hung transfer at the detection (log entry 45), the start condition of an address test and the end
whose bytes are not those of its transaction (log entry 52), and the address of the transaction as the detail of
SENSOR_HUNG (log entry 62). -/
def Obligations.SensorCommands : Prop :=
  (∀ s : State, s.TakesRecord → s.loader.roles.mast = true → s.wind.pendingOp = none →
    (s.wind.bus = .free ∨ s.wind.bus = .hung →
      (∀ m : MasterSelect, s.wind.master = m →
        exec (.sensorMode (masterCode m)) s = .next (s.afterAnswer 0x20 .ok)) ∧
      (∀ m : MasterSelect, s.wind.master ≠ m →
        ∃ t, exec (.sensorMode (masterCode m)) s = .next t ∧
          t.wind = { s.wind with
            master := m, goodCount := 0, heldCount := 0, noAnswer := 0, lastGood := none
            lastSequence := none, stable := false } ∧
          t.console.replies = s.console.replies ++ [{ command := 0x20, code := .ok }] ∧
          { t with wind := s.wind, console := s.console } = s) ∧
      (∃ t, exec .sensorRelease s = .next t ∧ t.wind.bus = .releasing true (decide (s.wind.bus = .hung)) ∧
        t.wind.pendingOp = some .release ∧ t.console.replies = s.console.replies ∧
        t.wind.sends = List.replicate 9 .clockPulse ++ [.stop] ∧
        { t with wind := s.wind, console := s.console } = s)) ∧
    (∀ m, 1 < m → exec (.sensorMode m) s = .next (s.afterAnswer 0x20 .range)) ∧
    (∀ address n write, 0x08 ≤ address → address ≤ 0x77 → write.length ≤ 8 → n ≤ 32 →
      s.wind.bus = .free →
      (s.wind.master = .console →
        exec (.sensorTransfer address n write false) s = .next { s with
          wind := { s.wind with
            dataLow := false, fifo := [], pendingOp := some (.transfer address n write)
            bus := .busyTransfer
            sends := match write, n with
              | [], 0 => [.start, .address address false, .stop]
              | [], k + 1 =>
                [.start, .address address true] ++ List.replicate (k + 1) .receive ++ [.stop]
              | b :: bs, 0 => [.start, .address address false, .send b] ++ bs.map .send ++ [.stop]
              | b :: bs, k + 1 =>
                [.start, .address address false, .send b] ++ bs.map .send ++
                  [.repeatedStart, .address address true] ++ List.replicate (k + 1) .receive ++ [.stop] }
          console := { s.console with gathered := [], rxQuietUs := 0 } }) ∧
      (s.wind.master = .console → ∃ t, exec (.sensorTransfer address n write true) s = .next t ∧
        t.wind.bus = .releasing false false ∧ t.wind.pendingOp = none ∧
        t.wind.sends = List.replicate 9 .clockPulse ++ [.stop] ∧ t.wind.fifo = [] ∧
        t.latch = s.latch.take .sensorHung s.clock address ∧
        t.console.replies =
          s.console.replies ++ [{ command := 0x21, code := .ok, extra := [3, 0] }]) ∧
      (s.wind.master = .auto → ∀ low,
        exec (.sensorTransfer address n write low) s = .next
          ({ s with wind := { s.wind with dataLow := low } }.afterAnswer 0x21 .state))) ∧
    (∀ address n write low, 0x08 ≤ address → address ≤ 0x77 → write.length ≤ 8 → n ≤ 32 →
      s.wind.bus = .hung → exec (.sensorTransfer address n write low) s = .next
        ({ s with wind := { s.wind with dataLow := low } }.afterAnswer 0x21 .state)) ∧
    (s.wind.bus ≠ .free → s.wind.bus ≠ .hung → ∀ waits : State,
      waits = { s with console := { s.console with gathered := [], rxQuietUs := 0 } } →
      (∀ m : MasterSelect, exec (.sensorMode (masterCode m)) s = .next
        { waits with wind := { s.wind with pendingOp := some (.mode m) } }) ∧
      (∀ address n write low, 0x08 ≤ address → address ≤ 0x77 → write.length ≤ 8 → n ≤ 32 →
        exec (.sensorTransfer address n write low) s = .next { waits with wind := { s.wind with
          dataLow := low, pendingOp := some (.transfer address n write) } }) ∧
      exec .sensorRelease s = .next { waits with wind := { s.wind with pendingOp := some .release } }) ∧
    (∀ address n write low, write.length ≤ 8 → address < 0x08 ∨ 0x77 < address ∨ 32 < n →
      exec (.sensorTransfer address n write low) s = .next
        ({ s with wind := { s.wind with dataLow := low } }.afterAnswer 0x21 .range))) ∧
  (∀ (s : State) (address n : Nat) (write read : List Byte) (o : TransferOutcome) (sent : List BusItem),
    s.wind.bus = .busyTransfer → s.wind.pendingOp = some (.transfer address n write) →
    s.console.replies.length < 8 →
    sent = (match o with
      | .ok => transactionSends address n write
      | .noAck k => (transactionSends address n write).dropLast.take k ++ [.stop]
      | .arbLost k => (transactionSends address n write).take k) →
    (read.length = (match o with | .ok => n | _ => sent.count .receive) →
      exec (.sensorTransferEnd o read) s = .next { s with
        wind := { s.wind with bus := .free, fifo := read, pendingOp := none, sends := sent }
        console := { s.console with replies := s.console.replies ++ [⟨0x21, .ok,
          byte (match o with | .ok => 0 | .noAck _ => 1 | .arbLost _ => 2) ::
            byte read.length :: read, []⟩] } }) ∧
    (read.length ≠ (match o with | .ok => n | _ => sent.count .receive) →
      exec (.sensorTransferEnd o read) s = .next s)) ∧
  (∀ (s : State) (op : SensorOp) (m : Nat), s.TakesRecord → s.loader.roles.mast = true →
    s.wind.pendingOp = some op →
    exec (.sensorMode m) s = .next (s.afterAnswer 0x20 .state) ∧
    (∀ address n write low, write.length ≤ 8 → exec (.sensorTransfer address n write low) s = .next
      ({ s with wind := { s.wind with dataLow := low } }.afterAnswer 0x21 .state)) ∧
    exec .sensorRelease s = .next (s.afterAnswer 0x22 .state))

/-! ## The span unit (R114 to R119) -/

/-- Records of the sensor head at a SPAN station. A HEARTBEAT refreshes the link, and ends a silence with its
notice; a gap past 20 ticks, a low stop bit and characters that spell no record drop what is assembled; 5,000 ticks
without a record silence the link: HEAD_FAULT, and an empty view. At any other station none has an effect (R114,
R115). A PRESENCE record that changes the presence begins or ends the view claim of the flight record. ON with a
claim not yet made and not both tracks reported opens it at the later of the record's stamp and the flight record's
creation, with IN_VIEW offered; OFF ends an open claim with PRESENCE_OFF (R114, R118, R119). A record that a
delivered TAKEOFF moves to AIRBORNE gives the unit its flight record, created now and without kept frames, and,
where the presence is ON, the claim begins with it (R116, R118). The model's choice: a silence or a limit short of
its time does nothing (log entry 2). -/
def Obligations.HeadLinkAndPresence : Prop :=
  ((∀ (s : State) (stamp : Tick), s.loader.roles.span = true →
     (s.span.heard = true → exec (.heartbeat stamp) s = .next { s with span := { s.span with
       lastRecord := stamp, head := [] } }) ∧
     (s.span.heard = false → exec (.heartbeat stamp) s = .next
       (({ s with span := { s.span with lastRecord := stamp, heard := true, head := [] } }).raise
         (.headLink s.loader.span true)))) ∧
   (∀ (s : State) (why : HeadDiscard), s.loader.roles.span = true →
     ((∃ gap, why = .gap gap ∧ 20 < gap) ∨ why = .lowStop ∨
         (∃ cs, why = .chars cs ∧ readHeadRecord cs = none) →
       exec (.headRecordDiscard why) s = .next { s with span := { s.span with head := [] } }) ∧
     ((∃ gap, why = .gap gap ∧ gap ≤ 20) ∨ (∃ cs, why = .chars cs ∧ readHeadRecord cs ≠ none) →
       exec (.headRecordDiscard why) s = .next s)) ∧
   (∀ s : State, s.loader.roles.span = true → s.span.heard = true →
     (5000 < since s.clock s.span.lastRecord →
       ∃ t, exec .headLinkSilent s = .next t ∧ t.span.heard = false ∧ t.span.presence = false ∧
         t.span.presenceChanged = s.clock ∧ t.span.lastRecord = s.span.lastRecord ∧
         (s.latch.record = none → t.latch.record = some ⟨.headFault, s.clock, s.loader.span⟩) ∧
         (∀ f, s.span.flight = some f → f.claim = .opened → t.span.flight = some { f with claim := .ended }) ∧
         { t with span := s.span, line := s.line, latch := s.latch, console := s.console } = s) ∧
     (since s.clock s.span.lastRecord ≤ 5000 → exec .headLinkSilent s = .next s)) ∧
   (∀ (s : State) (stamp : Tick) (why : HeadDiscard), s.loader.roles.span = false →
     exec (.heartbeat stamp) s = .next s ∧ exec (.headRecordDiscard why) s = .next s ∧
     exec .headLinkSilent s = .next s)) ∧
  ((∀ (s : State) (on : Bool) (stamp : Tick), s.loader.roles.span = true → s.span.heard = true →
     s.span.presence = on →
     exec (.presence on stamp) s = .next { s with span := { s.span with lastRecord := stamp, head := [] } }) ∧
   (∀ (s : State) (stamp : Tick) (f : FlightRecord) (start : Tick), s.loader.roles.span = true →
     s.span.heard = true → s.span.presence = false → s.span.flight = some f → f.claim = .none →
     (f.left && f.right) = false → start = (if before stamp f.created then f.created else stamp) →
     exec (.presence true stamp) s = .next
       (({ s with span := { s.span with
         lastRecord := stamp, head := [], presence := true, presenceChanged := stamp
         flight := some { f with
           claim := .opened, claimStart := start
           viewLimitAt := start + secondsT s.loader.consts.flight.viewS }
         kept := s.span.kept ++ [(⟨.inView (s.hdrOf f.attempt) s.loader.span, some start⟩ : KeptFrame)] } }).offer
         (.inView (s.hdrOf f.attempt) s.loader.span) (some start))) ∧
   (∀ (s : State) (stamp : Tick) (f : FlightRecord), s.loader.roles.span = true → s.span.heard = true →
     s.span.presence = true → s.span.flight = some f → f.claim = .opened →
     exec (.presence false stamp) s = .next
       (({ s with span := { s.span with
         lastRecord := stamp, head := [], presence := false, presenceChanged := stamp
         flight := some { f with claim := .ended }
         kept := s.span.kept.filter (fun k : KeptFrame => !isInView k.body) ++
           [(⟨.viewLost (s.hdrOf f.attempt) s.loader.span .presenceOff, some stamp⟩ : KeptFrame)] } }).offer
         (.viewLost (s.hdrOf f.attempt) s.loader.span .presenceOff) (some stamp))) ∧
   (∀ (s : State) (on : Bool) (stamp : Tick), s.loader.roles.span = true → s.span.heard = true →
     s.span.presence ≠ on → s.span.flight = none →
     exec (.presence on stamp) s = .next { s with span := { s.span with
       lastRecord := stamp, head := [], presence := on, presenceChanged := stamp } }) ∧
   (∀ (s : State) (f : FlightRecord), s.span.flight = some f →
     (f.claim = .opened → reached s.clock f.viewLimitAt = true →
       exec .viewLimitExpiry s = .next
         (({ s with span := { s.span with
           flight := some { f with claim := .ended }
           kept := s.span.kept.filter (fun k : KeptFrame => !isInView k.body) ++
             [(⟨.viewLost (s.hdrOf f.attempt) s.loader.span .viewLimit, some f.viewLimitAt⟩ : KeptFrame)] } }).offer
           (.viewLost (s.hdrOf f.attempt) s.loader.span .viewLimit) (some f.viewLimitAt))) ∧
     (f.claim ≠ .opened ∨ reached s.clock f.viewLimitAt = false → exec .viewLimitExpiry s = .next s))) ∧
  (∀ (s : State) (l : LineHdr) (h : AttemptHdr) (n : Bool) (r : AttemptRecord) (start : Tick),
     s.Takes l (.takeoff h n) → s.loader.roles.span = true → s.attempt? h.attempt = some r →
     r.state = .onInrun → start = (if before s.span.presenceChanged s.clock then s.clock else s.span.presenceChanged) →
     ∃ t, exec (.takeoffFrame l.rx h n) s = .next t ∧
       (s.span.presence = false → t.span = { s.span with
         flight := some { attempt := h.attempt, created := s.clock }, kept := [] }) ∧
       (s.span.presence = true → t.span = { s.span with
         flight := some {
           attempt := h.attempt, created := s.clock, claim := .opened, claimStart := start
           viewLimitAt := start + secondsT s.loader.consts.flight.viewS }
         kept := [(⟨.inView r.hdr s.loader.span, some start⟩ : KeptFrame)] }))

/-- A CONTACT record, which refreshes the link: stray without a flight record, out of the span when its offset
passes the span's length, ignored for a track reported before; else its track is reported and CONTACT offered at
the span start plus the offset with the record's stamp, and an open claim with both tracks reported ends with
BOTH_TRACKS (R114, R117, R119). -/
def Obligations.HeadContacts : Prop :=
  ∀ (s u : State) (track : Track) (offset : Nat) (stamp : Tick) (e : SpanEntry), s.loader.roles.span = true →
    s.span.heard = true → offset ≤ 30000 → s.loader.consts.spanEntry s.loader.span = some e →
    u = { s with span := { s.span with lastRecord := stamp, head := [] } } →
    (s.span.flight = none → exec (.headContact track offset stamp) s =
      .next (u.raise (.strayContact track offset stamp))) ∧
    (∀ f, s.span.flight = some f →
      (e.endCm - e.startCm < offset → exec (.headContact track offset stamp) s =
        .next (u.raise (.contactOutOfSpan f.attempt track offset))) ∧
      (offset ≤ e.endCm - e.startCm →
        (f.reported track = true → exec (.headContact track offset stamp) s = .next u) ∧
        (f.reported track = false → ¬(f.claim = .opened ∧ (f.report track).bothTracks = true) →
          exec (.headContact track offset stamp) s = .next
            (({ u with span := { u.span with
              flight := some (f.report track)
              kept := u.span.kept ++ [(⟨.contact (s.hdrOf f.attempt) s.loader.span track
                (e.startCm + offset), some stamp⟩ : KeptFrame)] } }).offer
              (.contact (s.hdrOf f.attempt) s.loader.span track (e.startCm + offset)) (some stamp))) ∧
        (f.reported track = false → f.claim = .opened → (f.report track).bothTracks = true →
          ∃ t, exec (.headContact track offset stamp) s = .next t ∧
            t.span.flight = some { f.report track with claim := .ended } ∧
            t.span.kept = (s.span.kept ++ [(⟨.contact (s.hdrOf f.attempt) s.loader.span track
                (e.startCm + offset), some stamp⟩ : KeptFrame)]).filter (fun k : KeptFrame => !isInView k.body) ++
              [(⟨.viewLost (s.hdrOf f.attempt) s.loader.span .bothTracks, some stamp⟩ : KeptFrame)] ∧
            { t with span := s.span, line := s.line, latch := s.latch, console := s.console } = s)))

/-! ## The landing resolver's timers (R123 to R128) -/

/-- The resolver's timers, each taking effect only when it has run out. The inrun expiry sends a LANDING without
quality and with NO_TAKEOFF; the flight expiry closes the context, with the landing time at the expiry and the
end 500 ticks later; a claim at its limit ends; CLOSING's end sends the LANDING, MANUAL where a manual distance
is held; and no other context changes (R123, R124, R125, R128). Short of its time none does anything: the model's
choice, log entry 2. The resolution at its time: of the reports not later than the anchor plus the pairing window,
each track that has one gives, among those within a tick of its earliest, the one of the smallest position, then of
the earlier time, then of the lower span; two give floor((L + R) / 100) half-metres with BOTH, one floor(P / 50)
with ONE; the landing time is the earlier of the chosen reports'. A manual distance held stands in its place, and
reports not used set the late mark (R127).
How a context begins, at delivered frames: a record that a LEAVE or SPEED moves to ON_INRUN gets one, whose inrun timer
counts from the leave time, or from the frame's stamp without one; a TAKEOFF brings FLIGHT_WAIT with the flight
timer counting from the takeoff time (R122 to R124). A CONTACT in PAIRING enters once for its span and track while
fewer than eight are held, and an earlier one moves the anchor; a late one sets the late mark in CLOSING and has no
effect in SENT and without a context (R126, R129). -/
def Obligations.ResolverTimersAndResolution : Prop :=
  (∀ (s : State) (n : Nat) (c : LandingContext) (sent : Body → Tick → LandingContext),
     s.context? n = some c →
     (∀ b t, sent b t = { c with
       phase := .sent, timer := .stopped, claims := [], contacts := [], copy := some ⟨b, some t⟩ }) →
     (c.phase = .inrunWait → reached s.clock c.inrunAt = true →
       exec (.inrunTimerExpiry n) s = .next
         (({ s with
           contexts := putContext
             (sent (.landing (s.hdrOf n) 0 .none true c.late) c.inrunAt) s.contexts }).offer
           (.landing (s.hdrOf n) 0 .none true c.late) (some c.inrunAt))) ∧
     (c.phase ≠ .inrunWait ∨ reached s.clock c.inrunAt = false →
       exec (.inrunTimerExpiry n) s = .next s) ∧
     (∀ e, c.phase = .flightWait → c.timer = .running e →
       (reached s.clock e = true → exec (.flightTimerExpiry n) s = .next
         { s with
           contexts := putContext { c with
             phase := .closing, timer := .stopped, claims := [], landingTime := e
             resolveAt := e + 500 } s.contexts }) ∧
       (reached s.clock e = false → exec (.flightTimerExpiry n) s = .next s)) ∧
     (∀ left, c.timer = .suspended left → exec (.flightTimerExpiry n) s = .next s) ∧
     (∀ span, c.phase = .flightWait →
       ∃ t c', exec (.claimLimitReached n span) s = .next t ∧ t.context? n = some c' ∧
         c'.claims = c.claims.filter (fun k => ¬(k.span = span ∧ reached s.clock k.limit = true)) ∧
         (∀ left, c.timer = .suspended left → c.claims ≠ [] → c'.claims = [] →
           c'.timer = .running (s.clock + left)) ∧
         (c'.claims ≠ [] → c'.timer = c.timer) ∧ { t with contexts := s.contexts } = s) ∧
     (c.phase = .closing → reached s.clock c.resolveAt = true →
       (∀ m, c.manual = some m → exec (.closingEnd n) s = .next
         (({ s with
           contexts := putContext
             (sent (.landing (s.hdrOf n) m .manual false c.late) c.landingTime) s.contexts }).offer
           (.landing (s.hdrOf n) m .manual false c.late) (some c.landingTime))) ∧
       (c.manual = none → exec (.closingEnd n) s = .next
         (({ s with
           contexts := putContext
             (sent (.landing (s.hdrOf n) 0 .none false c.late) c.landingTime) s.contexts }).offer
           (.landing (s.hdrOf n) 0 .none false c.late) (some c.landingTime)))) ∧
     (c.phase ≠ .closing ∨ reached s.clock c.resolveAt = false → exec (.closingEnd n) s = .next s)) ∧
  ((∀ (s : State) (n : Nat) (c : LandingContext) (used : List ContactReport) (late : Bool) (d : Nat)
       (q : Quality) (time : Tick) (b : Body),
     s.context? n = some c → c.phase = .pairing → reached s.clock c.resolveAt = true →
     used = c.contacts.filter (fun r =>
       reached (c.anchor + millisT s.loader.consts.flight.pairingMs) r.time) →
     late = (c.late || decide (used.length < c.contacts.length)) →
     (d, q, time) = landingOf (chooseTrack used .left) (chooseTrack used .right) c.anchor →
     b = (match c.manual with
       | some m => .landing (s.hdrOf n) m .manual false late
       | none => .landing (s.hdrOf n) d q false late) →
     exec (.resolutionTime n) s = .next
       (({ s.raise (.landingResolved n d q (chooseTrack used .left) (chooseTrack used .right)
           (c.contacts.length - used.length)) with
         contexts := putContext { c with
             phase := .sent, timer := .stopped, claims := [], contacts := [], late := late,
             copy := some ⟨b, some time⟩ } s.contexts }).offer b (some time))) ∧
   (∀ (s : State) (n : Nat) (c : LandingContext), s.context? n = some c →
     c.phase ≠ .pairing ∨ reached s.clock c.resolveAt = false → exec (.resolutionTime n) s = .next s) ∧
   (∀ (l r : ContactReport) (anchor : Tick),
     landingOf (some l) (some r) anchor = ((l.position + r.position) / 100, .both,
       if before r.time l.time then r.time else l.time) ∧
     landingOf (some l) none anchor = (l.position / 50, .one, l.time) ∧
     landingOf none (some r) anchor = (r.position / 50, .one, r.time)) ∧
   (∀ (used : List ContactReport) (track : Track), (∃ q ∈ used, q.track = track) →
     ∃ r, chooseTrack used track = some r) ∧
   (∀ (used : List ContactReport) (track : Track) (r : ContactReport) (base : Tick),
     (∀ q ∈ used, (q.time - base).toNat < 2147483647) → chooseTrack used track = some r →
     r ∈ used ∧ r.track = track ∧
     (∀ q ∈ used, q.track = track → since r.time q.time ≤ 1) ∧
     ∀ q ∈ used, q.track = track → (∀ w ∈ used, w.track = track → since q.time w.time ≤ 1) →
       r.position < q.position ∨ r.position = q.position ∧
         (since r.time q.time < 0 ∨ r.time = q.time ∧ r.span ≤ q.span))) ∧
  ((∀ (s : State) (l : LineHdr) (b : Body) (h : AttemptHdr) (r : AttemptRecord) (limit : Tick), s.Takes l b →
     s.loader.roles.jury = true → s.loader.roles.start = false → b.hdr? = some h →
     s.attempt? h.attempt = some r →
     (r.state = .called ∨ r.state = .green → s.context? h.attempt = none →
       (∃ held, b = .leave h held ∧
           limit = r.leaveTime.getD l.eventTime + secondsT s.loader.consts.flight.inrunS) ∨
         (∃ v, b = .speed h v ∧ limit = r.leaveTime.getD l.stamp + secondsT s.loader.consts.flight.inrunS) →
       reached s.clock limit = false →
       ∃ t, exec (frameCommand l.rx b) s = .next t ∧
         t.context? h.attempt = some { attempt := h.attempt, phase := .inrunWait, inrunAt := limit }) ∧
     (∀ noSpeed, b = .takeoff h noSpeed → r.state = .called ∨ r.state = .green ∨ r.state = .onInrun →
       limit = r.takeoffTime.getD l.eventTime + secondsT s.loader.consts.flight.flightS →
       reached s.clock limit = false →
       ∃ t, exec (frameCommand l.rx b) s = .next t ∧
         (s.context? h.attempt = none → t.context? h.attempt =
           some { attempt := h.attempt, phase := .flightWait, timer := .running limit }) ∧
         (∀ c, s.context? h.attempt = some c → c.phase = .inrunWait → t.context? h.attempt = some { c with
           phase := .flightWait, timer := .running limit, claims := [], claimed := [], contacts := [] }))) ∧
   (∀ (s : State) (l : LineHdr) (h : AttemptHdr) (span : Nat) (track : Track) (pos : Nat) (r : AttemptRecord),
     s.Takes l (.contact h span track pos) → s.loader.roles.jury = true →
     s.loader.consts.spanStation span = some l.sender → s.attempt? h.attempt = some r →
     r.state = .airborne ∨ r.state = .landed ∨ r.state = .published →
     ∃ t, exec (.contactFrame l.rx h span track pos) s = .next t ∧
       (r.state ≠ .airborne → s.context? h.attempt = none → t.contexts = s.contexts) ∧
       ∀ c, s.context? h.attempt = some c →
         (c.phase = .pairing →
           (c.contacts.length ≥ 8 ∨ (∃ q ∈ c.contacts, q.span = span ∧ q.track = track) →
             t.contexts = s.contexts) ∧
           (∀ anchor at_, c.contacts.length < 8 → (∀ q ∈ c.contacts, ¬(q.span = span ∧ q.track = track)) →
             anchor = (if before l.eventTime c.anchor then l.eventTime else c.anchor) →
             at_ = anchor + millisT s.loader.consts.flight.pairingMs + 500 → reached s.clock at_ = false →
             t.context? h.attempt = some { c with
               timer := .stopped, claims := [], contacts := c.contacts ++ [⟨span, track, pos, l.eventTime⟩]
               anchor := anchor, resolveAt := at_ })) ∧
         (c.phase = .closing → t.context? h.attempt = some { c with late := true }) ∧
         (c.phase = .sent → t.contexts = s.contexts)))

/-! ## Scoring (R130, R135 to R148) -/

/-- MANUAL_DISTANCE and FORCE_SCORE at the jury station, and the gather's deadline. A manual distance above 600
half-metres answers RANGE, one for no attempt NOT_FOUND, one for an attempt neither AIRBORNE nor LANDED, or
whose context stands in INRUN_WAIT, STATE; a context past INRUN_WAIT keeps it for its resolution, and without a
context the waiting scoring part takes it and its gather opens. FORCE_SCORE lets three marks do, and the
deadline ends an open gather. Where the scoring test then passes, the part is SENT with revision 0, and the RESULT
computed from it and the reference gate is kept and offered (R130, R135, R137 to R139, R146). Before its time the
deadline does nothing: the model's choice, log entry 2; and so is STATE for a context in INRUN_WAIT and for an
AIRBORNE record without a context, log entry 41. -/
def Obligations.ManualAndForcedScores : Prop :=
  (∀ (s : State) (n d : Nat), s.JuryTakes →
    (600 < d → exec (.manualDistance n d) s = .next (s.afterAnswer 0x39 .range)) ∧
    (d ≤ 600 →
      (s.attempt? n = none → exec (.manualDistance n d) s = .next (s.afterAnswer 0x39 .notFound)) ∧
      (∀ r, s.attempt? n = some r →
        (r.state ≠ .airborne ∧ r.state ≠ .landed ∨
            (∃ c, s.context? n = some c ∧ c.phase = .inrunWait) ∨
            (s.context? n = none ∧ (r.state = .airborne ∨
              ∀ p, r.scoring = some p → p.stage ≠ .waiting)) →
          exec (.manualDistance n d) s = .next (s.afterAnswer 0x39 .state)) ∧
        (∀ c, r.state = .airborne ∨ r.state = .landed → s.context? n = some c →
          c.phase ≠ .inrunWait →
          exec (.manualDistance n d) s = .next
            (({ s with contexts := putContext { c with manual := some d } s.contexts }.afterAnswer 0x39
              .ok).raise (.manualTaken n d (some c.phase)))) ∧
        (∀ p, r.state = .landed → s.context? n = none → r.scoring = some p → p.stage = .waiting →
          ∃ t p', exec (.manualDistance n d) s = .next t ∧ t.part? n = some p' ∧
            p'.distance = some (d, .manual) ∧ p'.marks = p.marks ∧ p'.means = p.means ∧
            (p.gather ≠ .notOpen → p'.gather = p.gather) ∧
            (p.gather = .notOpen → p'.gather = .done ∨ p'.gather = .opened ∧
              p'.deadline = some (s.clock + secondsT s.loader.consts.flight.gatherS)) ∧
            (p'.stage = .sent ↔ p'.gather = .done ∧ s.Publishes r p') ∧
            (p'.stage = .sent → p'.revision = some 0 ∧
              p'.copy = some (s.computeResult r p' (s.referenceGate r) 0)) ∧
            t.console.replies = s.console.replies ++ [{ command := 0x39, code := .ok }] ∧
            { t with table := s.table, line := s.line, latch := s.latch, console := s.console } = s)))) ∧
  (∀ (s : State) (n : Nat), s.JuryTakes →
    (s.attempt? n = none → exec (.forceScore n) s = .next (s.afterAnswer 0x3C .notFound)) ∧
    (∀ r, s.attempt? n = some r →
      (r.scoring = none ∨ r.state = .published ∨ r.state = .void ∨ r.hdr.bib = 0 ∨
          s.scoring.mode = some .training ∨ (∃ p, r.scoring = some p ∧ p.stage ≠ .waiting) →
        exec (.forceScore n) s = .next (s.afterAnswer 0x3C .state)) ∧
      (∀ p, r.scoring = some p → r.state ≠ .published → r.state ≠ .void → p.stage = .waiting →
        r.hdr.bib ≠ 0 → s.scoring.mode ≠ some .training →
        ∃ t p', exec (.forceScore n) s = .next t ∧ t.part? n = some p' ∧ p'.force = true ∧
          p'.distance = p.distance ∧ p'.gather = p.gather ∧ p'.marks = p.marks ∧
          (p'.stage = .sent ↔ p.distance ≠ none ∧ p.gather = .done ∧ 3 ≤ p.marks.held.length ∧
            ∀ v ∈ s.scoring.voidCopies, v.hdr.attempt ≠ n) ∧
          (p'.stage = .sent → p'.revision = some 0 ∧
            p'.copy = some (s.computeResult r p (s.referenceGate r) 0)) ∧
          { t with table := s.table, line := s.line, latch := s.latch, console := s.console } = s))) ∧
  (∀ (s : State) (n : Nat) (r : AttemptRecord) (p : ScoringPart), s.attempt? n = some r →
    r.scoring = some p →
    (∀ e, p.gather = .opened → p.deadline = some e → reached s.clock e = true →
      ∃ t p', exec (.gatherDeadline n) s = .next t ∧ t.part? n = some p' ∧ p'.gather = .done ∧
        p'.deadline = none ∧ p'.means = p.means ∧ p'.distance = p.distance ∧
        (p.distance = none → p' = { p with gather := .done, deadline := none }) ∧
        (p.stage = .waiting →
          (p'.stage = .sent ↔ r.state ≠ .published ∧ r.state ≠ .void ∧ s.Publishes r p) ∧
          (p'.stage = .sent → ∀ res, res = s.computeResult r p (s.referenceGate r) 0 →
            p' = { p with
              gather := .done, deadline := none, refGateUsed := some (s.referenceGate r)
              computed := some res, revision := some 0, copy := some res, stage := .sent } ∧
            t.line = (s.offer (.result res) none).line)) ∧
        { t with table := s.table, line := s.line, latch := s.latch, console := s.console } = s) ∧
    (p.gather ≠ .opened ∨ expired s.clock p.deadline = false →
      exec (.gatherDeadline n) s = .next s))

/-- A correction of a published distance or mark in the round that stands. What cannot be corrected answers RANGE,
NOT_FOUND or STATE; otherwise the part takes the new value, the revision rises by one, the stage is SENT until
its echo, and the RESULT computed afresh from the corrected part and the stored reference gate is offered and
kept (R148). -/
def Obligations.CorrectionsPublishARevision : Prop :=
  ∀ (s : State) (n : Nat), s.JuryTakes →
    (∀ d, 600 < d → exec (.correctDistance n d) s = .next (s.afterAnswer 0x3A .range)) ∧
    (∀ seat mark, seat < 1 ∨ 5 < seat ∨ 40 < mark →
      exec (.correctMark n seat mark) s = .next (s.afterAnswer 0x3B .range)) ∧
    (∀ d seat mark, d ≤ 600 → 1 ≤ seat → seat ≤ 5 → mark ≤ 40 →
      (s.attempt? n = none →
        exec (.correctDistance n d) s = .next (s.afterAnswer 0x3A .notFound) ∧
        exec (.correctMark n seat mark) s = .next (s.afterAnswer 0x3B .notFound)) ∧
      (∀ r, s.attempt? n = some r →
        (r.state ≠ .published ∨ r.hdr.round ≠ s.standings.round.number ∨
            s.standings.round.state = .closed ∨
            (∀ p, r.scoring = some p → p.stage ≠ .published ∨ ∃ v, p.revision = some v ∧ 15 ≤ v) →
          exec (.correctDistance n d) s = .next (s.afterAnswer 0x3A .state) ∧
          exec (.correctMark n seat mark) s = .next (s.afterAnswer 0x3B .state)) ∧
        (r.hdr.bib = 0 ∨ s.scoring.mode = some .training →
          exec (.correctMark n seat mark) s = .next (s.afterAnswer 0x3B .state)) ∧
        (∀ p v g, r.scoring = some p → r.state = .published → p.stage = .published →
          r.hdr.round = s.standings.round.number → s.standings.round.state ≠ .closed →
          p.revision = some v → v < 15 → p.refGateUsed = some g →
          ∀ (i : Instr) (kind : Nat) (p' : ScoringPart) (res : ResultPayload),
            (i = .correctDistance n d ∧ kind = 0x3A ∧ p' = { p with distance := some (d, .manual) }) ∨
              (i = .correctMark n seat mark ∧ kind = 0x3B ∧ r.hdr.bib ≠ 0 ∧
                s.scoring.mode ≠ some .training ∧
                p' = { p with marks := p.marks.set seat (some mark) }) →
            res = s.computeResult r p' g (v + 1) →
            ∃ t, exec i s = .next t ∧
              t.table = s.table.map (fun x => if x.hdr.attempt = n then
                { x with scoring := x.scoring.map (fun _ => { p' with
                  refGateUsed := some g, computed := some res, revision := some (v + 1)
                  copy := some res, stage := .sent }) } else x) ∧
              t.line = (s.offer (.result res) none).line ∧
              t.console.replies = s.console.replies ++ [{ command := kind, code := .ok }] ∧
              { t with
                table := s.table, line := s.line, latch := s.latch, console := s.console } = s)))

/-- The parts of a RESULT (R140 to R145). The distance points are B + (d - K) x MV / 2; the style points set one
highest and one lowest mark aside and scale to three; the gate compensation takes the jury gate for a granted
request that the distance does not keep; a present wind value is weighed by the head or the tail factor; the
total is the sum of the four parts, or 0 where it is negative. The wind value is the weighted mean of the masts
included: a mean is held, over enough samples, with a weight above 0; with fewer masts than the least, it is absent;
PARTIAL_WIND says that an included mean is PARTIAL. Each value lies in the range that its rule gives. -/
def Obligations.PointsOfAResult : Prop :=
  (∀ (s : State) (r : AttemptRecord) (p : ScoringPart) (ref rev d gate used : Nat) (q : Quality)
      (k : Constants) (res : ResultPayload) (ms : List Nat),
    k = s.loader.consts → res = s.computeResult r p ref rev → p.distance = some (d, q) →
    r.juryGate = some gate → r.gateUsed = some used → ms = p.marks.held → (∀ m ∈ ms, m ≤ 40) →
    (k.hill.meterValue % 2 = 0 →
      res.distancePoints = k.hill.basePoints + ((d : Int) - k.hill.kPoint) * (k.hill.meterValue / 2 : Nat)) ∧
    (r.hdr.bib = 0 ∨ s.scoring.mode = some .training →
      res.stylePoints = 0 ∧ res.marks = ⟨none, none, none, none, none⟩) ∧
    (r.hdr.bib ≠ 0 → s.scoring.mode ≠ some .training → 3 ≤ ms.length → ms.length ≤ 5 →
      res.marks = p.marks ∧ res.flags.styleScaled = decide (ms.length < 5) ∧
      ∃ hi lo, hi ∈ ms ∧ lo ∈ ms ∧ (∀ m ∈ ms, lo ≤ m ∧ m ≤ hi) ∧
        res.stylePoints = roundHalfUp ((ms.sum - hi - lo) * 15) (ms.length - 2) ∧
        res.stylePoints ≤ 600) ∧
    (∀ from_ : Nat, from_ = (if r.coach = .granted ∧ d * 100 < 95 * k.hill.hillSize then gate else used) →
      res.gateComp = roundHalfAway (((ref : Int) - from_) * k.gates.spacing * k.gates.factor) 100) ∧
    (res.flags.coachQualified = true ↔ r.coach = .granted ∧ 95 * k.hill.hillSize ≤ d * 100) ∧
    res.wind = windValue k p.means ∧
    (res.flags.partialWind = true ↔ res.wind ≠ none ∧ ∃ e ∈ p.means, e.mean ≠ none ∧
      k.wind.minSamples ≤ e.used ∧ 0 < k.weight e.mast ∧ e.partialMean = true) ∧
    (res.flags.windUnavailable = true ↔ res.wind = none) ∧
    (res.wind = none → res.windComp = 0) ∧
    (∀ w, res.wind = some w →
      res.windComp = roundHalfAway (-w * (if 0 ≤ w then k.wind.headFactor else k.wind.tailFactor)) 100) ∧
    (res.total : Int) =
      max 0 (res.distancePoints + res.stylePoints + res.gateComp + res.windComp)) ∧
  (∀ (k : HillConsts) (d : Nat), 600 ≤ k.basePoints → k.basePoints ≤ 1200 → 40 ≤ k.kPoint →
    k.kPoint ≤ 500 → k.meterValue ≤ 60 → k.meterValue % 2 = 0 → d ≤ 600 →
    -14400 ≤ distancePoints k d ∧ distancePoints k d ≤ 18000 ∧
    (d < k.kPoint → 0 < k.meterValue → distancePoints k d < k.basePoints)) ∧
  (∀ (k : GatesConsts) (delta : Int), k.spacing ≤ 150 → k.factor ≤ 200 → -39 ≤ delta → delta ≤ 39 →
    -11700 ≤ roundHalfAway (delta * k.spacing * k.factor) 100 ∧
    roundHalfAway (delta * k.spacing * k.factor) 100 ≤ 11700 ∧
    (0 ≤ delta → 0 ≤ roundHalfAway (delta * k.spacing * k.factor) 100)) ∧
  (∀ (k : Constants) (means inc : List MeanEntry),
    inc = means.filter (fun e => e.mean.isSome && decide (k.wind.minSamples ≤ e.used) &&
      decide (0 < k.weight e.mast)) →
    (inc.length < k.wind.minMasts → windValue k means = none) ∧
    (k.wind.minMasts ≤ inc.length → windValue k means = some (roundHalfAway
      ((inc.map (fun e => (k.weight e.mast : Int) * e.mean.getD 0)).sum)
      ((inc.map (fun e => k.weight e.mast)).sum))) ∧
    (1 ≤ k.wind.minMasts → (∀ e ∈ means, ∀ x, e.mean = some x → -4000 ≤ x ∧ x ≤ 4000) →
      ∀ w, windValue k means = some w → -4000 ≤ w ∧ w ≤ 4000)) ∧
  (∀ (k : WindConsts) (w : Int), k.headFactor ≤ 300 → k.tailFactor ≤ 400 → -4000 ≤ w → w ≤ 4000 →
    -12000 ≤ windCompensation k (some w) ∧ windCompensation k (some w) ≤ 16000 ∧
    (0 ≤ w → windCompensation k (some w) ≤ 0) ∧ (w ≤ 0 → 0 ≤ windCompensation k (some w)) ∧
    (w = 0 → windCompensation k (some w) = 0)) ∧
  (∀ (dp gc wc : Int) (sp : Nat), dp ≤ 18000 → sp ≤ 600 → gc ≤ 11700 → wc ≤ 16000 →
    totalPoints dp sp gc wc ≤ 46300)

/-- The keypad record of a seat. A failing check discards it; a seat of another channel, no event, a mark above 40,
and no attempt to take it are refused with a REJECT answer and MARK_REFUSED; else the mark goes to the oldest attempt
that takes marks and misses this seat's, or replaces the seat's last one, with an ACCEPT answer; where the scoring
test then passes, the part is SENT with revision 0 and its RESULT (R138, R146); a gap above 200 ticks, or a character
with its stop bit low, drops a partial record. A REJECT lamp toggles each 1,000 ticks, and an answer ends after 10,000
(R136, R188). The model's choice: a gap or a time short of its limit does nothing (log entry 2), KEYPAD_GAP_TIMEOUT
brings the low stop bit (log entry 24), and a seat of no channel is refused as one of another channel is (log entry
64). -/
def Obligations.KeypadMarksAndLamps : Prop :=
  (∀ (s : State) (ch : Nat) (seat mark check : Byte), s.loader.roles.jury = true → 1 ≤ ch → ch ≤ 5 →
    (check ≠ 255 - (seat + mark) → exec (.keypadRecord ch seat mark check) s =
      .next (s.modSeat ch (fun x => { x with gathered := [] }))) ∧
    (check = 255 - (seat + mark) →
      ∃ t, exec (.keypadRecord ch seat mark check) s = .next t ∧
        (∀ other, 1 ≤ other → other ≤ 5 → other ≠ ch →
          t.judge.seats.get other = s.judge.seats.get other) ∧
        (∀ refused : Bool, refused = decide (seat.toNat ≠ ch ∨ s.line.eventNumber = 0 ∨ 40 < mark.toNat) →
          (refused = true →
            t.judge.seats.get ch = ⟨[], .reject, s.clock + 10000, s.clock + 1000, true⟩ ∧
            t.table = s.table ∧ t.scoring = s.scoring) ∧
          (refused = false → s.table.filter (fun r => s.takesMarks r && markMissing ch r) = [] →
            s.replaceable ch = none →
            t.judge.seats.get ch = ⟨[], .reject, s.clock + 10000, s.clock + 1000, true⟩ ∧
            t.table = s.table ∧ t.scoring = s.scoring) ∧
          (refused = false → ∀ r p, s.TableSound → r ∈ s.table → r.scoring = some p →
            s.takesMarks r = true →
            (p.marks.get ch = none ∧
              (∀ q ∈ s.table, q ≠ r → s.takesMarks q = true → markMissing ch q = true →
                since s.clock q.created < since s.clock r.created) ∨
              (∀ q ∈ s.table, s.takesMarks q = true → markMissing ch q = false) ∧
                s.scoring.lastMarked.get ch = some r.hdr.attempt) →
            t.judge.seats.get ch = ⟨[], .accept, s.clock + 10000, s.clock + 1000, true⟩ ∧
            t.scoring.lastMarked.get ch = some r.hdr.attempt ∧
            ∃ p', t.part? r.hdr.attempt = some p' ∧ p'.marks = p.marks.set ch (some mark.toNat) ∧
              p'.distance = p.distance ∧ p'.means = p.means ∧ p'.gather = p.gather ∧
              (p'.stage = .sent ↔ p.gather = .done ∧ s.Publishes r p') ∧
              (p'.stage = .sent → p'.revision = some 0 ∧
                p'.copy = some (s.computeResult r p' (s.referenceGate r) 0)))) ∧
        { t with
          judge := s.judge, table := s.table, scoring := s.scoring, line := s.line
          latch := s.latch, console := s.console } = s)) ∧
  (∀ (s : State) (ch gap : Nat), s.loader.roles.jury = true → 1 ≤ ch → ch ≤ 5 →
    (200 < gap → exec (.keypadGapTimeout ch (.gap gap)) s =
      .next (s.modSeat ch (fun x => { x with gathered := [] }))) ∧
    (gap ≤ 200 → exec (.keypadGapTimeout ch (.gap gap)) s = .next s) ∧
    exec (.keypadGapTimeout ch .lowStop) s = .next (s.modSeat ch (fun x => { x with gathered := [] })) ∧
    (∀ x, s.judge.seats.get ch = x →
      (x.answer = .reject → reached s.clock x.toggleAt = true → reached s.clock x.endsAt = false →
        exec (.lampFlashToggle ch) s = .next
          (s.modSeat ch (fun x => { x with lit := !x.lit, toggleAt := x.toggleAt + 1000 }))) ∧
      (x.answer ≠ .reject ∨ reached s.clock x.toggleAt = false ∨ reached s.clock x.endsAt = true →
        exec (.lampFlashToggle ch) s = .next s) ∧
      (x.answer ≠ .off → reached s.clock x.endsAt = true → exec (.lampAnswerEnd ch) s = .next
        (s.modSeat ch (fun x => { x with answer := .off, lit := false }))) ∧
      (x.answer = .off ∨ reached s.clock x.endsAt = false →
        exec (.lampAnswerEnd ch) s = .next s))) ∧
  (∀ (s : State) (ch : Nat) (why : KeypadDiscard) (seat mark check : Byte), s.loader.roles.jury = false →
    exec (.keypadRecord ch seat mark check) s = .next s ∧
    exec (.keypadGapTimeout ch why) s = .next s ∧ exec (.lampFlashToggle ch) s = .next s ∧
    exec (.lampAnswerEnd ch) s = .next s)

/-! ## The jury's commands (R149, R154 to R164, R177) -/

/-- The commands of the jury station that offer a frame. HOLD, RELEASE and TEXT; GO, SET_GATE and COACH_ACK for a
CALLED attempt with no call pending for it; VOID for an attempt of the standing round; NEW_EVENT while no call
and no event is under way: each is answered OK with its frame offered, and what its conditions turn away RANGE,
NOT_FOUND or STATE with nothing offered (R149, R159 to R161, R177). RANGE for a NEW_EVENT with a mode above 1 is the
model's choice: log entry 11. -/
def Obligations.JuryCommandsOfferFrames : Prop :=
  (∀ s : State, s.JuryTakes →
    exec .hold s = .next ((s.offer (.hold true) none).afterAnswer 0x37 .ok) ∧
    exec .release s = .next ((s.offer (.hold false) none).afterAnswer 0x38 .ok) ∧
    (∀ cs : List Byte,
      (1 ≤ cs.length → cs.length ≤ 32 → (∀ c ∈ cs, 0x20 ≤ c.toNat ∧ c.toNat ≤ 0x7E) →
        exec (.text cs) s = .next ((s.offer (.text cs) none).afterAnswer 0x3F .ok)) ∧
      (cs = [] ∨ 32 < cs.length ∨ (∃ c ∈ cs, c.toNat < 0x20 ∨ 0x7E < c.toNat) →
        exec (.text cs) s = .next (s.afterAnswer 0x3F .range)))) ∧
  (∀ (s : State) (n gate : Nat), s.JuryTakes → 1 ≤ gate → gate ≤ s.loader.consts.gates.count →
    (s.attempt? n = none →
      exec (.go n) s = .next (s.afterAnswer 0x34 .notFound) ∧
      exec (.setGate n gate) s = .next (s.afterAnswer 0x35 .notFound) ∧
      exec (.coachAck n) s = .next (s.afterAnswer 0x36 .notFound)) ∧
    (∀ r, s.attempt? n = some r →
      (r.state ≠ .called ∨ (∃ p, s.standings.pendingCall = some p ∧ p.attempt = n) →
        exec (.go n) s = .next (s.afterAnswer 0x34 .state) ∧
        exec (.setGate n gate) s = .next (s.afterAnswer 0x35 .state) ∧
        exec (.coachAck n) s = .next (s.afterAnswer 0x36 .state)) ∧
      (r.state = .called → (∀ p, s.standings.pendingCall = some p → p.attempt ≠ n) →
        exec (.go n) s = .next ((s.offer (.go r.hdr) none).afterAnswer 0x34 .ok) ∧
        exec (.setGate n gate) s =
          .next ((s.offer (.gate r.hdr gate false) none).afterAnswer 0x35 .ok) ∧
        (r.coach ≠ .pending → exec (.coachAck n) s = .next (s.afterAnswer 0x36 .state)) ∧
        (∀ q, r.coach = .pending → r.requested = some q →
          exec (.coachAck n) s =
            .next ((s.offer (.gate r.hdr q true) none).afterAnswer 0x36 .ok))))) ∧
  (∀ (s : State) (n gate : Nat), s.JuryTakes → gate < 1 ∨ s.loader.consts.gates.count < gate →
    exec (.setGate n gate) s = .next (s.afterAnswer 0x35 .range)) ∧
  (∀ (s : State) (n code : Nat), s.JuryTakes →
    (code < 3 ∨ 6 < code → exec (.void n code) s = .next (s.afterAnswer 0x3D .range)) ∧
    (∀ why, code = VoidReason.code why → 3 ≤ code →
      (s.attempt? n = none → exec (.void n code) s = .next (s.afterAnswer 0x3D .notFound)) ∧
      (∀ r, s.attempt? n = some r →
        (∀ kept : Prop, (kept ↔ ∃ v ∈ s.scoring.voidCopies, v.hdr.attempt = n) →
          (r.state = .void ∧ (r.voidReason ≠ none ∨ kept) ∨
              r.state ≠ .void ∧ (r.hdr.round ≠ s.standings.round.number ∨
                s.standings.round.state = .closed ∨ kept ∨
                (∃ p, r.scoring = some p ∧ p.stage = .sent) ∨ r.state = .published ∧ why ≠ .dsq) →
            exec (.void n code) s = .next (s.afterAnswer 0x3D .state)) ∧
          (r.state = .void ∧ r.voidReason = none ∧ ¬kept ∨
              r.state ≠ .void ∧ r.hdr.round = s.standings.round.number ∧
                s.standings.round.state ≠ .closed ∧ ¬kept ∧
                (∀ p, r.scoring = some p → p.stage ≠ .sent) ∧ (r.state = .published → why = .dsq) →
            exec (.void n code) s = .next
              ((({ s with scoring := { s.scoring with
                voidCopies := s.scoring.voidCopies ++ [(⟨r.hdr, why⟩ : VoidCopy)] } }.offer (.void r.hdr why)
                none).raise (.voidSent n why)).afterAnswer 0x3D .ok)))))) ∧
  (∀ (s : State) (n mode rounds : Nat), s.TakesRecord → s.loader.roles.jury = true →
    (n < 1 ∨ 255 < n ∨ 1 < mode ∨ rounds < 1 ∨ 4 < rounds →
      exec (.newEvent n mode rounds) s = .next (s.afterAnswer 0x30 .range)) ∧
    (1 ≤ n → n ≤ 255 → 1 ≤ rounds → rounds ≤ 4 → ∀ m : EventMode, mode = m.code →
      (s.standings.pendingCall ≠ none ∨ s.standings.eventCopy ≠ none →
        exec (.newEvent n mode rounds) s = .next (s.afterAnswer 0x30 .state)) ∧
      (s.standings.pendingCall = none → s.standings.eventCopy = none →
        exec (.newEvent n mode rounds) s = .next
          (({ s with standings := { s.standings with eventCopy := some (.event n m rounds) } }.offer
            (.event n m rounds) none).afterAnswer 0x30 .ok))))

/-- Start list and calling. START_LIST appends new bibs, and DNS takes one off; CALL takes the next attempt number
for the head of the list, or for a forerunner, and offers the CALL while the hill is free and the start station
stands IDLE; else it answers STATE, NOT_FOUND for an empty list, or FULL for eight live records; a delivered PHASE
or VOID of its attempt takes a pending call, whose bib leaves the list, a forerunner's apart; it lapses 2,000 ms
later, and its record becomes VOID without a reason (R53, R155, R157, R158). The first PHASE GREEN of an open round,
for a live attempt with a bib, sets the reference gate to the record's jury gate, with ROUND REF_SET (R162). The
echo of an own VOID REPEAT puts its bib at the head of the list, where the list holds it or has room (R156). The
model's choice: RANGE for a forerunner mark above 1 (log entry 11), and a lapse short of its time does nothing (log
entry 2). -/
def Obligations.StartListAndCalls : Prop :=
  (∀ (s : State) (bibs : List Nat), s.JuryTakes → 1 ≤ bibs.length → bibs.length ≤ 60 →
    ((∀ b ∈ bibs, 1 ≤ b ∧ b ≤ 199) → bibs.Nodup → (∀ b ∈ bibs, b ∉ s.standings.startList) →
      (s.standings.startList.length + bibs.length ≤ 80 → exec (.startList bibs) s = .next
        ({ s with standings := { s.standings with
          startList := s.standings.startList ++ bibs } }.afterAnswer 0x31 .ok)) ∧
      (80 < s.standings.startList.length + bibs.length →
        exec (.startList bibs) s = .next (s.afterAnswer 0x31 .full))) ∧
    ((∃ b ∈ bibs, b < 1 ∨ 199 < b ∨ b ∈ s.standings.startList) ∨ ¬bibs.Nodup →
      exec (.startList bibs) s = .next (s.afterAnswer 0x31 .range))) ∧
  (∀ (s : State) (bib : Nat), s.JuryTakes →
    (bib < 1 ∨ 199 < bib → exec (.dns bib) s = .next (s.afterAnswer 0x32 .range)) ∧
    (1 ≤ bib → bib ≤ 199 →
      (bib ∉ s.standings.startList → exec (.dns bib) s = .next (s.afterAnswer 0x32 .notFound)) ∧
      (bib ∈ s.standings.startList →
        ((∃ p, s.standings.pendingCall = some p ∧ p.bib = bib) →
          exec (.dns bib) s = .next (s.afterAnswer 0x32 .state)) ∧
        ((∀ p, s.standings.pendingCall = some p → p.bib ≠ bib) → exec (.dns bib) s = .next
          ({ s with standings := { s.standings with
            startList := s.standings.startList.filter (· ≠ bib) } }.afterAnswer 0x32 .ok))))) ∧
  (∀ (s : State) (gate fore : Nat) (n bib : Nat) (start : Nat) (h : StatusHeard) (part : StartPart),
    s.JuryTakes → 1 ≤ gate → gate ≤ s.loader.consts.gates.count → s.standings.pendingCall = none →
    (∀ r ∈ s.table, r.state = .landed ∨ r.state = .published ∨ r.state = .void) →
    s.loader.consts.stationWith (·.start) = some start → (s.rosterAt start).presence = .present →
    (s.rosterAt start).status = some h → h.payload.start = some part → part.phase = .idle →
    s.standings.round.state = .opened →
    (s.table.length < 8 ∨ ∃ r ∈ s.table, r.state = .published ∨ r.state = .void) →
    n = (match s.standings.lastAttempt with
      | none => 1
      | some m => if m < 65535 then m + 1 else 1) →
    (fore = 1 ∧ bib = 0 ∨ fore = 0 ∧ s.standings.startList.head? = some bib) →
    exec (.call gate fore) s = .next
      ((({ s with standings := { s.standings with
          lastAttempt := some n
          pendingCall := some ⟨n, bib, decide (fore = 1), s.clock + 20000⟩ } }.offer
        (.call ⟨n, bib, s.standings.round.number⟩ gate) none).raise (.callSent n bib)).afterAnswer 0x33
          .ok)) ∧
  (∀ (s : State) (gate fore : Nat), s.JuryTakes →
    (gate < 1 ∨ s.loader.consts.gates.count < gate ∨ 1 < fore →
      exec (.call gate fore) s = .next (s.afterAnswer 0x33 .range)) ∧
    (1 ≤ gate → gate ≤ s.loader.consts.gates.count → fore ≤ 1 →
      s.standings.pendingCall ≠ none ∨ s.standings.round.state ≠ .opened ∨
        (∃ r ∈ s.table, r.state = .called ∨ r.state = .green ∨ r.state = .onInrun ∨
          r.state = .airborne) ∨
        (∀ start h part, s.loader.consts.stationWith (·.start) = some start →
          (s.rosterAt start).presence = .present → (s.rosterAt start).status = some h →
          h.payload.start = some part → part.phase ≠ .idle) →
      exec (.call gate fore) s = .next (s.afterAnswer 0x33 .state)) ∧
    (1 ≤ gate → gate ≤ s.loader.consts.gates.count → fore ≤ 1 → s.standings.pendingCall = none →
      s.standings.round.state = .opened →
      (∀ r ∈ s.table, r.state = .landed ∨ r.state = .published ∨ r.state = .void) →
      (∃ start h part, s.loader.consts.stationWith (·.start) = some start ∧
        (s.rosterAt start).presence = .present ∧ (s.rosterAt start).status = some h ∧
        h.payload.start = some part ∧ part.phase = .idle) →
      (fore = 0 → s.standings.startList = [] →
        exec (.call gate fore) s = .next (s.afterAnswer 0x33 .notFound)) ∧
      (fore = 1 ∨ s.standings.startList ≠ [] → 8 ≤ s.table.length →
        (∀ r ∈ s.table, r.state = .landed) →
        exec (.call gate fore) s = .next (s.afterAnswer 0x33 .full)))) ∧
  (∀ (s : State) (p : PendingCall), s.loader.roles.jury = true → s.standings.pendingCall = some p →
    (reached s.clock p.lapseAt = false → exec .callLapsed s = .next s) ∧
    (reached s.clock p.lapseAt = true →
      ∃ t, exec .callLapsed s = .next t ∧ t.standings.pendingCall = none ∧
        t.table.map (·.hdr) = s.table.map (·.hdr) ∧
        (s.standings.round.state ≠ .closing →
          t.standings = { s.standings with pendingCall := none }) ∧
        (∀ r, s.attempt? p.attempt = some r → r.state ≠ .void →
          t.attempt? p.attempt = some { r with state := .void, scoring := none }) ∧
        t.loader = s.loader ∧ t.roster = s.roster ∧ t.judge = s.judge ∧
        t.line.eventNumber = s.line.eventNumber)) ∧
  (∀ s : State, s.standings.pendingCall = none → exec .callLapsed s = .next s) ∧
  (∀ (s : State) (l : LineHdr) (b : Body) (h : AttemptHdr) (p : PendingCall), s.Takes l b →
    s.loader.roles.jury = true → s.standings.round.state ≠ .closing → s.standings.pendingCall = some p →
    (∃ ph g sec n, b = .phase h ph g sec n) ∨ (∃ why, b = .void h why) →
    ∃ t, exec (frameCommand l.rx b) s = .next t ∧
      (p.attempt = h.attempt → t.standings.pendingCall = none ∧
        t.standings.startList =
          if p.forerunner then s.standings.startList else s.standings.startList.filter (· ≠ p.bib)) ∧
      (p.attempt ≠ h.attempt → t.standings.pendingCall = some p ∧
        t.standings.startList = s.standings.startList)) ∧
  (∀ (s : State) (l : LineHdr) (h : AttemptHdr) (g sec n : Nat) (r : AttemptRecord),
    s.Takes l (.phase h .green g sec n) → s.loader.roles.jury = true → s.standings.round.state = .opened →
    s.attempt? h.attempt = some r →
    ∃ t, exec (.phaseFrame l.rx h .green g sec n) s = .next t ∧
      (s.standings.round.refGate = none → h.round = s.standings.round.number → r.hdr.bib ≠ 0 →
        r.state ≠ .published → r.state ≠ .void → ∀ ref, ref = r.juryGate.getD g →
        t.standings.round = { s.standings.round with refGate := some ref } ∧
        t.standings.roundCopies = s.standings.roundCopies ++ [.round s.standings.round.number .refSet ref]) ∧
      (s.standings.round.refGate ≠ none ∨ h.round ≠ s.standings.round.number ∨ r.hdr.bib = 0 ∨
          r.state = .published ∨ r.state = .void →
        t.standings.round = s.standings.round ∧ t.standings.roundCopies = s.standings.roundCopies)) ∧
  (∀ (s : State) (l : LineHdr) (h : AttemptHdr), s.Echoes l (.void h .repeatJump) →
    s.loader.roles.jury = true → s.standings.round.state ≠ .closing → h.bib ≠ 0 →
    s.standings.pendingCall = none →
    ∃ t, exec (.voidFrame l.rx h .repeatJump) s = .next t ∧
      (h.bib ∈ s.standings.startList ∨ s.standings.startList.length < 80 →
        t.standings.startList = h.bib :: s.standings.startList.filter (· ≠ h.bib)) ∧
      (h.bib ∉ s.standings.startList → 80 ≤ s.standings.startList.length →
        t.standings.startList = s.standings.startList))

/-- CLOSE_ROUND: an open round becomes CLOSING, and closes at once where no attempt of it is live. At its close
ROUND CLOSED is offered with its reference gate, and, short of the planned rounds, the next round opens with the
eligible bibs of the closed one that place among the qualifiers as its start list, the best last; else the start
list is emptied. At a jury station that holds BOARD the board unit follows the round record (R154, R162 to R164,
R178). A CLOSING round closes in the same way with the RESULT, the VOID or the lapsed call that ends its last live
attempt, its notices raised with it, and stands while another attempt of it is live (R53, R158, R163, R164; that the
VOID takes the call and the frame enters the results list before the close is the model's choice: log entry 8). -/
def Obligations.CloseRound : Prop :=
  (∀ s : State, s.JuryTakes → s.standings.round.state ≠ .opened →
    exec .closeRound s = .next (s.afterAnswer 0x3E .state)) ∧
  (∀ s : State, s.JuryTakes → s.standings.round.state = .opened →
    ((∃ r ∈ s.table, r.hdr.round = s.standings.round.number ∧ r.state ≠ .published ∧ r.state ≠ .void) →
      ∃ t, exec .closeRound s = .next t ∧ s.BoardFollows t ∧
        { t with board := s.board } = ({ s with standings := { s.standings with
          round := { s.standings.round with state := .closing } } }.afterAnswer 0x3E .ok).raise
          (.roundClosing s.standings.round.number)) ∧
    ((∀ r ∈ s.table, r.hdr.round = s.standings.round.number → r.state = .published ∨ r.state = .void) →
      ∀ (n : Nat) (closed : Body), n = s.standings.round.number →
      closed = .round n .closed (orZero s.standings.round.refGate) →
      ∃ t, exec .closeRound s = .next t ∧
        (∀ planned, s.standings.roundsPlanned = some planned →
          (planned ≤ n → t.standings = { s.standings with
            round := { s.standings.round with state := .closed }, startList := []
            roundCopies := s.standings.roundCopies ++ [closed] }) ∧
          (n < planned → t.standings = { s.standings with
            round := { number := n + 1, state := .opened, refGate := none }
            startList := nextStartList s.standings.results n s.loader.consts.qualifiers
            roundCopies := s.standings.roundCopies ++ [closed, .round (n + 1) .opened 0] })) ∧
        (s.line.routine.length < 8 → s.loader.state.isMuted = false →
          (⟨closed, s.line.eventNumber, none⟩ : QueuedFrame) ∈ t.line.routine) ∧
        t.console.replies = s.console.replies ++ [{ command := 0x3E, code := .ok }] ∧ s.BoardFollows t ∧
        s.RoundCloses t s.standings.startList.length ∧
        { t with
          standings := s.standings, board := s.board, line := s.line, latch := s.latch, console := s.console } = s)) ∧
  (∀ (s : State) (l : LineHdr) (b : Body) (h : AttemptHdr) (r : AttemptRecord), s.Delivers l b →
    s.loader.roles.jury = true → s.standings.round.state = .closing → s.attempt? h.attempt = some r →
    r.state ≠ .void →
    (∃ why, b = .void h why) ∨ (∃ p, b = .result p ∧ p.hdr = h) ∧ r.state ≠ .published ∧
      ¬(s.loader.roles.start = true ∧ l.sender ≠ s.loader.station ∧ (r.state = .called ∨ r.state = .green)) →
    ∃ t, exec (frameCommand l.rx b) s = .next t ∧
      ((∃ q ∈ s.table, q.hdr.attempt ≠ h.attempt ∧ q.hdr.round = s.standings.round.number ∧
          q.state ≠ .published ∧ q.state ≠ .void) →
        t.standings.round = s.standings.round ∧ t.standings.roundCopies = s.standings.roundCopies) ∧
      ((∀ q ∈ s.table, q.hdr.attempt ≠ h.attempt → q.hdr.round = s.standings.round.number →
          q.state = .published ∨ q.state = .void) →
        ∃ discarded, s.RoundCloses t discarded ∧
          ((∀ why, b ≠ .void h why) → discarded = s.standings.startList.length))) ∧
  (∀ (s : State) (p : PendingCall) (r : AttemptRecord), s.loader.roles.jury = true →
    s.standings.round.state = .closing → s.standings.pendingCall = some p → reached s.clock p.lapseAt = true →
    s.attempt? p.attempt = some r → r.state ≠ .void →
    ∃ t, exec .callLapsed s = .next t ∧ t.standings.pendingCall = none ∧
      t.standings.results = s.standings.results ∧
      ((∃ q ∈ s.table, q.hdr.attempt ≠ p.attempt ∧ q.hdr.round = s.standings.round.number ∧
          q.state ≠ .published ∧ q.state ≠ .void) →
        t.standings = { s.standings with pendingCall := none }) ∧
      ((∀ q ∈ s.table, q.hdr.attempt ≠ p.attempt → q.hdr.round = s.standings.round.number →
          q.state = .published ∨ q.state = .void) → s.RoundCloses t s.standings.startList.length)) ∧
  (∀ (es : List ResultsEntry) (round q bib : Nat),
    (nextStartList es round q).reverse.Sublist (es.map (·.bib)) ∧
    (bib ∈ nextStartList es round q ↔ ∃ e ∈ es, e.bib = bib ∧ (∀ x ∈ e.rounds.toList, x.isDsq = false) ∧
      (e.rounds.get round).isOk = true ∧
      (q = 0 ∨ (es.filter (fun f => !f.hasDsq && (f.rounds.get round).isOk && f.better e)).length < q)))

/-! ## The board's timers (R171, R178, R179, R181, R182) -/

/-- The end of a page's time shows the next page of the queue, pages beyond the standings as they stand left out,
or, with none waiting, a new rotation of the standings from its first page. The seconds of a current LIVE page
in GREEN change with the clock. A row period asserts blank, sends the dots of the row on column data in order, pulses
latch, sets row select and releases blank, with blank asserted until that last part, and a ready back buffer becomes
the front one at the first row (R171, R178, R179, R181, R182). The model's choice: before its time none has an effect
(log entry 2), and the five parts of a row period are done whole (log entry 61).
The pages that frames bring, at a board that knows the attempt. Where no LIVE page exists, a PHASE of the start
station for a record in CALLED to AIRBORNE shows one in the place of a page of a worse priority; a LIVE page that is
shown takes each PHASE of its attempt, is composed again at its SPEED, and is timed by the LANDING that moves its
record (R174, R175). A RESULT of the jury shows its page in the place of a STANDINGS page, and changes nothing that is
shown while a page of its attempt with no lower revision is (R177). A STATUS of the start station with causes, where
none were known, shows the HOLD page in the place of a page of a worse priority; one without causes removes it
(R176). -/
def Obligations.BoardTimers : Prop :=
  (∀ (s : State) (c : CurrentPage) (e : Tick), s.board.current = some c → c.endsAt = some e →
    (reached s.clock e = false → exec .pageTimeEnd s = .next s) ∧
    (reached s.clock e = true →
      ∀ (queue : List PageEntry), queue = s.board.queue.dropWhile (fun f => match f.page with
        | .standings i => pageCount s.standings.results.length ≤ i
        | _ => false) →
      (∀ next rest, queue = next :: rest → exec .pageTimeEnd s = .next { s with board := { s.board with
        queue := rest, current := some ⟨next, next.duration.map (fun d => s.clock + ticks d)⟩
        back := s.compose next.page, ready := true, shownSeconds := s.liveSeconds next.page } }) ∧
      (queue = [] → ∀ (entry : Nat → PageEntry),
        (∀ i, entry i = ⟨.standings i, some (s.loader.consts.board.standingsS * 10000)⟩) →
        exec .pageTimeEnd s = .next { s with board := { s.board with
          queue := ((List.range (max 1 ((s.standings.results.length + 9) / 10))).drop 1).map entry
          current := some ⟨entry 0,
            some (s.clock + ticks (s.loader.consts.board.standingsS * 10000))⟩
          back := s.composeStandings 0, ready := true, shownSeconds := none } }))) ∧
  (∀ (s : State) (c : CurrentPage) (n : Nat) (p : Phase) (g : Nat × Tick) (r : AttemptRecord) (left_ : Nat),
    s.board.current = some c → c.entry.page = .live n p (some g) → s.attempt? n = some r →
    left_ = g.1 - (since s.clock g.2).toNat / 10000 →
    (r.state = .green → s.board.shownSeconds ≠ some left_ →
      exec .liveSecondsTick s = .next { s with board := { s.board with
        back := s.compose c.entry.page, ready := true, shownSeconds := some left_ } }) ∧
    (r.state ≠ .green ∨ s.board.shownSeconds = some left_ →
      exec .liveSecondsTick s = .next s)) ∧
  (∀ (s : State) (e : Tick), s.board.nextRow = some e →
    (reached s.clock e = false → exec .panelRowPeriod s = .next s) ∧
    (reached s.clock e = true → ∀ (swap : Bool) (dots : List Bool),
      swap = (decide (s.board.row = 0) && s.board.ready) →
      dots = (List.range s.loader.consts.board.colsTotal).map (fun x =>
        panelDot s.loader.consts.board (if swap then s.board.back else s.board.front) x s.board.row) →
      exec .panelRowPeriod s = .next { s with board := { s.board with
        front := if swap then s.board.back else s.board.front
        back := if swap then s.board.front else s.board.back
        ready := s.board.ready && !swap
        scan := .blank true :: dots.map .column ++
          [.latch true, .latch false, .rowSelect s.board.row, .blank false]
        panel := { rowSelect := s.board.row, columnData := dots, latch := false, blank := false }
        row := if s.board.row + 1 < s.loader.consts.board.rowsTotal then s.board.row + 1 else 0
        nextRow := some (e + 1) } })) ∧
  (∀ (dots : List Bool) (row n : Nat) (o : PanelOutputs), 1 ≤ n → n ≤ dots.length + 4 →
    (((rowItems dots row).take n).foldl PanelOutputs.drive o).blank = true) ∧
  (∀ s : State, (s.board.current = none → exec .pageTimeEnd s = .next s ∧
      exec .liveSecondsTick s = .next s) ∧
    (∀ c, s.board.current = some c → c.endsAt = none → exec .pageTimeEnd s = .next s) ∧
    (s.board.nextRow = none → exec .panelRowPeriod s = .next s)) ∧
  (∀ (s : State) (l : LineHdr) (b : Body) (h : AttemptHdr) (r : AttemptRecord) (c : CurrentPage), s.Takes l b →
    s.loader.roles.board = true → b.hdr? = some h → s.attempt? h.attempt = some r →
    s.board.current = some c →
    (∀ p g sec n page, b = .phase h p g sec n → s.loader.consts.stationWith (·.start) = some l.sender →
      r.state = .called ∨ r.state = .green ∨ r.state = .onInrun ∨ r.state = .airborne →
      page = .live h.attempt p (if p = .green then some (sec, l.stamp) else none) →
      (∀ q ∈ s.pages, q.isLive = false) → c.entry.page.priority ≠ 1 →
      ∃ t, exec (frameCommand l.rx b) s = .next t ∧ t.board.current = some ⟨⟨page, none⟩, none⟩ ∧
        t.board.queue = (s.arrive ⟨page, none⟩).board.queue ∧ t.board.back = t.compose page ∧
        t.board.ready = true) ∧
    (∀ p0 g0, c.entry.page = .live h.attempt p0 g0 →
      (∀ p g sec n page, b = .phase h p g sec n → s.loader.consts.stationWith (·.start) = some l.sender →
        r.state = .called ∨ r.state = .green ∨ r.state = .onInrun ∨ r.state = .airborne →
        page = .live h.attempt p (if p = .green then some (sec, l.stamp) else g0) →
        ∃ t, exec (frameCommand l.rx b) s = .next t ∧
          t.board.current = some ⟨{ c.entry with page := page }, c.endsAt⟩ ∧ t.board.back = t.compose page ∧
          t.board.ready = true) ∧
      (∀ v, b = .speed h v → ∃ t, exec (frameCommand l.rx b) s = .next t ∧ t.board.current = some c ∧
        t.board.back = t.compose c.entry.page ∧ t.board.ready = true) ∧
      (∀ d q nt lc hold, b = .landing h d q nt lc → r.state = .onInrun ∨ r.state = .airborne →
        hold = s.loader.consts.board.liveHoldS * 10000 → c.entry.duration = none →
        ∃ t, exec (frameCommand l.rx b) s = .next t ∧
          t.board.current = some ⟨{ c.entry with duration := some hold }, some (s.clock + ticks hold)⟩)) ∧
    (∀ p time, b = .result p → s.loader.consts.stationWith (·.jury) = some l.sender →
      time = s.loader.consts.board.resultS * 10000 → (∀ q ∈ s.pages, q.isLiveOf h.attempt = false) →
      ((∀ i, c.entry.page = .standings i →
          (∀ f ∈ s.board.queue, f.page.isResult h.attempt (fun _ => true) = false) →
          ∃ t, exec (frameCommand l.rx b) s = .next t ∧
            t.board.current = some ⟨⟨.result p, some time⟩, some (s.clock + ticks time)⟩ ∧
            t.board.queue = (s.arrive ⟨.result p, some time⟩).board.queue ∧
            t.board.back = t.compose (.result p)) ∧
        (∀ q, c.entry.page = .result q → q.hdr.attempt = h.attempt → p.revision ≤ q.revision →
          ∃ t, exec (frameCommand l.rx b) s = .next t ∧ t.board.current = some c ∧
            t.board.queue = s.board.queue ∧ t.board.back = s.board.back)))) ∧
  (∀ (s : State) (l : LineHdr) (p : StatusPayload) (q : StartPart), s.Takes l (.status p) →
    s.loader.roles.board = true → s.loader.consts.stationWith (·.start) = some l.sender → p.start = some q →
    ∃ t, exec (.statusFrame l.rx p) s = .next t ∧
      (∀ c, s.board.knownHolds.isEmpty = true → q.causes.isEmpty = false → s.board.current = some c →
        c.entry.page.priority ≠ 1 →
        t.board.current = some ⟨⟨.hold, none⟩, none⟩ ∧
        t.board.queue = (s.arrive ⟨.hold, none⟩).board.queue ∧ t.board.back = t.compose .hold) ∧
      (s.board.knownHolds.isEmpty = false → q.causes.isEmpty = true → ∀ g ∈ t.pages, g.isHold = false))

/-! ## The console link (R32, R33, R184 to R187) -/

/-- What becomes of a complete console record before its own rule: nothing is received under RESET, nor while the
assembler ignores characters, though they end the quiet of RX; eight replies waiting lose it with the command-lost
mark; LOADING answers STATE to all but STATUS_QUERY; a station without the command's role answers ROLE; and the jury
station without an event answers EVENT to all of its commands but NEW_EVENT (R154, R184, R185). -/
def Obligations.ConsoleRecordsAreGated : Prop :=
  ∀ (c : Instr) (k : Nat) (s : State), consoleKind c = some k → c.wf = true →
    (s.resetAsserted = true → exec c s = .next s) ∧
    (s.resetAsserted = false → s.console.skipping = true → exec c s = .next { s with console := { s.console with
      rxQuietUs := 0 } }) ∧
    (s.resetAsserted = false → s.console.skipping = false →
      (8 ≤ s.console.replies.length → exec c s = .next { s with console := { s.console with
        gathered := [], rxQuietUs := 0, commandLost := true } }) ∧
      (s.console.replies.length < 8 →
        (s.loader.state = .loading → k ≠ 0x01 → exec c s = .next (s.afterAnswer k .state)) ∧
        (s.loader.state ≠ .loading → consoleRole k s.loader.roles = false →
          exec c s = .next (s.afterAnswer k .role)) ∧
        (s.loader.state ≠ .loading → consoleRole k s.loader.roles = true → needsEvent k = true →
          s.line.eventNumber = 0 → exec c s = .next (s.afterAnswer k .event))))

/-- The commands of every station, and the console port. STATUS_QUERY answers with the reports of the state and of
the roles and clears the two marks, in LOADING with the Station report alone; NOTICE_MASK sets the six classes;
CLEAR_FAULT empties the latch; a record of unknown kind or length answers RANGE, and a length above 60 makes the
assembler ignore what follows; RX quiet for 100 ticks ends that, and a gap past 100 drops the partial record, as a
framing error does; the transmitter sends the rest of a unit before a reply, and a reply before a notice (R33, R184
to R187). The model's choice: a shorter gap does nothing (log entry 2), CONSOLE_TRANSMIT ends one record and starts
the next, which leaves its queue at its start (log entry 12), and the mark that ignores characters (log entry
29). -/
def Obligations.ConsolePort : Prop :=
  (∀ s : State, s.resetAsserted = false → s.console.skipping = false → s.console.replies.length < 8 →
    exec .statusQuery s = .next { s with console := { s.console with
      gathered := [], rxQuietUs := 0, overrun := false, commandLost := false
      replies := s.console.replies ++ [⟨0x01, .ok, [], s.reports⟩] } } ∧
    (s.loader.state = .loading → s.reports = [s.stationReport]) ∧
    (s.loader.state ≠ .loading → s.reports.map (·.kind) = 0x82 :: List.replicate 16 0x83 ++
      (if s.loader.roles.start then [0x84] else []) ++ (if s.loader.roles.mast then [0x85] else []) ++
      (if s.loader.roles.jury then [0x86] else []) ++ (if s.loader.roles.board then [0x87] else []))) ∧
  (∀ s : State, s.TakesRecord →
    (∀ flags, flags < 64 → exec (.noticeMask flags) s =
      .next ({ s with console := { s.console with
        mask := ⟨flags.testBit 0, flags.testBit 1, flags.testBit 2, flags.testBit 3, flags.testBit 4,
          flags.testBit 5⟩ } }.afterAnswer 0x04 .ok)) ∧
    (∀ flags, 64 ≤ flags → flags < 256 →
      exec (.noticeMask flags) s = .next (s.afterAnswer 0x04 .range)) ∧
    exec .clearFault s =
      .next ({ s with latch := { record := none, overflow := false } }.afterAnswer 0x03 .ok) ∧
    (∀ kind payload, payload.length ≤ 60 → knownCommand kind payload.length = false →
      exec (.unknownCommand kind payload) s = .next (s.afterAnswer kind .range))) ∧
  (∀ s : State, s.resetAsserted = false →
    (∀ kind payload, 60 < payload.length → exec (.unknownCommand kind payload) s =
      .next { s with console := { s.console with gathered := [], skipping := true, rxQuietUs := 0 } }) ∧
    (∀ gap, 100 ≤ gap → exec (.consoleGapTimeout gap) s = .next { s with console := { s.console with
      gathered := if gap = 100 then s.console.gathered else [], skipping := false, rxQuietUs := gap * 100 } }) ∧
    (∀ gap, gap < 100 → exec (.consoleGapTimeout gap) s = .next s) ∧
    exec .consoleFramingError s =
      .next { s with console := { s.console with gathered := [], rxQuietUs := 0 } } ∧
    (∀ r rest, s.console.unit = r :: rest → exec .consoleTransmit s =
      .next { s with console := { s.console with sending := some r, unit := rest } }) ∧
    (s.console.unit = [] →
      (∀ r rest, s.console.replies = r :: rest → exec .consoleTransmit s =
        .next { s with console := { s.console with
          sending := some ⟨0x80, [byte r.command, byte r.code.code] ++ r.extra⟩
          unit := r.reports, replies := rest } }) ∧
      (s.console.replies = [] →
        (∀ n rest, s.console.notices = n :: rest → exec .consoleTransmit s =
          .next { s with console := { s.console with
            sending := some ⟨0x81, [byte n.body.number.1, byte n.body.number.2] ++
              le32 n.time.toNat ++ n.body.contents⟩
            notices := rest } }) ∧
        (s.console.notices = [] → exec .consoleTransmit s =
          .next { s with console := { s.console with sending := none } })))) ∧
  (∀ (s : State) (n : NoticeBody), s.loader.state ≠ .loading →
    s.console.mask.has n.number.1 = true →
    (s.console.notices.length < 32 → s.raise n = { s with console := { s.console with
      notices := s.console.notices ++ [⟨s.clock, n⟩] } }) ∧
    (32 ≤ s.console.notices.length → s.raise n =
      { s with console := { s.console with overrun := true } })) ∧
  (∀ (s : State) (n : NoticeBody), s.loader.state = .loading ∨ s.console.mask.has n.number.1 = false →
    s.raise n = s)

/-- RESTART empties the competition state, answers OK alone, and makes the current event number 0; the constants,
the roster, the barriers, the failed lamps, the sensor bus, the head link and the clock stay (R18, R34, R57,
R81, R112, R153, R169, R183, R186). The model's choice: the rest of a console unit is dropped with the replies
(log entry 18). -/
def Obligations.RestartEmptiesTheCompetition : Prop :=
  ∀ s : State, s.TakesRecord →
    ∃ t, exec .restart s = .next t ∧ t.table = [] ∧ t.standings = {} ∧ t.scoring = {} ∧
      t.judge = {} ∧ t.line.eventNumber = 0 ∧
      (s.line.eventNumber ≠ 0 → ∀ f ∈ t.line.urgent ++ t.line.routine,
        f.body.kind = 0x01 ∨ f.event = 0) ∧
      t.console.replies = [{ command := 0x02, code := .ok }] ∧ t.console.unit = [] ∧
      t.console.sending = s.console.sending ∧ t.console.mask = s.console.mask ∧
      t.loader = s.loader ∧ t.roster = s.roster ∧ t.clock = s.clock ∧ t.line.tx = s.line.tx ∧
      (s.loader.roles.start = true → t.start.phase = .idle ∧ t.start.current = none ∧
        t.start.corridor = [] ∧ t.start.backlog = 0 ∧ t.start.barrier = s.start.barrier ∧
        t.start.failed = s.start.failed ∧ t.start.standing .jury = false ∧
        t.start.standing .track = false ∧ t.start.standing .coach = false ∧
        (t.start.standing .lamp = true ↔ s.start.failed ≠ {})) ∧
      (s.loader.roles.edge = true → t.edge.a = s.edge.a ∧ t.edge.b = s.edge.b ∧
        t.edge.t = s.edge.t ∧ t.edge.micros = s.edge.micros) ∧
      (s.loader.roles.mast = true → t.wind = { s.wind with
        lastSequence := none, lastGood := none, heldCount := 0, goodCount := 0, noAnswer := 0, ring := []
        means := [], stable := false }) ∧
      (s.loader.roles.span = true → t.span.heard = s.span.heard ∧ t.span.presence = s.span.presence ∧
        t.span.lastRecord = s.span.lastRecord) ∧
      (s.loader.roles.jury = true → ∀ c ∈ t.contexts, ∀ r ∈ s.table, r.hdr.attempt ≠ c.attempt) ∧
      (s.loader.roles.board = true → t.board.knownHolds = {} ∧ t.board.knownAttempt = none ∧
        t.board.front = s.board.front ∧ t.board.current.map (·.entry.page) = some (.standings 0))

/-! ## Frames as bytes (section 12.1, R2, R3) -/

/-- The bytes of a frame with every field in its range decode to that frame: no bit of a kind's layout is lost (R2,
R190). -/
def Obligations.FramesRoundTrip : Prop :=
  ∀ (sender event : Nat) (age : Word16) (b : Body), sender ≤ 15 → event ≤ 255 → b.inRange = true →
    decodeFrame (frameBytes sender event age b) = some (sender, event, age, b)

/-! ## Invariants that every step keeps -/

/-- Every step keeps the bounds of the queues and lists: eight frames a transmit queue, one STATUS and one CORRIDOR
waiting, nothing to send in MUTED, eight replies and 32 notices, sixteen roster entries, 160 samples and counts
up to 10 (section 1.4, R4, R10, R94, R101, R103, R185, R187). -/
def Obligations.EveryStepKeepsTheBounds : Prop :=
  ∀ s t : State, step s = .next t →
    (s.QueuesSound → t.QueuesSound) ∧ (s.MutedQuiet → t.MutedQuiet) ∧
    (s.ConsoleSound → t.ConsoleSound) ∧ (s.RosterSound → t.RosterSound) ∧ (s.WindSound → t.WindSound)

/-- Every step keeps the attempt table sound: at most eight records, one for an attempt, and at most one in a flight
state (R35, R43). -/
def Obligations.EveryStepKeepsTheTable : Prop :=
  ∀ s t : State, step s = .next t → s.TableSound → t.TableSound

/-- Every step keeps the start safe: no cause stands twice in the hold list, no cause stands while the start is
AMBER or GREEN, and there is a current attempt exactly outside IDLE (R59, R62, R64). -/
def Obligations.EveryStepKeepsTheStartSafe : Prop :=
  ∀ s t : State, step s = .next t → s.HoldsSound ∧ s.CycleSound → t.HoldsSound ∧ t.CycleSound

/-- Every step keeps the standings sound: at most 80 bibs on the start list and none twice, and a results list of at
most 80 entries, one a bib, in the order of R168 (R166, R168). -/
def Obligations.EveryStepKeepsTheStandings : Prop :=
  ∀ s t : State, step s = .next t → s.StandingsSound → t.StandingsSound

/-- Every step keeps the page queue sound: at most sixteen pages wait, at most one LIVE page and one HOLD page
exist, and no HOLD page while no hold is known (sections 10.2 and 10.3). -/
def Obligations.EveryStepKeepsThePages : Prop :=
  ∀ s t : State, step s = .next t → s.BoardSound → t.BoardSound

/-- Only a delivered EVENT, a STATUS of the station that the map names as JURY, with an event number other than 0, at
a station without one, RESTART and a reset change the current event number; no other command and no passing of time
does (R6, R18). -/
def Obligations.EventNumberChangesOnlyBy : Prop :=
  ∀ s t : State, step s = .next t → t.line.eventNumber ≠ s.line.eventNumber →
    ∃ c rest, s.pending = c :: rest ∧
      ((∃ l n m r, c = .eventFrame l n m r ∧ t.line.eventNumber = n) ∨
        (∃ l p, c = .statusFrame l p ∧ s.line.eventNumber = 0 ∧ s.loader.roles.jury = false ∧
          s.loader.consts.stationWith (·.jury) = some l.sender ∧ l.event ≠ 0 ∧
          t.line.eventNumber = l.event) ∨
        (c = .restart ∧ t.line.eventNumber = 0) ∨
        (c = .resetAssert ∧ t = { pending := rest, resetAsserted := true }) ∨
        (∃ straps, c = .resetRelease straps ∧ s.resetAsserted = true ∧ t.line.eventNumber = 0))
end

