-- ==== Sys2Proof/Laws/State.lean ====
section
/-! SUPPORT. The fields of a state after each of the named updates, one lemma a field, true by `rfl`: no
later proof unfolds a record update. -/

namespace Sys2Proof.Machine

open Sys2Proof


/-! ### `State.modStart` -/

@[simp] theorem State.modStart_pending (s : State) (f : StartState → StartState) :
    (s.modStart f).pending = s.pending := rfl

@[simp] theorem State.modStart_resetAsserted (s : State) (f : StartState → StartState) :
    (s.modStart f).resetAsserted = s.resetAsserted := rfl

@[simp] theorem State.modStart_clock (s : State) (f : StartState → StartState) :
    (s.modStart f).clock = s.clock := rfl

@[simp] theorem State.modStart_subTick (s : State) (f : StartState → StartState) :
    (s.modStart f).subTick = s.subTick := rfl

@[simp] theorem State.modStart_loader (s : State) (f : StartState → StartState) :
    (s.modStart f).loader = s.loader := rfl

@[simp] theorem State.modStart_latch (s : State) (f : StartState → StartState) :
    (s.modStart f).latch = s.latch := rfl

@[simp] theorem State.modStart_roster (s : State) (f : StartState → StartState) :
    (s.modStart f).roster = s.roster := rfl

@[simp] theorem State.modStart_line (s : State) (f : StartState → StartState) :
    (s.modStart f).line = s.line := rfl

@[simp] theorem State.modStart_table (s : State) (f : StartState → StartState) :
    (s.modStart f).table = s.table := rfl

@[simp] theorem State.modStart_start (s : State) (f : StartState → StartState) :
    (s.modStart f).start = f s.start := rfl

@[simp] theorem State.modStart_edge (s : State) (f : StartState → StartState) :
    (s.modStart f).edge = s.edge := rfl

@[simp] theorem State.modStart_wind (s : State) (f : StartState → StartState) :
    (s.modStart f).wind = s.wind := rfl

@[simp] theorem State.modStart_span (s : State) (f : StartState → StartState) :
    (s.modStart f).span = s.span := rfl

@[simp] theorem State.modStart_contexts (s : State) (f : StartState → StartState) :
    (s.modStart f).contexts = s.contexts := rfl

@[simp] theorem State.modStart_scoring (s : State) (f : StartState → StartState) :
    (s.modStart f).scoring = s.scoring := rfl

@[simp] theorem State.modStart_standings (s : State) (f : StartState → StartState) :
    (s.modStart f).standings = s.standings := rfl

@[simp] theorem State.modStart_board (s : State) (f : StartState → StartState) :
    (s.modStart f).board = s.board := rfl

@[simp] theorem State.modStart_console (s : State) (f : StartState → StartState) :
    (s.modStart f).console = s.console := rfl

@[simp] theorem State.modStart_judge (s : State) (f : StartState → StartState) :
    (s.modStart f).judge = s.judge := rfl


/-! ### `State.modEdge` -/

@[simp] theorem State.modEdge_pending (s : State) (f : EdgeState → EdgeState) :
    (s.modEdge f).pending = s.pending := rfl

@[simp] theorem State.modEdge_resetAsserted (s : State) (f : EdgeState → EdgeState) :
    (s.modEdge f).resetAsserted = s.resetAsserted := rfl

@[simp] theorem State.modEdge_clock (s : State) (f : EdgeState → EdgeState) :
    (s.modEdge f).clock = s.clock := rfl

@[simp] theorem State.modEdge_subTick (s : State) (f : EdgeState → EdgeState) :
    (s.modEdge f).subTick = s.subTick := rfl

@[simp] theorem State.modEdge_loader (s : State) (f : EdgeState → EdgeState) :
    (s.modEdge f).loader = s.loader := rfl

@[simp] theorem State.modEdge_latch (s : State) (f : EdgeState → EdgeState) :
    (s.modEdge f).latch = s.latch := rfl

@[simp] theorem State.modEdge_roster (s : State) (f : EdgeState → EdgeState) :
    (s.modEdge f).roster = s.roster := rfl

@[simp] theorem State.modEdge_line (s : State) (f : EdgeState → EdgeState) :
    (s.modEdge f).line = s.line := rfl

@[simp] theorem State.modEdge_table (s : State) (f : EdgeState → EdgeState) :
    (s.modEdge f).table = s.table := rfl

@[simp] theorem State.modEdge_start (s : State) (f : EdgeState → EdgeState) :
    (s.modEdge f).start = s.start := rfl

@[simp] theorem State.modEdge_edge (s : State) (f : EdgeState → EdgeState) :
    (s.modEdge f).edge = f s.edge := rfl

@[simp] theorem State.modEdge_wind (s : State) (f : EdgeState → EdgeState) :
    (s.modEdge f).wind = s.wind := rfl

@[simp] theorem State.modEdge_span (s : State) (f : EdgeState → EdgeState) :
    (s.modEdge f).span = s.span := rfl

@[simp] theorem State.modEdge_contexts (s : State) (f : EdgeState → EdgeState) :
    (s.modEdge f).contexts = s.contexts := rfl

@[simp] theorem State.modEdge_scoring (s : State) (f : EdgeState → EdgeState) :
    (s.modEdge f).scoring = s.scoring := rfl

@[simp] theorem State.modEdge_standings (s : State) (f : EdgeState → EdgeState) :
    (s.modEdge f).standings = s.standings := rfl

@[simp] theorem State.modEdge_board (s : State) (f : EdgeState → EdgeState) :
    (s.modEdge f).board = s.board := rfl

@[simp] theorem State.modEdge_console (s : State) (f : EdgeState → EdgeState) :
    (s.modEdge f).console = s.console := rfl

@[simp] theorem State.modEdge_judge (s : State) (f : EdgeState → EdgeState) :
    (s.modEdge f).judge = s.judge := rfl


/-! ### `State.modWind` -/

@[simp] theorem State.modWind_pending (s : State) (f : WindState → WindState) :
    (s.modWind f).pending = s.pending := rfl

@[simp] theorem State.modWind_resetAsserted (s : State) (f : WindState → WindState) :
    (s.modWind f).resetAsserted = s.resetAsserted := rfl

@[simp] theorem State.modWind_clock (s : State) (f : WindState → WindState) :
    (s.modWind f).clock = s.clock := rfl

@[simp] theorem State.modWind_subTick (s : State) (f : WindState → WindState) :
    (s.modWind f).subTick = s.subTick := rfl

@[simp] theorem State.modWind_loader (s : State) (f : WindState → WindState) :
    (s.modWind f).loader = s.loader := rfl

@[simp] theorem State.modWind_latch (s : State) (f : WindState → WindState) :
    (s.modWind f).latch = s.latch := rfl

@[simp] theorem State.modWind_roster (s : State) (f : WindState → WindState) :
    (s.modWind f).roster = s.roster := rfl

@[simp] theorem State.modWind_line (s : State) (f : WindState → WindState) :
    (s.modWind f).line = s.line := rfl

@[simp] theorem State.modWind_table (s : State) (f : WindState → WindState) :
    (s.modWind f).table = s.table := rfl

@[simp] theorem State.modWind_start (s : State) (f : WindState → WindState) :
    (s.modWind f).start = s.start := rfl

@[simp] theorem State.modWind_edge (s : State) (f : WindState → WindState) :
    (s.modWind f).edge = s.edge := rfl

@[simp] theorem State.modWind_wind (s : State) (f : WindState → WindState) :
    (s.modWind f).wind = f s.wind := rfl

@[simp] theorem State.modWind_span (s : State) (f : WindState → WindState) :
    (s.modWind f).span = s.span := rfl

@[simp] theorem State.modWind_contexts (s : State) (f : WindState → WindState) :
    (s.modWind f).contexts = s.contexts := rfl

@[simp] theorem State.modWind_scoring (s : State) (f : WindState → WindState) :
    (s.modWind f).scoring = s.scoring := rfl

@[simp] theorem State.modWind_standings (s : State) (f : WindState → WindState) :
    (s.modWind f).standings = s.standings := rfl

@[simp] theorem State.modWind_board (s : State) (f : WindState → WindState) :
    (s.modWind f).board = s.board := rfl

@[simp] theorem State.modWind_console (s : State) (f : WindState → WindState) :
    (s.modWind f).console = s.console := rfl

@[simp] theorem State.modWind_judge (s : State) (f : WindState → WindState) :
    (s.modWind f).judge = s.judge := rfl


/-! ### `State.modSpan` -/

@[simp] theorem State.modSpan_pending (s : State) (f : SpanState → SpanState) :
    (s.modSpan f).pending = s.pending := rfl

@[simp] theorem State.modSpan_resetAsserted (s : State) (f : SpanState → SpanState) :
    (s.modSpan f).resetAsserted = s.resetAsserted := rfl

@[simp] theorem State.modSpan_clock (s : State) (f : SpanState → SpanState) :
    (s.modSpan f).clock = s.clock := rfl

@[simp] theorem State.modSpan_subTick (s : State) (f : SpanState → SpanState) :
    (s.modSpan f).subTick = s.subTick := rfl

@[simp] theorem State.modSpan_loader (s : State) (f : SpanState → SpanState) :
    (s.modSpan f).loader = s.loader := rfl

@[simp] theorem State.modSpan_latch (s : State) (f : SpanState → SpanState) :
    (s.modSpan f).latch = s.latch := rfl

@[simp] theorem State.modSpan_roster (s : State) (f : SpanState → SpanState) :
    (s.modSpan f).roster = s.roster := rfl

@[simp] theorem State.modSpan_line (s : State) (f : SpanState → SpanState) :
    (s.modSpan f).line = s.line := rfl

@[simp] theorem State.modSpan_table (s : State) (f : SpanState → SpanState) :
    (s.modSpan f).table = s.table := rfl

@[simp] theorem State.modSpan_start (s : State) (f : SpanState → SpanState) :
    (s.modSpan f).start = s.start := rfl

@[simp] theorem State.modSpan_edge (s : State) (f : SpanState → SpanState) :
    (s.modSpan f).edge = s.edge := rfl

@[simp] theorem State.modSpan_wind (s : State) (f : SpanState → SpanState) :
    (s.modSpan f).wind = s.wind := rfl

@[simp] theorem State.modSpan_span (s : State) (f : SpanState → SpanState) :
    (s.modSpan f).span = f s.span := rfl

@[simp] theorem State.modSpan_contexts (s : State) (f : SpanState → SpanState) :
    (s.modSpan f).contexts = s.contexts := rfl

@[simp] theorem State.modSpan_scoring (s : State) (f : SpanState → SpanState) :
    (s.modSpan f).scoring = s.scoring := rfl

@[simp] theorem State.modSpan_standings (s : State) (f : SpanState → SpanState) :
    (s.modSpan f).standings = s.standings := rfl

@[simp] theorem State.modSpan_board (s : State) (f : SpanState → SpanState) :
    (s.modSpan f).board = s.board := rfl

@[simp] theorem State.modSpan_console (s : State) (f : SpanState → SpanState) :
    (s.modSpan f).console = s.console := rfl

@[simp] theorem State.modSpan_judge (s : State) (f : SpanState → SpanState) :
    (s.modSpan f).judge = s.judge := rfl


/-! ### `State.modScoring` -/

@[simp] theorem State.modScoring_pending (s : State) (f : ScoringState → ScoringState) :
    (s.modScoring f).pending = s.pending := rfl

@[simp] theorem State.modScoring_resetAsserted (s : State) (f : ScoringState → ScoringState) :
    (s.modScoring f).resetAsserted = s.resetAsserted := rfl

@[simp] theorem State.modScoring_clock (s : State) (f : ScoringState → ScoringState) :
    (s.modScoring f).clock = s.clock := rfl

@[simp] theorem State.modScoring_subTick (s : State) (f : ScoringState → ScoringState) :
    (s.modScoring f).subTick = s.subTick := rfl

@[simp] theorem State.modScoring_loader (s : State) (f : ScoringState → ScoringState) :
    (s.modScoring f).loader = s.loader := rfl

@[simp] theorem State.modScoring_latch (s : State) (f : ScoringState → ScoringState) :
    (s.modScoring f).latch = s.latch := rfl

@[simp] theorem State.modScoring_roster (s : State) (f : ScoringState → ScoringState) :
    (s.modScoring f).roster = s.roster := rfl

@[simp] theorem State.modScoring_line (s : State) (f : ScoringState → ScoringState) :
    (s.modScoring f).line = s.line := rfl

@[simp] theorem State.modScoring_table (s : State) (f : ScoringState → ScoringState) :
    (s.modScoring f).table = s.table := rfl

@[simp] theorem State.modScoring_start (s : State) (f : ScoringState → ScoringState) :
    (s.modScoring f).start = s.start := rfl

@[simp] theorem State.modScoring_edge (s : State) (f : ScoringState → ScoringState) :
    (s.modScoring f).edge = s.edge := rfl

@[simp] theorem State.modScoring_wind (s : State) (f : ScoringState → ScoringState) :
    (s.modScoring f).wind = s.wind := rfl

@[simp] theorem State.modScoring_span (s : State) (f : ScoringState → ScoringState) :
    (s.modScoring f).span = s.span := rfl

@[simp] theorem State.modScoring_contexts (s : State) (f : ScoringState → ScoringState) :
    (s.modScoring f).contexts = s.contexts := rfl

@[simp] theorem State.modScoring_scoring (s : State) (f : ScoringState → ScoringState) :
    (s.modScoring f).scoring = f s.scoring := rfl

@[simp] theorem State.modScoring_standings (s : State) (f : ScoringState → ScoringState) :
    (s.modScoring f).standings = s.standings := rfl

@[simp] theorem State.modScoring_board (s : State) (f : ScoringState → ScoringState) :
    (s.modScoring f).board = s.board := rfl

@[simp] theorem State.modScoring_console (s : State) (f : ScoringState → ScoringState) :
    (s.modScoring f).console = s.console := rfl

@[simp] theorem State.modScoring_judge (s : State) (f : ScoringState → ScoringState) :
    (s.modScoring f).judge = s.judge := rfl


/-! ### `State.modStandings` -/

@[simp] theorem State.modStandings_pending (s : State) (f : StandingsState → StandingsState) :
    (s.modStandings f).pending = s.pending := rfl

@[simp] theorem State.modStandings_resetAsserted (s : State) (f : StandingsState → StandingsState) :
    (s.modStandings f).resetAsserted = s.resetAsserted := rfl

@[simp] theorem State.modStandings_clock (s : State) (f : StandingsState → StandingsState) :
    (s.modStandings f).clock = s.clock := rfl

@[simp] theorem State.modStandings_subTick (s : State) (f : StandingsState → StandingsState) :
    (s.modStandings f).subTick = s.subTick := rfl

@[simp] theorem State.modStandings_loader (s : State) (f : StandingsState → StandingsState) :
    (s.modStandings f).loader = s.loader := rfl

@[simp] theorem State.modStandings_latch (s : State) (f : StandingsState → StandingsState) :
    (s.modStandings f).latch = s.latch := rfl

@[simp] theorem State.modStandings_roster (s : State) (f : StandingsState → StandingsState) :
    (s.modStandings f).roster = s.roster := rfl

@[simp] theorem State.modStandings_line (s : State) (f : StandingsState → StandingsState) :
    (s.modStandings f).line = s.line := rfl

@[simp] theorem State.modStandings_table (s : State) (f : StandingsState → StandingsState) :
    (s.modStandings f).table = s.table := rfl

@[simp] theorem State.modStandings_start (s : State) (f : StandingsState → StandingsState) :
    (s.modStandings f).start = s.start := rfl

@[simp] theorem State.modStandings_edge (s : State) (f : StandingsState → StandingsState) :
    (s.modStandings f).edge = s.edge := rfl

@[simp] theorem State.modStandings_wind (s : State) (f : StandingsState → StandingsState) :
    (s.modStandings f).wind = s.wind := rfl

@[simp] theorem State.modStandings_span (s : State) (f : StandingsState → StandingsState) :
    (s.modStandings f).span = s.span := rfl

@[simp] theorem State.modStandings_contexts (s : State) (f : StandingsState → StandingsState) :
    (s.modStandings f).contexts = s.contexts := rfl

@[simp] theorem State.modStandings_scoring (s : State) (f : StandingsState → StandingsState) :
    (s.modStandings f).scoring = s.scoring := rfl

@[simp] theorem State.modStandings_standings (s : State) (f : StandingsState → StandingsState) :
    (s.modStandings f).standings = f s.standings := rfl

@[simp] theorem State.modStandings_board (s : State) (f : StandingsState → StandingsState) :
    (s.modStandings f).board = s.board := rfl

@[simp] theorem State.modStandings_console (s : State) (f : StandingsState → StandingsState) :
    (s.modStandings f).console = s.console := rfl

@[simp] theorem State.modStandings_judge (s : State) (f : StandingsState → StandingsState) :
    (s.modStandings f).judge = s.judge := rfl


/-! ### `State.modBoard` -/

@[simp] theorem State.modBoard_pending (s : State) (f : BoardState → BoardState) :
    (s.modBoard f).pending = s.pending := rfl

@[simp] theorem State.modBoard_resetAsserted (s : State) (f : BoardState → BoardState) :
    (s.modBoard f).resetAsserted = s.resetAsserted := rfl

@[simp] theorem State.modBoard_clock (s : State) (f : BoardState → BoardState) :
    (s.modBoard f).clock = s.clock := rfl

@[simp] theorem State.modBoard_subTick (s : State) (f : BoardState → BoardState) :
    (s.modBoard f).subTick = s.subTick := rfl

@[simp] theorem State.modBoard_loader (s : State) (f : BoardState → BoardState) :
    (s.modBoard f).loader = s.loader := rfl

@[simp] theorem State.modBoard_latch (s : State) (f : BoardState → BoardState) :
    (s.modBoard f).latch = s.latch := rfl

@[simp] theorem State.modBoard_roster (s : State) (f : BoardState → BoardState) :
    (s.modBoard f).roster = s.roster := rfl

@[simp] theorem State.modBoard_line (s : State) (f : BoardState → BoardState) :
    (s.modBoard f).line = s.line := rfl

@[simp] theorem State.modBoard_table (s : State) (f : BoardState → BoardState) :
    (s.modBoard f).table = s.table := rfl

@[simp] theorem State.modBoard_start (s : State) (f : BoardState → BoardState) :
    (s.modBoard f).start = s.start := rfl

@[simp] theorem State.modBoard_edge (s : State) (f : BoardState → BoardState) :
    (s.modBoard f).edge = s.edge := rfl

@[simp] theorem State.modBoard_wind (s : State) (f : BoardState → BoardState) :
    (s.modBoard f).wind = s.wind := rfl

@[simp] theorem State.modBoard_span (s : State) (f : BoardState → BoardState) :
    (s.modBoard f).span = s.span := rfl

@[simp] theorem State.modBoard_contexts (s : State) (f : BoardState → BoardState) :
    (s.modBoard f).contexts = s.contexts := rfl

@[simp] theorem State.modBoard_scoring (s : State) (f : BoardState → BoardState) :
    (s.modBoard f).scoring = s.scoring := rfl

@[simp] theorem State.modBoard_standings (s : State) (f : BoardState → BoardState) :
    (s.modBoard f).standings = s.standings := rfl

@[simp] theorem State.modBoard_board (s : State) (f : BoardState → BoardState) :
    (s.modBoard f).board = f s.board := rfl

@[simp] theorem State.modBoard_console (s : State) (f : BoardState → BoardState) :
    (s.modBoard f).console = s.console := rfl

@[simp] theorem State.modBoard_judge (s : State) (f : BoardState → BoardState) :
    (s.modBoard f).judge = s.judge := rfl


/-! ### `State.modLine` -/

@[simp] theorem State.modLine_pending (s : State) (f : LineState → LineState) :
    (s.modLine f).pending = s.pending := rfl

@[simp] theorem State.modLine_resetAsserted (s : State) (f : LineState → LineState) :
    (s.modLine f).resetAsserted = s.resetAsserted := rfl

@[simp] theorem State.modLine_clock (s : State) (f : LineState → LineState) :
    (s.modLine f).clock = s.clock := rfl

@[simp] theorem State.modLine_subTick (s : State) (f : LineState → LineState) :
    (s.modLine f).subTick = s.subTick := rfl

@[simp] theorem State.modLine_loader (s : State) (f : LineState → LineState) :
    (s.modLine f).loader = s.loader := rfl

@[simp] theorem State.modLine_latch (s : State) (f : LineState → LineState) :
    (s.modLine f).latch = s.latch := rfl

@[simp] theorem State.modLine_roster (s : State) (f : LineState → LineState) :
    (s.modLine f).roster = s.roster := rfl

@[simp] theorem State.modLine_line (s : State) (f : LineState → LineState) :
    (s.modLine f).line = f s.line := rfl

@[simp] theorem State.modLine_table (s : State) (f : LineState → LineState) :
    (s.modLine f).table = s.table := rfl

@[simp] theorem State.modLine_start (s : State) (f : LineState → LineState) :
    (s.modLine f).start = s.start := rfl

@[simp] theorem State.modLine_edge (s : State) (f : LineState → LineState) :
    (s.modLine f).edge = s.edge := rfl

@[simp] theorem State.modLine_wind (s : State) (f : LineState → LineState) :
    (s.modLine f).wind = s.wind := rfl

@[simp] theorem State.modLine_span (s : State) (f : LineState → LineState) :
    (s.modLine f).span = s.span := rfl

@[simp] theorem State.modLine_contexts (s : State) (f : LineState → LineState) :
    (s.modLine f).contexts = s.contexts := rfl

@[simp] theorem State.modLine_scoring (s : State) (f : LineState → LineState) :
    (s.modLine f).scoring = s.scoring := rfl

@[simp] theorem State.modLine_standings (s : State) (f : LineState → LineState) :
    (s.modLine f).standings = s.standings := rfl

@[simp] theorem State.modLine_board (s : State) (f : LineState → LineState) :
    (s.modLine f).board = s.board := rfl

@[simp] theorem State.modLine_console (s : State) (f : LineState → LineState) :
    (s.modLine f).console = s.console := rfl

@[simp] theorem State.modLine_judge (s : State) (f : LineState → LineState) :
    (s.modLine f).judge = s.judge := rfl


/-! ### `State.modConsole` -/

@[simp] theorem State.modConsole_pending (s : State) (f : ConsoleState → ConsoleState) :
    (s.modConsole f).pending = s.pending := rfl

@[simp] theorem State.modConsole_resetAsserted (s : State) (f : ConsoleState → ConsoleState) :
    (s.modConsole f).resetAsserted = s.resetAsserted := rfl

@[simp] theorem State.modConsole_clock (s : State) (f : ConsoleState → ConsoleState) :
    (s.modConsole f).clock = s.clock := rfl

@[simp] theorem State.modConsole_subTick (s : State) (f : ConsoleState → ConsoleState) :
    (s.modConsole f).subTick = s.subTick := rfl

@[simp] theorem State.modConsole_loader (s : State) (f : ConsoleState → ConsoleState) :
    (s.modConsole f).loader = s.loader := rfl

@[simp] theorem State.modConsole_latch (s : State) (f : ConsoleState → ConsoleState) :
    (s.modConsole f).latch = s.latch := rfl

@[simp] theorem State.modConsole_roster (s : State) (f : ConsoleState → ConsoleState) :
    (s.modConsole f).roster = s.roster := rfl

@[simp] theorem State.modConsole_line (s : State) (f : ConsoleState → ConsoleState) :
    (s.modConsole f).line = s.line := rfl

@[simp] theorem State.modConsole_table (s : State) (f : ConsoleState → ConsoleState) :
    (s.modConsole f).table = s.table := rfl

@[simp] theorem State.modConsole_start (s : State) (f : ConsoleState → ConsoleState) :
    (s.modConsole f).start = s.start := rfl

@[simp] theorem State.modConsole_edge (s : State) (f : ConsoleState → ConsoleState) :
    (s.modConsole f).edge = s.edge := rfl

@[simp] theorem State.modConsole_wind (s : State) (f : ConsoleState → ConsoleState) :
    (s.modConsole f).wind = s.wind := rfl

@[simp] theorem State.modConsole_span (s : State) (f : ConsoleState → ConsoleState) :
    (s.modConsole f).span = s.span := rfl

@[simp] theorem State.modConsole_contexts (s : State) (f : ConsoleState → ConsoleState) :
    (s.modConsole f).contexts = s.contexts := rfl

@[simp] theorem State.modConsole_scoring (s : State) (f : ConsoleState → ConsoleState) :
    (s.modConsole f).scoring = s.scoring := rfl

@[simp] theorem State.modConsole_standings (s : State) (f : ConsoleState → ConsoleState) :
    (s.modConsole f).standings = s.standings := rfl

@[simp] theorem State.modConsole_board (s : State) (f : ConsoleState → ConsoleState) :
    (s.modConsole f).board = s.board := rfl

@[simp] theorem State.modConsole_console (s : State) (f : ConsoleState → ConsoleState) :
    (s.modConsole f).console = f s.console := rfl

@[simp] theorem State.modConsole_judge (s : State) (f : ConsoleState → ConsoleState) :
    (s.modConsole f).judge = s.judge := rfl


/-! ### `State.modSeat` -/

@[simp] theorem State.modSeat_pending (s : State) (c : Nat) (f : SeatChannel → SeatChannel) :
    (s.modSeat c f).pending = s.pending := rfl

@[simp] theorem State.modSeat_resetAsserted (s : State) (c : Nat) (f : SeatChannel → SeatChannel) :
    (s.modSeat c f).resetAsserted = s.resetAsserted := rfl

@[simp] theorem State.modSeat_clock (s : State) (c : Nat) (f : SeatChannel → SeatChannel) :
    (s.modSeat c f).clock = s.clock := rfl

@[simp] theorem State.modSeat_subTick (s : State) (c : Nat) (f : SeatChannel → SeatChannel) :
    (s.modSeat c f).subTick = s.subTick := rfl

@[simp] theorem State.modSeat_loader (s : State) (c : Nat) (f : SeatChannel → SeatChannel) :
    (s.modSeat c f).loader = s.loader := rfl

@[simp] theorem State.modSeat_latch (s : State) (c : Nat) (f : SeatChannel → SeatChannel) :
    (s.modSeat c f).latch = s.latch := rfl

@[simp] theorem State.modSeat_roster (s : State) (c : Nat) (f : SeatChannel → SeatChannel) :
    (s.modSeat c f).roster = s.roster := rfl

@[simp] theorem State.modSeat_line (s : State) (c : Nat) (f : SeatChannel → SeatChannel) :
    (s.modSeat c f).line = s.line := rfl

@[simp] theorem State.modSeat_table (s : State) (c : Nat) (f : SeatChannel → SeatChannel) :
    (s.modSeat c f).table = s.table := rfl

@[simp] theorem State.modSeat_start (s : State) (c : Nat) (f : SeatChannel → SeatChannel) :
    (s.modSeat c f).start = s.start := rfl

@[simp] theorem State.modSeat_edge (s : State) (c : Nat) (f : SeatChannel → SeatChannel) :
    (s.modSeat c f).edge = s.edge := rfl

@[simp] theorem State.modSeat_wind (s : State) (c : Nat) (f : SeatChannel → SeatChannel) :
    (s.modSeat c f).wind = s.wind := rfl

@[simp] theorem State.modSeat_span (s : State) (c : Nat) (f : SeatChannel → SeatChannel) :
    (s.modSeat c f).span = s.span := rfl

@[simp] theorem State.modSeat_contexts (s : State) (c : Nat) (f : SeatChannel → SeatChannel) :
    (s.modSeat c f).contexts = s.contexts := rfl

@[simp] theorem State.modSeat_scoring (s : State) (c : Nat) (f : SeatChannel → SeatChannel) :
    (s.modSeat c f).scoring = s.scoring := rfl

@[simp] theorem State.modSeat_standings (s : State) (c : Nat) (f : SeatChannel → SeatChannel) :
    (s.modSeat c f).standings = s.standings := rfl

@[simp] theorem State.modSeat_board (s : State) (c : Nat) (f : SeatChannel → SeatChannel) :
    (s.modSeat c f).board = s.board := rfl

@[simp] theorem State.modSeat_console (s : State) (c : Nat) (f : SeatChannel → SeatChannel) :
    (s.modSeat c f).console = s.console := rfl

@[simp] theorem State.modSeat_judge (s : State) (c : Nat) (f : SeatChannel → SeatChannel) :
    (s.modSeat c f).judge = { seats := s.judge.seats.set c (f (s.judge.seats.get c)) } := rfl


/-! ### `State.setRecord` -/

@[simp] theorem State.setRecord_pending (s : State) (n : Nat) (f : AttemptRecord → AttemptRecord) :
    (s.setRecord n f).pending = s.pending := rfl

@[simp] theorem State.setRecord_resetAsserted (s : State) (n : Nat) (f : AttemptRecord → AttemptRecord) :
    (s.setRecord n f).resetAsserted = s.resetAsserted := rfl

@[simp] theorem State.setRecord_clock (s : State) (n : Nat) (f : AttemptRecord → AttemptRecord) :
    (s.setRecord n f).clock = s.clock := rfl

@[simp] theorem State.setRecord_subTick (s : State) (n : Nat) (f : AttemptRecord → AttemptRecord) :
    (s.setRecord n f).subTick = s.subTick := rfl

@[simp] theorem State.setRecord_loader (s : State) (n : Nat) (f : AttemptRecord → AttemptRecord) :
    (s.setRecord n f).loader = s.loader := rfl

@[simp] theorem State.setRecord_latch (s : State) (n : Nat) (f : AttemptRecord → AttemptRecord) :
    (s.setRecord n f).latch = s.latch := rfl

@[simp] theorem State.setRecord_roster (s : State) (n : Nat) (f : AttemptRecord → AttemptRecord) :
    (s.setRecord n f).roster = s.roster := rfl

@[simp] theorem State.setRecord_line (s : State) (n : Nat) (f : AttemptRecord → AttemptRecord) :
    (s.setRecord n f).line = s.line := rfl

@[simp] theorem State.setRecord_table (s : State) (n : Nat) (f : AttemptRecord → AttemptRecord) :
    (s.setRecord n f).table = s.table.map (fun r => if r.hdr.attempt == n then f r else r) := rfl

@[simp] theorem State.setRecord_start (s : State) (n : Nat) (f : AttemptRecord → AttemptRecord) :
    (s.setRecord n f).start = s.start := rfl

@[simp] theorem State.setRecord_edge (s : State) (n : Nat) (f : AttemptRecord → AttemptRecord) :
    (s.setRecord n f).edge = s.edge := rfl

@[simp] theorem State.setRecord_wind (s : State) (n : Nat) (f : AttemptRecord → AttemptRecord) :
    (s.setRecord n f).wind = s.wind := rfl

@[simp] theorem State.setRecord_span (s : State) (n : Nat) (f : AttemptRecord → AttemptRecord) :
    (s.setRecord n f).span = s.span := rfl

@[simp] theorem State.setRecord_contexts (s : State) (n : Nat) (f : AttemptRecord → AttemptRecord) :
    (s.setRecord n f).contexts = s.contexts := rfl

@[simp] theorem State.setRecord_scoring (s : State) (n : Nat) (f : AttemptRecord → AttemptRecord) :
    (s.setRecord n f).scoring = s.scoring := rfl

@[simp] theorem State.setRecord_standings (s : State) (n : Nat) (f : AttemptRecord → AttemptRecord) :
    (s.setRecord n f).standings = s.standings := rfl

@[simp] theorem State.setRecord_board (s : State) (n : Nat) (f : AttemptRecord → AttemptRecord) :
    (s.setRecord n f).board = s.board := rfl

@[simp] theorem State.setRecord_console (s : State) (n : Nat) (f : AttemptRecord → AttemptRecord) :
    (s.setRecord n f).console = s.console := rfl

@[simp] theorem State.setRecord_judge (s : State) (n : Nat) (f : AttemptRecord → AttemptRecord) :
    (s.setRecord n f).judge = s.judge := rfl


/-! ### `State.modPart` -/

@[simp] theorem State.modPart_pending (s : State) (n : Nat) (f : ScoringPart → ScoringPart) :
    (s.modPart n f).pending = s.pending := rfl

@[simp] theorem State.modPart_resetAsserted (s : State) (n : Nat) (f : ScoringPart → ScoringPart) :
    (s.modPart n f).resetAsserted = s.resetAsserted := rfl

@[simp] theorem State.modPart_clock (s : State) (n : Nat) (f : ScoringPart → ScoringPart) :
    (s.modPart n f).clock = s.clock := rfl

@[simp] theorem State.modPart_subTick (s : State) (n : Nat) (f : ScoringPart → ScoringPart) :
    (s.modPart n f).subTick = s.subTick := rfl

@[simp] theorem State.modPart_loader (s : State) (n : Nat) (f : ScoringPart → ScoringPart) :
    (s.modPart n f).loader = s.loader := rfl

@[simp] theorem State.modPart_latch (s : State) (n : Nat) (f : ScoringPart → ScoringPart) :
    (s.modPart n f).latch = s.latch := rfl

@[simp] theorem State.modPart_roster (s : State) (n : Nat) (f : ScoringPart → ScoringPart) :
    (s.modPart n f).roster = s.roster := rfl

@[simp] theorem State.modPart_line (s : State) (n : Nat) (f : ScoringPart → ScoringPart) :
    (s.modPart n f).line = s.line := rfl

@[simp] theorem State.modPart_table (s : State) (n : Nat) (f : ScoringPart → ScoringPart) :
    (s.modPart n f).table = s.table.map (fun r => if r.hdr.attempt == n then { r with scoring := r.scoring.map f } else r) := rfl

@[simp] theorem State.modPart_start (s : State) (n : Nat) (f : ScoringPart → ScoringPart) :
    (s.modPart n f).start = s.start := rfl

@[simp] theorem State.modPart_edge (s : State) (n : Nat) (f : ScoringPart → ScoringPart) :
    (s.modPart n f).edge = s.edge := rfl

@[simp] theorem State.modPart_wind (s : State) (n : Nat) (f : ScoringPart → ScoringPart) :
    (s.modPart n f).wind = s.wind := rfl

@[simp] theorem State.modPart_span (s : State) (n : Nat) (f : ScoringPart → ScoringPart) :
    (s.modPart n f).span = s.span := rfl

@[simp] theorem State.modPart_contexts (s : State) (n : Nat) (f : ScoringPart → ScoringPart) :
    (s.modPart n f).contexts = s.contexts := rfl

@[simp] theorem State.modPart_scoring (s : State) (n : Nat) (f : ScoringPart → ScoringPart) :
    (s.modPart n f).scoring = s.scoring := rfl

@[simp] theorem State.modPart_standings (s : State) (n : Nat) (f : ScoringPart → ScoringPart) :
    (s.modPart n f).standings = s.standings := rfl

@[simp] theorem State.modPart_board (s : State) (n : Nat) (f : ScoringPart → ScoringPart) :
    (s.modPart n f).board = s.board := rfl

@[simp] theorem State.modPart_console (s : State) (n : Nat) (f : ScoringPart → ScoringPart) :
    (s.modPart n f).console = s.console := rfl

@[simp] theorem State.modPart_judge (s : State) (n : Nat) (f : ScoringPart → ScoringPart) :
    (s.modPart n f).judge = s.judge := rfl


/-! ### `State.dropRecord` -/

@[simp] theorem State.dropRecord_pending (s : State) (n : Nat) :
    (s.dropRecord n).pending = s.pending := rfl

@[simp] theorem State.dropRecord_resetAsserted (s : State) (n : Nat) :
    (s.dropRecord n).resetAsserted = s.resetAsserted := rfl

@[simp] theorem State.dropRecord_clock (s : State) (n : Nat) :
    (s.dropRecord n).clock = s.clock := rfl

@[simp] theorem State.dropRecord_subTick (s : State) (n : Nat) :
    (s.dropRecord n).subTick = s.subTick := rfl

@[simp] theorem State.dropRecord_loader (s : State) (n : Nat) :
    (s.dropRecord n).loader = s.loader := rfl

@[simp] theorem State.dropRecord_latch (s : State) (n : Nat) :
    (s.dropRecord n).latch = s.latch := rfl

@[simp] theorem State.dropRecord_roster (s : State) (n : Nat) :
    (s.dropRecord n).roster = s.roster := rfl

@[simp] theorem State.dropRecord_line (s : State) (n : Nat) :
    (s.dropRecord n).line = s.line := rfl

@[simp] theorem State.dropRecord_table (s : State) (n : Nat) :
    (s.dropRecord n).table = s.table.filter (fun r => r.hdr.attempt != n) := rfl

@[simp] theorem State.dropRecord_start (s : State) (n : Nat) :
    (s.dropRecord n).start = s.start := rfl

@[simp] theorem State.dropRecord_edge (s : State) (n : Nat) :
    (s.dropRecord n).edge = s.edge := rfl

@[simp] theorem State.dropRecord_wind (s : State) (n : Nat) :
    (s.dropRecord n).wind = s.wind := rfl

@[simp] theorem State.dropRecord_span (s : State) (n : Nat) :
    (s.dropRecord n).span = s.span := rfl

@[simp] theorem State.dropRecord_contexts (s : State) (n : Nat) :
    (s.dropRecord n).contexts = s.contexts := rfl

@[simp] theorem State.dropRecord_scoring (s : State) (n : Nat) :
    (s.dropRecord n).scoring = s.scoring := rfl

@[simp] theorem State.dropRecord_standings (s : State) (n : Nat) :
    (s.dropRecord n).standings = s.standings := rfl

@[simp] theorem State.dropRecord_board (s : State) (n : Nat) :
    (s.dropRecord n).board = s.board := rfl

@[simp] theorem State.dropRecord_console (s : State) (n : Nat) :
    (s.dropRecord n).console = s.console := rfl

@[simp] theorem State.dropRecord_judge (s : State) (n : Nat) :
    (s.dropRecord n).judge = s.judge := rfl


/-! ### `State.setContext` -/

@[simp] theorem State.setContext_pending (s : State) (c : LandingContext) :
    (s.setContext c).pending = s.pending := rfl

@[simp] theorem State.setContext_resetAsserted (s : State) (c : LandingContext) :
    (s.setContext c).resetAsserted = s.resetAsserted := rfl

@[simp] theorem State.setContext_clock (s : State) (c : LandingContext) :
    (s.setContext c).clock = s.clock := rfl

@[simp] theorem State.setContext_subTick (s : State) (c : LandingContext) :
    (s.setContext c).subTick = s.subTick := rfl

@[simp] theorem State.setContext_loader (s : State) (c : LandingContext) :
    (s.setContext c).loader = s.loader := rfl

@[simp] theorem State.setContext_latch (s : State) (c : LandingContext) :
    (s.setContext c).latch = s.latch := rfl

@[simp] theorem State.setContext_roster (s : State) (c : LandingContext) :
    (s.setContext c).roster = s.roster := rfl

@[simp] theorem State.setContext_line (s : State) (c : LandingContext) :
    (s.setContext c).line = s.line := rfl

@[simp] theorem State.setContext_table (s : State) (c : LandingContext) :
    (s.setContext c).table = s.table := rfl

@[simp] theorem State.setContext_start (s : State) (c : LandingContext) :
    (s.setContext c).start = s.start := rfl

@[simp] theorem State.setContext_edge (s : State) (c : LandingContext) :
    (s.setContext c).edge = s.edge := rfl

@[simp] theorem State.setContext_wind (s : State) (c : LandingContext) :
    (s.setContext c).wind = s.wind := rfl

@[simp] theorem State.setContext_span (s : State) (c : LandingContext) :
    (s.setContext c).span = s.span := rfl

@[simp] theorem State.setContext_contexts (s : State) (c : LandingContext) :
    (s.setContext c).contexts = putContext c s.contexts := rfl

@[simp] theorem State.setContext_scoring (s : State) (c : LandingContext) :
    (s.setContext c).scoring = s.scoring := rfl

@[simp] theorem State.setContext_standings (s : State) (c : LandingContext) :
    (s.setContext c).standings = s.standings := rfl

@[simp] theorem State.setContext_board (s : State) (c : LandingContext) :
    (s.setContext c).board = s.board := rfl

@[simp] theorem State.setContext_console (s : State) (c : LandingContext) :
    (s.setContext c).console = s.console := rfl

@[simp] theorem State.setContext_judge (s : State) (c : LandingContext) :
    (s.setContext c).judge = s.judge := rfl


/-! ### `State.dropContext` -/

@[simp] theorem State.dropContext_pending (s : State) (n : Nat) :
    (s.dropContext n).pending = s.pending := rfl

@[simp] theorem State.dropContext_resetAsserted (s : State) (n : Nat) :
    (s.dropContext n).resetAsserted = s.resetAsserted := rfl

@[simp] theorem State.dropContext_clock (s : State) (n : Nat) :
    (s.dropContext n).clock = s.clock := rfl

@[simp] theorem State.dropContext_subTick (s : State) (n : Nat) :
    (s.dropContext n).subTick = s.subTick := rfl

@[simp] theorem State.dropContext_loader (s : State) (n : Nat) :
    (s.dropContext n).loader = s.loader := rfl

@[simp] theorem State.dropContext_latch (s : State) (n : Nat) :
    (s.dropContext n).latch = s.latch := rfl

@[simp] theorem State.dropContext_roster (s : State) (n : Nat) :
    (s.dropContext n).roster = s.roster := rfl

@[simp] theorem State.dropContext_line (s : State) (n : Nat) :
    (s.dropContext n).line = s.line := rfl

@[simp] theorem State.dropContext_table (s : State) (n : Nat) :
    (s.dropContext n).table = s.table := rfl

@[simp] theorem State.dropContext_start (s : State) (n : Nat) :
    (s.dropContext n).start = s.start := rfl

@[simp] theorem State.dropContext_edge (s : State) (n : Nat) :
    (s.dropContext n).edge = s.edge := rfl

@[simp] theorem State.dropContext_wind (s : State) (n : Nat) :
    (s.dropContext n).wind = s.wind := rfl

@[simp] theorem State.dropContext_span (s : State) (n : Nat) :
    (s.dropContext n).span = s.span := rfl

@[simp] theorem State.dropContext_contexts (s : State) (n : Nat) :
    (s.dropContext n).contexts = s.contexts.filter (·.attempt != n) := rfl

@[simp] theorem State.dropContext_scoring (s : State) (n : Nat) :
    (s.dropContext n).scoring = s.scoring := rfl

@[simp] theorem State.dropContext_standings (s : State) (n : Nat) :
    (s.dropContext n).standings = s.standings := rfl

@[simp] theorem State.dropContext_board (s : State) (n : Nat) :
    (s.dropContext n).board = s.board := rfl

@[simp] theorem State.dropContext_console (s : State) (n : Nat) :
    (s.dropContext n).console = s.console := rfl

@[simp] theorem State.dropContext_judge (s : State) (n : Nat) :
    (s.dropContext n).judge = s.judge := rfl


/-! ### `State.raise` -/

@[simp] theorem State.raise_pending (s : State) (n : NoticeBody) :
    (s.raise n).pending = s.pending := rfl

@[simp] theorem State.raise_resetAsserted (s : State) (n : NoticeBody) :
    (s.raise n).resetAsserted = s.resetAsserted := rfl

@[simp] theorem State.raise_clock (s : State) (n : NoticeBody) :
    (s.raise n).clock = s.clock := rfl

@[simp] theorem State.raise_subTick (s : State) (n : NoticeBody) :
    (s.raise n).subTick = s.subTick := rfl

@[simp] theorem State.raise_loader (s : State) (n : NoticeBody) :
    (s.raise n).loader = s.loader := rfl

@[simp] theorem State.raise_latch (s : State) (n : NoticeBody) :
    (s.raise n).latch = s.latch := rfl

@[simp] theorem State.raise_roster (s : State) (n : NoticeBody) :
    (s.raise n).roster = s.roster := rfl

@[simp] theorem State.raise_line (s : State) (n : NoticeBody) :
    (s.raise n).line = s.line := rfl

@[simp] theorem State.raise_table (s : State) (n : NoticeBody) :
    (s.raise n).table = s.table := rfl

@[simp] theorem State.raise_start (s : State) (n : NoticeBody) :
    (s.raise n).start = s.start := rfl

@[simp] theorem State.raise_edge (s : State) (n : NoticeBody) :
    (s.raise n).edge = s.edge := rfl

@[simp] theorem State.raise_wind (s : State) (n : NoticeBody) :
    (s.raise n).wind = s.wind := rfl

@[simp] theorem State.raise_span (s : State) (n : NoticeBody) :
    (s.raise n).span = s.span := rfl

@[simp] theorem State.raise_contexts (s : State) (n : NoticeBody) :
    (s.raise n).contexts = s.contexts := rfl

@[simp] theorem State.raise_scoring (s : State) (n : NoticeBody) :
    (s.raise n).scoring = s.scoring := rfl

@[simp] theorem State.raise_standings (s : State) (n : NoticeBody) :
    (s.raise n).standings = s.standings := rfl

@[simp] theorem State.raise_board (s : State) (n : NoticeBody) :
    (s.raise n).board = s.board := rfl

@[simp] theorem State.raise_console (s : State) (n : NoticeBody) :
    (s.raise n).console = s.console.raise s.loader.state s.clock n := rfl

@[simp] theorem State.raise_judge (s : State) (n : NoticeBody) :
    (s.raise n).judge = s.judge := rfl


/-! ### `State.report` -/

@[simp] theorem State.report_pending (s : State) (k : FaultKind) (d : Nat) :
    (s.report k d).pending = s.pending := rfl

@[simp] theorem State.report_resetAsserted (s : State) (k : FaultKind) (d : Nat) :
    (s.report k d).resetAsserted = s.resetAsserted := rfl

@[simp] theorem State.report_clock (s : State) (k : FaultKind) (d : Nat) :
    (s.report k d).clock = s.clock := rfl

@[simp] theorem State.report_subTick (s : State) (k : FaultKind) (d : Nat) :
    (s.report k d).subTick = s.subTick := rfl

@[simp] theorem State.report_loader (s : State) (k : FaultKind) (d : Nat) :
    (s.report k d).loader = s.loader := rfl

@[simp] theorem State.report_latch (s : State) (k : FaultKind) (d : Nat) :
    (s.report k d).latch = s.latch.take k s.clock d := rfl

@[simp] theorem State.report_roster (s : State) (k : FaultKind) (d : Nat) :
    (s.report k d).roster = s.roster := rfl

@[simp] theorem State.report_line (s : State) (k : FaultKind) (d : Nat) :
    (s.report k d).line = s.line := rfl

@[simp] theorem State.report_table (s : State) (k : FaultKind) (d : Nat) :
    (s.report k d).table = s.table := rfl

@[simp] theorem State.report_start (s : State) (k : FaultKind) (d : Nat) :
    (s.report k d).start = s.start := rfl

@[simp] theorem State.report_edge (s : State) (k : FaultKind) (d : Nat) :
    (s.report k d).edge = s.edge := rfl

@[simp] theorem State.report_wind (s : State) (k : FaultKind) (d : Nat) :
    (s.report k d).wind = s.wind := rfl

@[simp] theorem State.report_span (s : State) (k : FaultKind) (d : Nat) :
    (s.report k d).span = s.span := rfl

@[simp] theorem State.report_contexts (s : State) (k : FaultKind) (d : Nat) :
    (s.report k d).contexts = s.contexts := rfl

@[simp] theorem State.report_scoring (s : State) (k : FaultKind) (d : Nat) :
    (s.report k d).scoring = s.scoring := rfl

@[simp] theorem State.report_standings (s : State) (k : FaultKind) (d : Nat) :
    (s.report k d).standings = s.standings := rfl

@[simp] theorem State.report_board (s : State) (k : FaultKind) (d : Nat) :
    (s.report k d).board = s.board := rfl

@[simp] theorem State.report_console (s : State) (k : FaultKind) (d : Nat) :
    (s.report k d).console = s.console.raise s.loader.state s.clock (.faultReported k d) := rfl

@[simp] theorem State.report_judge (s : State) (k : FaultKind) (d : Nat) :
    (s.report k d).judge = s.judge := rfl


/-! ### `State.offer` -/

@[simp] theorem State.offer_pending (s : State) (b : Body) (e : Option Tick) :
    (s.offer b e).pending = s.pending := rfl

@[simp] theorem State.offer_resetAsserted (s : State) (b : Body) (e : Option Tick) :
    (s.offer b e).resetAsserted = s.resetAsserted := rfl

@[simp] theorem State.offer_clock (s : State) (b : Body) (e : Option Tick) :
    (s.offer b e).clock = s.clock := rfl

@[simp] theorem State.offer_subTick (s : State) (b : Body) (e : Option Tick) :
    (s.offer b e).subTick = s.subTick := rfl

@[simp] theorem State.offer_loader (s : State) (b : Body) (e : Option Tick) :
    (s.offer b e).loader = s.loader := rfl

@[simp] theorem State.offer_latch (s : State) (b : Body) (e : Option Tick) :
    (s.offer b e).latch = if s.offerFate b = .overflow then s.latch.take .txOverflow s.clock b.kind else s.latch := rfl

@[simp] theorem State.offer_roster (s : State) (b : Body) (e : Option Tick) :
    (s.offer b e).roster = s.roster := rfl

@[simp] theorem State.offer_line (s : State) (b : Body) (e : Option Tick) :
    (s.offer b e).line = s.line.offered (s.offerFate b) ⟨b, s.line.eventNumber, e⟩ := rfl

@[simp] theorem State.offer_table (s : State) (b : Body) (e : Option Tick) :
    (s.offer b e).table = s.table := rfl

@[simp] theorem State.offer_start (s : State) (b : Body) (e : Option Tick) :
    (s.offer b e).start = s.start := rfl

@[simp] theorem State.offer_edge (s : State) (b : Body) (e : Option Tick) :
    (s.offer b e).edge = s.edge := rfl

@[simp] theorem State.offer_wind (s : State) (b : Body) (e : Option Tick) :
    (s.offer b e).wind = s.wind := rfl

@[simp] theorem State.offer_span (s : State) (b : Body) (e : Option Tick) :
    (s.offer b e).span = s.span := rfl

@[simp] theorem State.offer_contexts (s : State) (b : Body) (e : Option Tick) :
    (s.offer b e).contexts = s.contexts := rfl

@[simp] theorem State.offer_scoring (s : State) (b : Body) (e : Option Tick) :
    (s.offer b e).scoring = s.scoring := rfl

@[simp] theorem State.offer_standings (s : State) (b : Body) (e : Option Tick) :
    (s.offer b e).standings = s.standings := rfl

@[simp] theorem State.offer_board (s : State) (b : Body) (e : Option Tick) :
    (s.offer b e).board = s.board := rfl

@[simp] theorem State.offer_console (s : State) (b : Body) (e : Option Tick) :
    (s.offer b e).console = if s.offerFate b = .overflow then
        s.console.raise s.loader.state s.clock (.faultReported .txOverflow b.kind)
      else s.console := rfl

@[simp] theorem State.offer_judge (s : State) (b : Body) (e : Option Tick) :
    (s.offer b e).judge = s.judge := rfl


/-! ### `State.reply` -/

@[simp] theorem State.reply_pending (s : State) (r : Reply) :
    (s.reply r).pending = s.pending := rfl

@[simp] theorem State.reply_resetAsserted (s : State) (r : Reply) :
    (s.reply r).resetAsserted = s.resetAsserted := rfl

@[simp] theorem State.reply_clock (s : State) (r : Reply) :
    (s.reply r).clock = s.clock := rfl

@[simp] theorem State.reply_subTick (s : State) (r : Reply) :
    (s.reply r).subTick = s.subTick := rfl

@[simp] theorem State.reply_loader (s : State) (r : Reply) :
    (s.reply r).loader = s.loader := rfl

@[simp] theorem State.reply_latch (s : State) (r : Reply) :
    (s.reply r).latch = s.latch := rfl

@[simp] theorem State.reply_roster (s : State) (r : Reply) :
    (s.reply r).roster = s.roster := rfl

@[simp] theorem State.reply_line (s : State) (r : Reply) :
    (s.reply r).line = s.line := rfl

@[simp] theorem State.reply_table (s : State) (r : Reply) :
    (s.reply r).table = s.table := rfl

@[simp] theorem State.reply_start (s : State) (r : Reply) :
    (s.reply r).start = s.start := rfl

@[simp] theorem State.reply_edge (s : State) (r : Reply) :
    (s.reply r).edge = s.edge := rfl

@[simp] theorem State.reply_wind (s : State) (r : Reply) :
    (s.reply r).wind = s.wind := rfl

@[simp] theorem State.reply_span (s : State) (r : Reply) :
    (s.reply r).span = s.span := rfl

@[simp] theorem State.reply_contexts (s : State) (r : Reply) :
    (s.reply r).contexts = s.contexts := rfl

@[simp] theorem State.reply_scoring (s : State) (r : Reply) :
    (s.reply r).scoring = s.scoring := rfl

@[simp] theorem State.reply_standings (s : State) (r : Reply) :
    (s.reply r).standings = s.standings := rfl

@[simp] theorem State.reply_board (s : State) (r : Reply) :
    (s.reply r).board = s.board := rfl

@[simp] theorem State.reply_console (s : State) (r : Reply) :
    (s.reply r).console = s.console.reply r := rfl

@[simp] theorem State.reply_judge (s : State) (r : Reply) :
    (s.reply r).judge = s.judge := rfl


/-! ### `State.answer` -/

@[simp] theorem State.answer_pending (s : State) (k : Nat) (c : ReplyCode) :
    (s.answer k c).pending = s.pending := rfl

@[simp] theorem State.answer_resetAsserted (s : State) (k : Nat) (c : ReplyCode) :
    (s.answer k c).resetAsserted = s.resetAsserted := rfl

@[simp] theorem State.answer_clock (s : State) (k : Nat) (c : ReplyCode) :
    (s.answer k c).clock = s.clock := rfl

@[simp] theorem State.answer_subTick (s : State) (k : Nat) (c : ReplyCode) :
    (s.answer k c).subTick = s.subTick := rfl

@[simp] theorem State.answer_loader (s : State) (k : Nat) (c : ReplyCode) :
    (s.answer k c).loader = s.loader := rfl

@[simp] theorem State.answer_latch (s : State) (k : Nat) (c : ReplyCode) :
    (s.answer k c).latch = s.latch := rfl

@[simp] theorem State.answer_roster (s : State) (k : Nat) (c : ReplyCode) :
    (s.answer k c).roster = s.roster := rfl

@[simp] theorem State.answer_line (s : State) (k : Nat) (c : ReplyCode) :
    (s.answer k c).line = s.line := rfl

@[simp] theorem State.answer_table (s : State) (k : Nat) (c : ReplyCode) :
    (s.answer k c).table = s.table := rfl

@[simp] theorem State.answer_start (s : State) (k : Nat) (c : ReplyCode) :
    (s.answer k c).start = s.start := rfl

@[simp] theorem State.answer_edge (s : State) (k : Nat) (c : ReplyCode) :
    (s.answer k c).edge = s.edge := rfl

@[simp] theorem State.answer_wind (s : State) (k : Nat) (c : ReplyCode) :
    (s.answer k c).wind = s.wind := rfl

@[simp] theorem State.answer_span (s : State) (k : Nat) (c : ReplyCode) :
    (s.answer k c).span = s.span := rfl

@[simp] theorem State.answer_contexts (s : State) (k : Nat) (c : ReplyCode) :
    (s.answer k c).contexts = s.contexts := rfl

@[simp] theorem State.answer_scoring (s : State) (k : Nat) (c : ReplyCode) :
    (s.answer k c).scoring = s.scoring := rfl

@[simp] theorem State.answer_standings (s : State) (k : Nat) (c : ReplyCode) :
    (s.answer k c).standings = s.standings := rfl

@[simp] theorem State.answer_board (s : State) (k : Nat) (c : ReplyCode) :
    (s.answer k c).board = s.board := rfl

@[simp] theorem State.answer_console (s : State) (k : Nat) (c : ReplyCode) :
    (s.answer k c).console = s.console.reply { command := k, code := c } := rfl

@[simp] theorem State.answer_judge (s : State) (k : Nat) (c : ReplyCode) :
    (s.answer k c).judge = s.judge := rfl


/-! ### `State.clearAssembler` -/

@[simp] theorem State.clearAssembler_pending (s : State) :
    (s.clearAssembler).pending = s.pending := rfl

@[simp] theorem State.clearAssembler_resetAsserted (s : State) :
    (s.clearAssembler).resetAsserted = s.resetAsserted := rfl

@[simp] theorem State.clearAssembler_clock (s : State) :
    (s.clearAssembler).clock = s.clock := rfl

@[simp] theorem State.clearAssembler_subTick (s : State) :
    (s.clearAssembler).subTick = s.subTick := rfl

@[simp] theorem State.clearAssembler_loader (s : State) :
    (s.clearAssembler).loader = s.loader := rfl

@[simp] theorem State.clearAssembler_latch (s : State) :
    (s.clearAssembler).latch = s.latch := rfl

@[simp] theorem State.clearAssembler_roster (s : State) :
    (s.clearAssembler).roster = s.roster := rfl

@[simp] theorem State.clearAssembler_line (s : State) :
    (s.clearAssembler).line = s.line := rfl

@[simp] theorem State.clearAssembler_table (s : State) :
    (s.clearAssembler).table = s.table := rfl

@[simp] theorem State.clearAssembler_start (s : State) :
    (s.clearAssembler).start = s.start := rfl

@[simp] theorem State.clearAssembler_edge (s : State) :
    (s.clearAssembler).edge = s.edge := rfl

@[simp] theorem State.clearAssembler_wind (s : State) :
    (s.clearAssembler).wind = s.wind := rfl

@[simp] theorem State.clearAssembler_span (s : State) :
    (s.clearAssembler).span = s.span := rfl

@[simp] theorem State.clearAssembler_contexts (s : State) :
    (s.clearAssembler).contexts = s.contexts := rfl

@[simp] theorem State.clearAssembler_scoring (s : State) :
    (s.clearAssembler).scoring = s.scoring := rfl

@[simp] theorem State.clearAssembler_standings (s : State) :
    (s.clearAssembler).standings = s.standings := rfl

@[simp] theorem State.clearAssembler_board (s : State) :
    (s.clearAssembler).board = s.board := rfl

@[simp] theorem State.clearAssembler_console (s : State) :
    (s.clearAssembler).console = { s.console with gathered := [], skipping := false, rxQuietUs := 0 } := rfl

@[simp] theorem State.clearAssembler_judge (s : State) :
    (s.clearAssembler).judge = s.judge := rfl

/-! ### `State.sendOnEeprom` -/

@[simp] theorem State.sendOnEeprom_pending (s : State) (items : List BusItem) :
    (s.sendOnEeprom items).pending = s.pending := rfl

@[simp] theorem State.sendOnEeprom_resetAsserted (s : State) (items : List BusItem) :
    (s.sendOnEeprom items).resetAsserted = s.resetAsserted := rfl

@[simp] theorem State.sendOnEeprom_clock (s : State) (items : List BusItem) :
    (s.sendOnEeprom items).clock = s.clock := rfl

@[simp] theorem State.sendOnEeprom_subTick (s : State) (items : List BusItem) :
    (s.sendOnEeprom items).subTick = s.subTick := rfl

@[simp] theorem State.sendOnEeprom_loader_station (s : State) (items : List BusItem) :
    (s.sendOnEeprom items).loader.station = s.loader.station := rfl

@[simp] theorem State.sendOnEeprom_loader_state (s : State) (items : List BusItem) :
    (s.sendOnEeprom items).loader.state = s.loader.state := rfl

@[simp] theorem State.sendOnEeprom_loader_failedReads (s : State) (items : List BusItem) :
    (s.sendOnEeprom items).loader.failedReads = s.loader.failedReads := rfl

@[simp] theorem State.sendOnEeprom_loader_retryAt (s : State) (items : List BusItem) :
    (s.sendOnEeprom items).loader.retryAt = s.loader.retryAt := rfl

@[simp] theorem State.sendOnEeprom_loader_digest (s : State) (items : List BusItem) :
    (s.sendOnEeprom items).loader.digest = s.loader.digest := rfl

@[simp] theorem State.sendOnEeprom_loader_consts (s : State) (items : List BusItem) :
    (s.sendOnEeprom items).loader.consts = s.loader.consts := rfl

@[simp] theorem State.sendOnEeprom_loader_roles (s : State) (items : List BusItem) :
    (s.sendOnEeprom items).loader.roles = s.loader.roles := rfl

@[simp] theorem State.sendOnEeprom_loader_mast (s : State) (items : List BusItem) :
    (s.sendOnEeprom items).loader.mast = s.loader.mast := rfl

@[simp] theorem State.sendOnEeprom_loader_span (s : State) (items : List BusItem) :
    (s.sendOnEeprom items).loader.span = s.loader.span := rfl

@[simp] theorem State.sendOnEeprom_loader_eeprom (s : State) (items : List BusItem) :
    (s.sendOnEeprom items).loader.eeprom = items := rfl

@[simp] theorem State.sendOnEeprom_latch (s : State) (items : List BusItem) :
    (s.sendOnEeprom items).latch = s.latch := rfl

@[simp] theorem State.sendOnEeprom_roster (s : State) (items : List BusItem) :
    (s.sendOnEeprom items).roster = s.roster := rfl

@[simp] theorem State.sendOnEeprom_line (s : State) (items : List BusItem) :
    (s.sendOnEeprom items).line = s.line := rfl

@[simp] theorem State.sendOnEeprom_table (s : State) (items : List BusItem) :
    (s.sendOnEeprom items).table = s.table := rfl

@[simp] theorem State.sendOnEeprom_start (s : State) (items : List BusItem) :
    (s.sendOnEeprom items).start = s.start := rfl

@[simp] theorem State.sendOnEeprom_edge (s : State) (items : List BusItem) :
    (s.sendOnEeprom items).edge = s.edge := rfl

@[simp] theorem State.sendOnEeprom_wind (s : State) (items : List BusItem) :
    (s.sendOnEeprom items).wind = s.wind := rfl

@[simp] theorem State.sendOnEeprom_span (s : State) (items : List BusItem) :
    (s.sendOnEeprom items).span = s.span := rfl

@[simp] theorem State.sendOnEeprom_contexts (s : State) (items : List BusItem) :
    (s.sendOnEeprom items).contexts = s.contexts := rfl

@[simp] theorem State.sendOnEeprom_scoring (s : State) (items : List BusItem) :
    (s.sendOnEeprom items).scoring = s.scoring := rfl

@[simp] theorem State.sendOnEeprom_standings (s : State) (items : List BusItem) :
    (s.sendOnEeprom items).standings = s.standings := rfl

@[simp] theorem State.sendOnEeprom_board (s : State) (items : List BusItem) :
    (s.sendOnEeprom items).board = s.board := rfl

@[simp] theorem State.sendOnEeprom_console (s : State) (items : List BusItem) :
    (s.sendOnEeprom items).console = s.console := rfl

@[simp] theorem State.sendOnEeprom_judge (s : State) (items : List BusItem) :
    (s.sendOnEeprom items).judge = s.judge := rfl

/-! ### The line interface after activity, a frame, a busy period and a quiet time -/

@[simp] theorem LineState.activity_urgent (l : LineState) (us : Nat) : (l.activity us).urgent = l.urgent := rfl

@[simp] theorem LineState.activity_routine (l : LineState) (us : Nat) : (l.activity us).routine = l.routine := rfl

@[simp] theorem LineState.activity_tx (l : LineState) (us : Nat) : (l.activity us).tx = l.tx := rfl

@[simp] theorem LineState.activity_yieldMark (l : LineState) (us : Nat) : (l.activity us).yieldMark = l.yieldMark := rfl

@[simp] theorem LineState.activity_eventNumber (l : LineState) (us : Nat) : (l.activity us).eventNumber = l.eventNumber := rfl

@[simp] theorem LineState.activity_hung (l : LineState) (us : Nat) : (l.activity us).hung = l.hung := rfl

@[simp] theorem LineState.activity_resumeGuard (l : LineState) (us : Nat) : (l.activity us).resumeGuard = l.resumeGuard := rfl

@[simp] theorem LineState.activity_quietUs (l : LineState) (us : Nat) : (l.activity us).quietUs = 0 := rfl

@[simp] theorem LineState.activity_busyUs (l : LineState) (us : Nat) : (l.activity us).busyUs = some (l.busyUs.getD 0 + us) := rfl

@[simp] theorem LineState.activity_rx (l : LineState) (us : Nat) : (l.activity us).rx = l.rx := rfl

@[simp] theorem LineState.activity_nextStatus (l : LineState) (us : Nat) : (l.activity us).nextStatus = l.nextStatus := rfl

@[simp] theorem LineState.activity_nextCorridor (l : LineState) (us : Nat) : (l.activity us).nextCorridor = l.nextCorridor := rfl

@[simp] theorem LineState.busyFor_urgent (l : LineState) (us : Nat) : (l.busyFor us).urgent = l.urgent := rfl

@[simp] theorem LineState.busyFor_routine (l : LineState) (us : Nat) : (l.busyFor us).routine = l.routine := rfl

@[simp] theorem LineState.busyFor_tx (l : LineState) (us : Nat) : (l.busyFor us).tx = l.tx := rfl

@[simp] theorem LineState.busyFor_yieldMark (l : LineState) (us : Nat) : (l.busyFor us).yieldMark = l.yieldMark := rfl

@[simp] theorem LineState.busyFor_eventNumber (l : LineState) (us : Nat) : (l.busyFor us).eventNumber = l.eventNumber := rfl

@[simp] theorem LineState.busyFor_hung (l : LineState) (us : Nat) : (l.busyFor us).hung = l.hung := rfl

@[simp] theorem LineState.busyFor_resumeGuard (l : LineState) (us : Nat) : (l.busyFor us).resumeGuard = l.resumeGuard := rfl

@[simp] theorem LineState.busyFor_quietUs (l : LineState) (us : Nat) : (l.busyFor us).quietUs = 0 := rfl

@[simp] theorem LineState.busyFor_busyUs (l : LineState) (us : Nat) : (l.busyFor us).busyUs = some us := rfl

@[simp] theorem LineState.busyFor_rx (l : LineState) (us : Nat) : (l.busyFor us).rx = l.rx := rfl

@[simp] theorem LineState.busyFor_nextStatus (l : LineState) (us : Nat) : (l.busyFor us).nextStatus = l.nextStatus := rfl

@[simp] theorem LineState.busyFor_nextCorridor (l : LineState) (us : Nat) : (l.busyFor us).nextCorridor = l.nextCorridor := rfl

@[simp] theorem LineState.heard_urgent (l : LineState) (b : Body) : (l.heard b).urgent = l.urgent := rfl

@[simp] theorem LineState.heard_routine (l : LineState) (b : Body) : (l.heard b).routine = l.routine := rfl

@[simp] theorem LineState.heard_tx (l : LineState) (b : Body) : (l.heard b).tx = l.tx := rfl

@[simp] theorem LineState.heard_yieldMark (l : LineState) (b : Body) : (l.heard b).yieldMark = l.yieldMark := rfl

@[simp] theorem LineState.heard_eventNumber (l : LineState) (b : Body) : (l.heard b).eventNumber = l.eventNumber := rfl

@[simp] theorem LineState.heard_hung (l : LineState) (b : Body) : (l.heard b).hung = l.hung := rfl

@[simp] theorem LineState.heard_resumeGuard (l : LineState) (b : Body) : (l.heard b).resumeGuard = l.resumeGuard := rfl

@[simp] theorem LineState.heard_quietUs (l : LineState) (b : Body) : (l.heard b).quietUs = 0 := rfl

@[simp] theorem LineState.heard_busyUs (l : LineState) (b : Body) : (l.heard b).busyUs = some b.lineUs := rfl

@[simp] theorem LineState.heard_rx (l : LineState) (b : Body) : (l.heard b).rx = {} := rfl

@[simp] theorem LineState.heard_nextStatus (l : LineState) (b : Body) : (l.heard b).nextStatus = l.nextStatus := rfl

@[simp] theorem LineState.heard_nextCorridor (l : LineState) (b : Body) : (l.heard b).nextCorridor = l.nextCorridor := rfl

@[simp] theorem LineState.quietFor_urgent (l : LineState) (us : Nat) : (l.quietFor us).urgent = l.urgent := rfl

@[simp] theorem LineState.quietFor_routine (l : LineState) (us : Nat) : (l.quietFor us).routine = l.routine := rfl

@[simp] theorem LineState.quietFor_tx (l : LineState) (us : Nat) : (l.quietFor us).tx = l.tx := rfl

@[simp] theorem LineState.quietFor_yieldMark (l : LineState) (us : Nat) : (l.quietFor us).yieldMark = l.yieldMark := rfl

@[simp] theorem LineState.quietFor_eventNumber (l : LineState) (us : Nat) : (l.quietFor us).eventNumber = l.eventNumber := rfl

@[simp] theorem LineState.quietFor_hung (l : LineState) (us : Nat) : (l.quietFor us).hung = l.hung := rfl

@[simp] theorem LineState.quietFor_resumeGuard (l : LineState) (us : Nat) : (l.quietFor us).resumeGuard = l.resumeGuard := rfl

@[simp] theorem LineState.quietFor_quietUs (l : LineState) (us : Nat) : (l.quietFor us).quietUs = us := rfl

@[simp] theorem LineState.quietFor_nextStatus (l : LineState) (us : Nat) : (l.quietFor us).nextStatus = l.nextStatus := rfl

@[simp] theorem LineState.quietFor_nextCorridor (l : LineState) (us : Nat) : (l.quietFor us).nextCorridor = l.nextCorridor := rfl

@[simp] theorem LineState.quietFor_busyUs (l : LineState) (us : Nat) :
    (l.quietFor us).busyUs = if 20 ≤ us then none else l.busyUs := rfl

@[simp] theorem LineState.quietFor_rx (l : LineState) (us : Nat) : (l.quietFor us).rx =
    { gathered := if 20 < us then [] else l.rx.gathered
      skipping := l.rx.skipping && decide (us < 20) } := rfl

/-! ### The console port after a quiet time -/

@[simp] theorem ConsoleState.quietFor_replies (c : ConsoleState) (us : Nat) : (c.quietFor us).replies = c.replies := rfl

@[simp] theorem ConsoleState.quietFor_notices (c : ConsoleState) (us : Nat) : (c.quietFor us).notices = c.notices := rfl

@[simp] theorem ConsoleState.quietFor_mask (c : ConsoleState) (us : Nat) : (c.quietFor us).mask = c.mask := rfl

@[simp] theorem ConsoleState.quietFor_overrun (c : ConsoleState) (us : Nat) : (c.quietFor us).overrun = c.overrun := rfl

@[simp] theorem ConsoleState.quietFor_commandLost (c : ConsoleState) (us : Nat) : (c.quietFor us).commandLost = c.commandLost := rfl

@[simp] theorem ConsoleState.quietFor_sending (c : ConsoleState) (us : Nat) : (c.quietFor us).sending = c.sending := rfl

@[simp] theorem ConsoleState.quietFor_unit (c : ConsoleState) (us : Nat) : (c.quietFor us).unit = c.unit := rfl

@[simp] theorem ConsoleState.quietFor_rxQuietUs (c : ConsoleState) (us : Nat) :
    (c.quietFor us).rxQuietUs = us := rfl

@[simp] theorem ConsoleState.quietFor_gathered (c : ConsoleState) (us : Nat) :
    (c.quietFor us).gathered = if 10000 < us then [] else c.gathered := rfl

@[simp] theorem ConsoleState.quietFor_skipping (c : ConsoleState) (us : Nat) :
    (c.quietFor us).skipping = (c.skipping && decide (us < 10000)) := rfl

/-! ### The wind unit after its output on the sensor bus, and its bus state, are set -/

@[simp] theorem State.sendOnBus_wind (s : State) (items : List BusItem) :
    (s.sendOnBus items).wind = { s.wind with sends := items } := rfl

@[simp] theorem State.setBus_wind (s : State) (b : BusState) :
    (s.setBus b).wind = { s.wind with bus := b } := by unfold State.setBus; dsimp only; split <;> rfl

@[simp] theorem State.beginTransaction_wind (s : State) (b : BusState) (items : List BusItem) :
    (s.beginTransaction b items).wind = { s.wind with bus := b, sends := items } := by
  simp [State.beginTransaction]

@[simp] theorem State.endTransaction_wind (s : State) (o : TransferOutcome) (items : List BusItem) :
    (s.endTransaction o items).wind = { s.wind with bus := .free, sends := cutShort o items } := by
  simp [State.endTransaction]

@[simp] theorem State.beginBurst_wind (s : State) (ordered fromHung : Bool) :
    (s.beginBurst ordered fromHung).wind =
      { s.wind with bus := .releasing ordered fromHung, sends := burstSends } := by
  simp [State.beginBurst]

end Sys2Proof.Machine
end

