-- ==== Sys2Proof/Laws/Ops.lean ====
section
/-! SUPPORT. What each shared operation can do, said once: a notice raised, a fault reported, a frame offered,
a reply made, a change of the sensor bus's state, the bytes that a transaction reads, a waiting sensor command
carried out. Later proofs cite these and unfold none of the operations. -/

namespace Sys2Proof.Machine

open Sys2Proof

/-! ## Notices and replies -/

/-- A raise keeps the console as it is, sets the overrun flag, or adds the notice at the tail (R187). -/
theorem ConsoleState.raise_cases (c : ConsoleState) (st : StationState) (now : Tick) (n : NoticeBody) :
    c.raise st now n = c ∨ c.raise st now n = { c with overrun := true } ∨
      (c.notices.length < 32 ∧ c.raise st now n = { c with notices := c.notices ++ [⟨now, n⟩] }) := by
  unfold ConsoleState.raise noticeLimit
  split
  · exact .inl rfl
  · split
    · exact .inr (.inl rfl)
    · exact .inr (.inr ⟨by omega, rfl⟩)

/-- A raise changes nothing of the console but the notice queue and the overrun flag. -/
theorem ConsoleState.raise_outside (c : ConsoleState) (st : StationState) (now : Tick) (n : NoticeBody) :
    { c.raise st now n with notices := c.notices, overrun := c.overrun } = c := by
  rcases c.raise_cases st now n with h | h | ⟨-, h⟩ <;> rw [h]

@[simp] theorem ConsoleState.raise_replies (c : ConsoleState) (st : StationState) (now : Tick)
    (n : NoticeBody) : (c.raise st now n).replies = c.replies := by
  rcases c.raise_cases st now n with h | h | ⟨-, h⟩ <;> rw [h]

@[simp] theorem ConsoleState.raise_gathered (c : ConsoleState) (st : StationState) (now : Tick)
    (n : NoticeBody) : (c.raise st now n).gathered = c.gathered := by
  rcases c.raise_cases st now n with h | h | ⟨-, h⟩ <;> rw [h]

@[simp] theorem ConsoleState.raise_skipping (c : ConsoleState) (st : StationState) (now : Tick)
    (n : NoticeBody) : (c.raise st now n).skipping = c.skipping := by
  rcases c.raise_cases st now n with h | h | ⟨-, h⟩ <;> rw [h]

@[simp] theorem ConsoleState.raise_mask (c : ConsoleState) (st : StationState) (now : Tick)
    (n : NoticeBody) : (c.raise st now n).mask = c.mask := by
  rcases c.raise_cases st now n with h | h | ⟨-, h⟩ <;> rw [h]

@[simp] theorem ConsoleState.raise_commandLost (c : ConsoleState) (st : StationState) (now : Tick)
    (n : NoticeBody) : (c.raise st now n).commandLost = c.commandLost := by
  rcases c.raise_cases st now n with h | h | ⟨-, h⟩ <;> rw [h]

@[simp] theorem ConsoleState.raise_sending (c : ConsoleState) (st : StationState) (now : Tick)
    (n : NoticeBody) : (c.raise st now n).sending = c.sending := by
  rcases c.raise_cases st now n with h | h | ⟨-, h⟩ <;> rw [h]

@[simp] theorem ConsoleState.raise_unit (c : ConsoleState) (st : StationState) (now : Tick)
    (n : NoticeBody) : (c.raise st now n).unit = c.unit := by
  rcases c.raise_cases st now n with h | h | ⟨-, h⟩ <;> rw [h]

/-- A raise leaves at most 32 notices where at most 32 waited (R187). -/
theorem ConsoleState.raise_notices_le (c : ConsoleState) (st : StationState) (now : Tick)
    (n : NoticeBody) (h : c.notices.length ≤ 32) : (c.raise st now n).notices.length ≤ 32 := by
  rcases c.raise_cases st now n with e | e | ⟨l, e⟩ <;> rw [e]
  · exact h
  · exact h
  · simp; omega

/-- A reply joins the tail where fewer than eight wait, and sets the command-lost mark where eight do
(R185). -/
theorem ConsoleState.reply_cases (c : ConsoleState) (r : Reply) :
    (8 ≤ c.replies.length ∧ c.reply r = { c with commandLost := true }) ∨
      (c.replies.length < 8 ∧ c.reply r = { c with replies := c.replies ++ [r] }) := by
  unfold ConsoleState.reply replyLimit
  split
  · exact .inl ⟨by omega, rfl⟩
  · exact .inr ⟨by omega, rfl⟩

/-- With room in the reply queue, a reply joins its tail. -/
theorem ConsoleState.reply_room (c : ConsoleState) (r : Reply) (h : c.replies.length < 8) :
    c.reply r = { c with replies := c.replies ++ [r] } := by
  rcases c.reply_cases r with ⟨l, -⟩ | ⟨-, e⟩
  · omega
  · exact e

/-- A reply leaves at most eight replies where at most eight waited (R185). -/
theorem ConsoleState.reply_replies_le (c : ConsoleState) (r : Reply) (h : c.replies.length ≤ 8) :
    (c.reply r).replies.length ≤ 8 := by
  rcases c.reply_cases r with ⟨l, e⟩ | ⟨l, e⟩ <;> rw [e]
  · exact h
  · simp; omega

@[simp] theorem ConsoleState.reply_notices (c : ConsoleState) (r : Reply) :
    (c.reply r).notices = c.notices := by
  rcases c.reply_cases r with ⟨-, e⟩ | ⟨-, e⟩ <;> rw [e]

/-! ## Offers -/

/-- What an offer does, case by case (R4, R9, R10). -/
theorem State.offer_cases (s : State) (b : Body) (e : Option Tick) :
    (s.loader.state.isMuted = true ∧ s.offer b e = s) ∨
    (s.loader.state.isMuted = false ∧ b.replaces = true ∧
      (s.line.queue b.urgent).any (fun g => g.body.kind == b.kind) = true ∧
      s.offer b e = { s with line := (s.line.withQueue b.urgent
        (replaceFrame ⟨b, s.line.eventNumber, e⟩ (s.line.queue b.urgent))) }) ∨
    (s.loader.state.isMuted = false ∧ 8 ≤ (s.line.queue b.urgent).length ∧
      s.offer b e = s.report .txOverflow b.kind) ∨
    (s.loader.state.isMuted = false ∧ (s.line.queue b.urgent).length < 8 ∧
      (b.replaces && (s.line.queue b.urgent).any (fun g => g.body.kind == b.kind)) = false ∧
      s.offer b e = { s with line := (s.line.withQueue b.urgent
        (s.line.queue b.urgent ++ [⟨b, s.line.eventNumber, e⟩])) }) := by
  by_cases m : s.loader.state.isMuted = true
  · refine .inl ⟨m, ?_⟩
    have f : s.offerFate b = .discarded := by simp [State.offerFate, m]
    simp [State.offer, f, LineState.offered]
  · have m' : s.loader.state.isMuted = false := by simpa using m
    by_cases r : (b.replaces && (s.line.queue b.urgent).any (fun g => g.body.kind == b.kind)) = true
    · refine .inr (.inl ⟨m', ?_, ?_, ?_⟩)
      · exact (Bool.and_eq_true _ _ ▸ r).1
      · exact (Bool.and_eq_true _ _ ▸ r).2
      · have f : s.offerFate b = .replaced := by simp only [State.offerFate, m', r]; rfl
        simp [State.offer, f, LineState.offered]
    · have r' : (b.replaces && (s.line.queue b.urgent).any (fun g => g.body.kind == b.kind)) = false := by
        simpa only [Bool.not_eq_true] using r
      by_cases q : 8 ≤ (s.line.queue b.urgent).length
      · refine .inr (.inr (.inl ⟨m', q, ?_⟩))
        have f : s.offerFate b = .overflow := by
          simp only [State.offerFate, m', r', queueLimit, q]; rfl
        simp [State.offer, f, LineState.offered, State.report]
      · refine .inr (.inr (.inr ⟨m', by omega, r', ?_⟩))
        have f : s.offerFate b = .joined := by
          simp only [State.offerFate, m', r', queueLimit, q]; rfl
        simp [State.offer, f, LineState.offered]

/-- A replacement keeps the length of the queue. -/
@[simp] theorem replaceFrame_length (f : QueuedFrame) (q : List QueuedFrame) :
    (replaceFrame f q).length = q.length := by
  induction q with
  | nil => rfl
  | cons g gs ih => unfold replaceFrame; split <;> simp [ih]

/-- A replacement keeps the number of waiting frames of every kind. -/
theorem replaceFrame_count (f : QueuedFrame) (k : Nat) (q : List QueuedFrame) :
    ((replaceFrame f q).filter (fun g => g.body.kind == k)).length =
      (q.filter (fun g => g.body.kind == k)).length := by
  induction q with
  | nil => rfl
  | cons g gs ih =>
    unfold replaceFrame
    split
    · rename_i h
      have h' : g.body.kind = f.body.kind := by simpa using h
      simp only [List.filter_cons, h', beq_iff_eq]
      split <;> rfl
    · simp only [List.filter_cons]
      split <;> simp [ih]

/-! ## The sensor bus -/

/-- A change of the bus state is the new state alone, or that and SENSOR_BUS, at a change into or out of HUNG (R111). -/
theorem State.setBus_eq (s : State) (b : BusState) :
    s.setBus b = s.modWind (fun w => { w with bus := b }) ∧ (s.wind.bus = .hung ↔ b = .hung) ∨
    s.setBus b = (s.modWind (fun w => { w with bus := b })).raise (.sensorBus s.loader.mast b) ∧
      ¬(s.wind.bus = .hung ↔ b = .hung) := by
  unfold State.setBus
  by_cases p : s.wind.bus = .hung <;> by_cases q : b = .hung <;> simp [p, q]

/-- A transaction that nothing cuts short reads as many bytes as its read count. -/
@[simp] theorem bytesRead_transactionSends (address n : Nat) (write : List Byte) :
    bytesRead (transactionSends address n write) = n := by
  have none : (write.map BusItem.send).count .receive = 0 := by
    simp [List.count_eq_zero]
  have first : (writePhase address n write).count .receive = 0 := by
    unfold writePhase
    split
    · rfl
    · simpa using none
  have second : (readPhase address n write).count .receive = n := by
    unfold readPhase
    split
    · simp_all
    · split <;> simp
  simp [bytesRead, transactionSends, first, second]

/-- A transaction cut short reads no more than a whole one. -/
theorem bytesRead_cutShort_le (o : TransferOutcome) (items : List BusItem) :
    bytesRead (cutShort o items) ≤ bytesRead items := by
  cases o with
  | ok => exact Nat.le_refl _
  | noAck k =>
    simpa [bytesRead, cutShort] using
      ((List.take_sublist k _).trans (List.dropLast_sublist items)).count_le .receive
  | arbLost k => exact (List.take_sublist k items).count_le _

/-- A change of the stability changes it and raises at most a notice. -/
theorem State.setStable_form (s : State) (v : Bool) : ∃ con : ConsoleState,
    s.setStable v = { s with wind := { s.wind with stable := v }, console := con } ∧
    con.replies = s.console.replies := by
  unfold State.setStable
  split
  · exact ⟨s.console, by subst ‹s.wind.stable = v›; rfl, rfl⟩
  · exact ⟨_, rfl, by simp⟩

/-- A change of the bus state changes it and raises at most a notice. -/
theorem State.setBus_form (s : State) (b : BusState) : ∃ con : ConsoleState,
    s.setBus b = { s with wind := { s.wind with bus := b }, console := con } ∧
    con.replies = s.console.replies := by
  rcases s.setBus_eq b with ⟨h, -⟩ | ⟨h, -⟩ <;> rw [h]
  · exact ⟨_, rfl, rfl⟩
  · exact ⟨_, rfl, by simp⟩

/-- SENSOR_MODE changes the master select and what goes with it, and raises at most a notice. -/
theorem State.setMaster_form (s : State) (m : MasterSelect) : ∃ con : ConsoleState,
    s.setMaster m = { s with
      wind := (if s.wind.master = m then s.wind else { s.wind with
        master := m, goodCount := 0, heldCount := 0, noAnswer := 0, lastGood := none, lastSequence := none
        stable := false })
      console := con } ∧
    con.replies = s.console.replies := by
  unfold State.setMaster
  split
  · exact ⟨_, rfl, rfl⟩
  · obtain ⟨con, h, hr⟩ := State.setStable_form (s.modWind (fun w => { w with
      master := m, goodCount := 0, heldCount := 0, noAnswer := 0, lastGood := none, lastSequence := none })) false
    exact ⟨con, h, hr⟩

/-- The pending operation is answered and ends. -/
theorem State.answerOp_room {s : State} (h : s.console.replies.length < 8) (kind : Nat) (c : ReplyCode) :
    s.answerOp kind c = { s with
      wind := { s.wind with pendingOp := none }
      console := { s.console with replies := s.console.replies ++ [{ command := kind, code := c }] } } := by
  have := ConsoleState.reply_room s.console { command := kind, code := c } h
  simp only [State.answerOp, State.answer, State.reply, State.modWind, this]

/-- A transfer is answered with its outcome and the FIFO, and ends. -/
theorem State.answerTransfer_room {s : State} (h : s.console.replies.length < 8) (outcome : Nat) :
    s.answerTransfer outcome = { s with
      wind := { s.wind with pendingOp := none }
      console := { s.console with replies := s.console.replies ++ [{
        command := 0x21, code := .ok
        extra := [byte outcome, byte s.wind.fifo.length] ++ s.wind.fifo }] } } := by
  simp only [State.answerTransfer, State.reply, State.modWind]
  rw [ConsoleState.reply_room _ _ h]

/-- A waiting command that is carried out on a FREE or HUNG bus (R97 to R99). -/
theorem State.carryOut_carriesOut (u : State) (op : SensorOp) (hb : u.wind.bus = .free ∨ u.wind.bus = .hung)
    (hn : u.wind.pendingOp = none) (hr : u.console.replies.length < 8) :
    u.CarriesOut ({ u with wind := { u.wind with pendingOp := some op } } : State).carryOut op := by
  have hw : ({ u.wind with pendingOp := none } : WindState) = u.wind := by rw [← hn]
  unfold State.carryOut
  rw [if_pos hb]
  dsimp only
  cases op with
  | mode m =>
    dsimp only
    obtain ⟨con, h, hc⟩ := State.setMaster_form { u with wind := { u.wind with pendingOp := some (.mode m) } } m
    rw [State.answerOp_room (by rw [h]; simpa [hc] using hr), h]
    refine ⟨rfl, ?_, by simp [hc]⟩
    dsimp only
    split
    · exact hw
    · simp [hn]
  | release =>
    dsimp only
    obtain ⟨con, h, hc⟩ := State.setBus_form
      (State.sendOnBus { u with wind := { u.wind with pendingOp := some .release } } burstSends)
      (.releasing true (u.wind.bus == .hung))
    unfold State.beginBurst
    rw [h]
    refine ⟨rfl, ?_, hc⟩
    rcases hb with x | x <;> simp [State.sendOnBus, State.modWind, x]
  | transfer a n w =>
    dsimp only
    by_cases x : u.wind.master = .auto ∨ u.wind.bus = .hung
    · rw [if_pos x, State.answerOp_room
        (s := { u with wind := { u.wind with pendingOp := some (.transfer a n w) } }) hr]
      refine ⟨rfl, fun _ => ⟨hw, rfl⟩, fun h1 h2 => ?_⟩
      rcases x with x | x
      · simp [x] at h1
      · simp [x] at h2
    · rw [if_neg x]
      by_cases y : u.wind.dataLow = true
      · rw [if_pos (by exact y)]
        obtain ⟨con, h, hc⟩ := State.setBus_form
          (State.sendOnBus (State.modWind { u with wind := { u.wind with pendingOp := some (.transfer a n w) } }
            (fun w => { w with fifo := [] })) burstSends) (.releasing false false)
        unfold State.detectHang State.beginBurst
        rw [h]
        rw [State.answerTransfer_room (by simp [State.report, hc]; exact hr)]
        refine ⟨rfl, fun z => absurd z x, fun _ _ => ⟨fun z => by simp [y] at z, fun _ => ⟨?_, rfl, ?_⟩⟩⟩
        · exact congrArg (fun p => ({ u.wind with
            fifo := [], bus := .releasing false false, sends := burstSends, pendingOp := p } : WindState)) hn.symm
        · simp only [State.report, ConsoleState.raise_replies, hc]; rfl
      · rw [if_neg (by exact y)]
        obtain ⟨con, h, hc⟩ := State.setBus_form
          (State.sendOnBus (State.modWind { u with wind := { u.wind with pendingOp := some (.transfer a n w) } }
            (fun w => { w with fifo := [] })) (transactionSends a n w)) .busyTransfer
        unfold State.beginTransaction
        rw [h]
        exact ⟨rfl, fun z => absurd z x, fun _ _ => ⟨fun _ => ⟨rfl, hc⟩, fun z => absurd z y⟩⟩

end Sys2Proof.Machine
end

