-- ==== Sys2Proof/Laws/Blocks.lean ====
section
/-! SUPPORT. What the functions of each block leave alone. A block changes its own state and its outbox (the
transmit queues, the fault latch, and the replies and notices of the console), and it keeps the bounds of the
outbox. One lemma a function, in the form of a chain: what holds of the state before holds of it after. -/

namespace Sys2Proof.Machine

open Sys2Proof

/-! ## The outbox -/

/-- The bounds of the outbox are kept. -/
structure OutKeeps (s t : State) : Prop where
  queues : s.QueuesSound → t.QueuesSound
  muted : s.MutedQuiet → t.MutedQuiet
  console : s.ConsoleSound → t.ConsoleSound

theorem OutKeeps.refl (s : State) : OutKeeps s s := ⟨id, id, id⟩

theorem OutKeeps.trans {s t u : State} (h : OutKeeps s t) (k : OutKeeps t u) : OutKeeps s u :=
  ⟨k.queues ∘ h.queues, k.muted ∘ h.muted, k.console ∘ h.console⟩

/-- A change outside the line, the station state and the console keeps the bounds of the outbox. -/
theorem OutKeeps.of_eq {s t : State} (l : t.line = s.line) (d : t.loader = s.loader)
    (c : t.console = s.console) : OutKeeps s t := by
  refine ⟨fun h => ?_, fun h => ?_, fun h => ?_⟩
  · unfold State.QueuesSound; rw [l]; exact h
  · unfold State.MutedQuiet; rw [l, d]; exact h
  · unfold State.ConsoleSound; rw [c]; exact h

theorem OutKeeps.raise (s : State) (n : NoticeBody) : OutKeeps s (s.raise n) :=
  ⟨id, id, fun h => ⟨by simpa using h.1, ConsoleState.raise_notices_le _ _ _ _ h.2⟩⟩

theorem OutKeeps.report (s : State) (k : FaultKind) (d : Nat) : OutKeeps s (s.report k d) :=
  ⟨id, id, fun h => ⟨by simpa using h.1, ConsoleState.raise_notices_le _ _ _ _ h.2⟩⟩

theorem OutKeeps.reply (s : State) (r : Reply) : OutKeeps s (s.reply r) :=
  ⟨id, id, fun h => ⟨ConsoleState.reply_replies_le _ _ h.1, by simpa using h.2⟩⟩

/-- At most one frame of a kind that R10 replaces waits after an offer. -/
theorem State.offer_queuesSound (s : State) (b : Body) (e : Option Tick) (h : s.QueuesSound) :
    (s.offer b e).QueuesSound := by
  obtain ⟨h1, h2, h3, h4⟩ := h
  rcases s.offer_cases b e with ⟨-, x⟩ | ⟨-, -, -, x⟩ | ⟨-, -, x⟩ | ⟨-, l, n, x⟩ <;> rw [x]
  · exact ⟨h1, h2, h3, h4⟩
  · unfold State.QueuesSound LineState.withQueue LineState.queue
    split
    · exact ⟨by simpa using h1, h2, h3, h4⟩
    · exact ⟨h1, by simpa using h2, by simpa [replaceFrame_count] using h3,
        by simpa [replaceFrame_count] using h4⟩
  · exact ⟨h1, h2, h3, h4⟩
  · unfold State.QueuesSound
    cases u : b.urgent
    · simp only [LineState.withQueue, LineState.queue, u, Body.replaces] at l n ⊢
      refine ⟨h1, by simp at l ⊢; omega, ?_, ?_⟩
      · by_cases k : b.kind = 1
        · have z : s.line.routine.filter (fun f => f.body.kind == 1) = [] := by
            simp [k] at n; simpa [List.filter_eq_nil_iff] using n
          simp [List.filter_append, z, k]
        · simpa [List.filter_append, k] using h3
      · by_cases k : b.kind = 2
        · have z : s.line.routine.filter (fun f => f.body.kind == 2) = [] := by
            simp [k] at n; simpa [List.filter_eq_nil_iff] using n
          simp [List.filter_append, z, k]
        · simpa [List.filter_append, k] using h4
    · simp only [LineState.withQueue, LineState.queue, u, if_true] at l ⊢
      exact ⟨by simp; omega, h2, h3, h4⟩

theorem OutKeeps.offer (s : State) (b : Body) (e : Option Tick) : OutKeeps s (s.offer b e) := by
  refine ⟨s.offer_queuesSound b e, fun h => ?_, fun h => ?_⟩
  · rcases s.offer_cases b e with ⟨-, x⟩ | ⟨m, -, -, x⟩ | ⟨m, -, x⟩ | ⟨m, -, -, x⟩ <;> rw [x]
    · exact h
    all_goals exact fun m' => absurd (m'.symm.trans m) (by simp)
  · rcases s.offer_cases b e with ⟨-, x⟩ | ⟨-, -, -, x⟩ | ⟨-, -, x⟩ | ⟨-, -, -, x⟩ <;> rw [x]
    · exact h
    · exact h
    · exact (OutKeeps.report s _ _).console h
    · exact h

/-! ## A block and its outbox -/

/-- `t` with the outbox of `s`. -/
def restoreOut (s t : State) : State :=
  { t with
    line := { t.line with urgent := s.line.urgent, routine := s.line.routine }
    latch := s.latch
    console := { t.console with
      replies := s.console.replies, notices := s.console.notices
      overrun := s.console.overrun, commandLost := s.console.commandLost } }

/-- A way to put back a block's own state and the outbox. -/
structure BlockRestore (R : State → State → State) : Prop where
  self : ∀ s, R s s = s
  trans : ∀ s t u, R s (R t u) = R s u
  out : ∀ s t u, R s (restoreOut t u) = R s u

/-- From `s` to `t` nothing changes but what `R` puts back, and the bounds of the outbox are kept. -/
structure Only (R : State → State → State) (s t : State) : Prop where
  block : BlockRestore R
  same : R s t = s
  keeps : OutKeeps s t

theorem Only.refl {R : State → State → State} (b : BlockRestore R) (s : State) : Only R s s :=
  ⟨b, b.self s, .refl s⟩

theorem Only.trans {R : State → State → State} {s t u : State} (h : Only R s t) (k : Only R t u) :
    Only R s u :=
  ⟨h.block, by rw [← h.block.trans s t u, k.same, h.same], h.keeps.trans k.keeps⟩

/-- A state that differs in the outbox alone. -/
theorem Only.of_out {R : State → State → State} {s t u : State} (h : Only R s t)
    (o : restoreOut t u = t) (k : OutKeeps t u) : Only R s u :=
  ⟨h.block, by rw [← h.block.out s t u, o, h.same], h.keeps.trans k⟩

theorem Only.raise {R : State → State → State} {s t : State} (h : Only R s t) (n : NoticeBody) :
    Only R s (t.raise n) := by
  refine h.of_out ?_ (.raise t n)
  unfold restoreOut State.raise
  rcases t.console.raise_cases t.loader.state t.clock n with e | e | ⟨-, e⟩ <;> rw [e]

theorem Only.report {R : State → State → State} {s t : State} (h : Only R s t) (k : FaultKind)
    (d : Nat) : Only R s (t.report k d) := by
  refine h.of_out ?_ (.report t k d)
  unfold restoreOut State.report
  rcases t.console.raise_cases t.loader.state t.clock (.faultReported k d) with e | e | ⟨-, e⟩ <;> rw [e]

theorem Only.reply {R : State → State → State} {s t : State} (h : Only R s t) (r : Reply) :
    Only R s (t.reply r) := by
  refine h.of_out ?_ (.reply t r)
  unfold restoreOut State.reply
  rcases t.console.reply_cases r with ⟨-, e⟩ | ⟨-, e⟩ <;> rw [e]

theorem Only.answer {R : State → State → State} {s t : State} (h : Only R s t) (k : Nat)
    (c : ReplyCode) : Only R s (t.answer k c) := h.reply _

theorem restoreOut_offer (s : State) (b : Body) (e : Option Tick) : restoreOut s (s.offer b e) = s := by
  rcases s.offer_cases b e with ⟨-, x⟩ | ⟨-, -, -, x⟩ | ⟨-, -, x⟩ | ⟨-, -, -, x⟩ <;> rw [x]
  · rfl
  · unfold restoreOut LineState.withQueue; split <;> rfl
  · unfold restoreOut State.report
    rcases s.console.raise_cases s.loader.state s.clock (.faultReported .txOverflow b.kind) with
      z | z | ⟨-, z⟩ <;> rw [z]
  · unfold restoreOut LineState.withQueue; split <;> rfl

theorem Only.offer {R : State → State → State} {s t : State} (h : Only R s t) (b : Body)
    (e : Option Tick) : Only R s (t.offer b e) := h.of_out (restoreOut_offer t b e) (.offer t b e)

theorem Only.reoffer {R : State → State → State} {s t : State} (h : Only R s t) (k : Option KeptFrame) :
    Only R s (t.reoffer k) := by
  unfold State.reoffer; split
  · exact h
  · exact h.offer _ _

theorem Only.foldl {R : State → State → State} {α : Type} {f : State → α → State} {s : State}
    (step : ∀ {t : State}, Only R s t → ∀ a, Only R s (f t a)) (as : List α) :
    ∀ {t : State}, Only R s t → Only R s (as.foldl f t) := by
  induction as with
  | nil => exact id
  | cons a as ih => exact fun h => ih (step h a)

theorem Only.reofferKept {R : State → State → State} {s t : State} (h : Only R s t)
    (ks : List KeptFrame) : Only R s (t.reofferKept ks) :=
  Only.foldl (fun h _ => h.offer _ _) ks h

theorem Only.reofferAll {R : State → State → State} {s t : State} (h : Only R s t) (bs : List Body) :
    Only R s (t.reofferAll bs) := Only.foldl (fun h _ => h.offer _ _) bs h

/-! ## The blocks' own states -/

def restoreStart (s t : State) : State := { restoreOut s t with start := s.start }
def restoreEdge (s t : State) : State := { restoreOut s t with edge := s.edge }
def restoreWind (s t : State) : State := { restoreOut s t with wind := s.wind }
def restoreSpan (s t : State) : State := { restoreOut s t with span := s.span }
def restoreLanding (s t : State) : State := { restoreOut s t with contexts := s.contexts }
def restoreStandings (s t : State) : State := { restoreOut s t with standings := s.standings }
def restoreBoard (s t : State) : State := { restoreOut s t with board := s.board }

/-- The scoring unit also changes the scoring parts of the attempt records. -/
def restoreScoring (s t : State) : State :=
  { restoreOut s t with scoring := s.scoring, table := s.table }

theorem blockOut : BlockRestore restoreOut := ⟨fun _ => rfl, fun _ _ _ => rfl, fun _ _ _ => rfl⟩
theorem blockStart : BlockRestore restoreStart := ⟨fun _ => rfl, fun _ _ _ => rfl, fun _ _ _ => rfl⟩
theorem blockEdge : BlockRestore restoreEdge := ⟨fun _ => rfl, fun _ _ _ => rfl, fun _ _ _ => rfl⟩
theorem blockWind : BlockRestore restoreWind := ⟨fun _ => rfl, fun _ _ _ => rfl, fun _ _ _ => rfl⟩
theorem blockSpan : BlockRestore restoreSpan := ⟨fun _ => rfl, fun _ _ _ => rfl, fun _ _ _ => rfl⟩
theorem blockLanding : BlockRestore restoreLanding := ⟨fun _ => rfl, fun _ _ _ => rfl, fun _ _ _ => rfl⟩
theorem blockStandings : BlockRestore restoreStandings :=
  ⟨fun _ => rfl, fun _ _ _ => rfl, fun _ _ _ => rfl⟩
theorem blockBoard : BlockRestore restoreBoard := ⟨fun _ => rfl, fun _ _ _ => rfl, fun _ _ _ => rfl⟩
theorem blockScoring : BlockRestore restoreScoring := ⟨fun _ => rfl, fun _ _ _ => rfl, fun _ _ _ => rfl⟩

abbrev OnlyOut := Only restoreOut
abbrev OnlyStart := Only restoreStart
abbrev OnlyEdge := Only restoreEdge
abbrev OnlyWind := Only restoreWind
abbrev OnlySpan := Only restoreSpan
abbrev OnlyLanding := Only restoreLanding
abbrev OnlyStandings := Only restoreStandings
abbrev OnlyBoard := Only restoreBoard

theorem Only.modStart {s t : State} (h : OnlyStart s t) (f : StartState → StartState) :
    OnlyStart s (t.modStart f) := ⟨h.block, h.same, h.keeps.trans (.of_eq rfl rfl rfl)⟩

theorem Only.modEdge {s t : State} (h : OnlyEdge s t) (f : EdgeState → EdgeState) :
    OnlyEdge s (t.modEdge f) := ⟨h.block, h.same, h.keeps.trans (.of_eq rfl rfl rfl)⟩

theorem Only.modWind {s t : State} (h : OnlyWind s t) (f : WindState → WindState) :
    OnlyWind s (t.modWind f) := ⟨h.block, h.same, h.keeps.trans (.of_eq rfl rfl rfl)⟩

theorem Only.modSpan {s t : State} (h : OnlySpan s t) (f : SpanState → SpanState) :
    OnlySpan s (t.modSpan f) := ⟨h.block, h.same, h.keeps.trans (.of_eq rfl rfl rfl)⟩

theorem Only.setContext {s t : State} (h : OnlyLanding s t) (c : LandingContext) :
    OnlyLanding s (t.setContext c) := ⟨h.block, h.same, h.keeps.trans (.of_eq rfl rfl rfl)⟩

theorem Only.dropContext {s t : State} (h : OnlyLanding s t) (n : Nat) :
    OnlyLanding s (t.dropContext n) := ⟨h.block, h.same, h.keeps.trans (.of_eq rfl rfl rfl)⟩

theorem Only.modStandings {s t : State} (h : OnlyStandings s t) (f : StandingsState → StandingsState) :
    OnlyStandings s (t.modStandings f) := ⟨h.block, h.same, h.keeps.trans (.of_eq rfl rfl rfl)⟩

theorem Only.modBoard {s t : State} (h : OnlyBoard s t) (f : BoardState → BoardState) :
    OnlyBoard s (t.modBoard f) := ⟨h.block, h.same, h.keeps.trans (.of_eq rfl rfl rfl)⟩

end Sys2Proof.Machine
end

