-- ==== Sys2Proof/Laws/StartBlock.lean ====
section
/-! SUPPORT. The start sequencer changes its own state and its outbox alone. -/

namespace Sys2Proof.Machine

open Sys2Proof

/-- Appending to the hold list adds the one entry, wherever it stands among those of its instant. -/
theorem appendHold_perm (h : Hold) (hs : List Hold) : (appendHold h hs).Perm (h :: hs) := by
  induction hs with
  | nil => exact .refl _
  | cons x xs ih =>
    unfold appendHold; split
    · exact .refl _
    · exact (ih.cons x).trans (.swap h x xs)

/-- An entry whose instant no other entry shares goes to the tail (R59). -/
theorem appendHold_eq_append (h : Hold) (hs : List Hold) (k : ∀ x ∈ hs, x.raisedAt ≠ h.raisedAt) :
    appendHold h hs = hs ++ [h] := by
  induction hs with
  | nil => rfl
  | cons x xs ih =>
    have e : x.raisedAt ≠ h.raisedAt := k x (by simp)
    simp [appendHold, e, ih fun y hy => k y (by simp [hy])]

namespace Only

variable {s t : State}

theorem offerPhase (h : OnlyStart s t) : OnlyStart s t.offerPhase := by
  unfold State.offerPhase; split
  · exact h
  · exact (h.modStart _).offer _ _

theorem enterRed (h : OnlyStart s t) : OnlyStart s t.enterRed := (h.modStart _).offerPhase

theorem enterAmber (h : OnlyStart s t) : OnlyStart s t.enterAmber := (h.modStart _).offerPhase

theorem enterGreen (h : OnlyStart s t) : OnlyStart s t.enterGreen := (h.modStart _).offerPhase

theorem enterGone (h : OnlyStart s t) (k : AttemptHdr) (b : Bool) (e : Tick) :
    OnlyStart s (t.enterGone k b e) := ((h.modStart _).offer _ _).offerPhase

theorem closeStart (h : OnlyStart s t) : OnlyStart s t.closeStart := by
  unfold State.closeStart; split
  · exact h.enterRed
  · exact (h.modStart _).enterRed
  · exact h

theorem openStart (h : OnlyStart s t) : OnlyStart s t.openStart := by
  unfold State.openStart; split
  · exact h.enterAmber
  · exact h

theorem raiseHold (h : OnlyStart s t) (c : HoldCause) (a b : Nat) : OnlyStart s (t.raiseHold c a b) := by
  unfold State.raiseHold; split
  · exact h.modStart _
  · exact ((h.modStart _).raise _).closeStart

theorem removeHold (h : OnlyStart s t) (c : HoldCause) : OnlyStart s (t.removeHold c) := by
  unfold State.removeHold; split
  · exact h
  · exact (h.modStart _).raise _

theorem releaseHold (h : OnlyStart s t) (c : HoldCause) : OnlyStart s (t.releaseHold c) := by
  unfold State.releaseHold; split
  · exact (h.removeHold c).openStart
  · exact h

theorem holdWhile (h : OnlyStart s t) (c : HoldCause) (w : Option (Nat × Nat)) :
    OnlyStart s (t.holdWhile c w) := by
  unfold State.holdWhile; split
  · exact h.raiseHold _ _ _
  · exact h.releaseHold _

theorem endCycle (h : OnlyStart s t) : OnlyStart s t.endCycle := (h.modStart _).releaseHold _

theorem ownVoid (h : OnlyStart s t) (r : VoidReason) : OnlyStart s (t.ownVoid r) := by
  unfold State.ownVoid; split
  · exact h
  · exact ((h.modStart _).offer _ _).endCycle

theorem startMuted (h : OnlyStart s t) : OnlyStart s t.startMuted := h.endCycle.modStart _

theorem evalRosterHolds (h : OnlyStart s t) : OnlyStart s t.evalRosterHolds :=
  (h.holdWhile _ _).holdWhile _ _

theorem evalBacklog (h : OnlyStart s t) : OnlyStart s t.evalBacklog := h.holdWhile _ _

theorem recountBacklog (h : OnlyStart s t) : OnlyStart s t.recountBacklog := by
  unfold State.recountBacklog; split
  · exact (h.modStart _).evalBacklog
  · exact h

theorem evalWind (h : OnlyStart s t) : OnlyStart s t.evalWind := by
  unfold State.evalWind; split
  · exact (h.modStart _).raiseHold _ _ _
  · split
    · split
      · exact h.releaseHold _
      · split
        · exact h
        · exact h.modStart _
    · exact h

theorem startCorridor (h : OnlyStart s t) (l : LineHdr) (m : Nat) (x y : Int) (u : Nat)
    (f : CorridorFlags) : OnlyStart s (t.startCorridor l m x y u f) := by
  unfold State.startCorridor; split
  · exact (h.modStart _).evalWind
  · exact h.raise _

theorem refuseCoach (h : OnlyStart s t) (n : Nat) : OnlyStart s (t.refuseCoach n) := (h.modStart _).raise _

theorem pressCoach (h : OnlyStart s t) (sel : BitVec 4) : OnlyStart s (t.pressCoach sel) := by
  unfold State.pressCoach; dsimp only; split
  · exact h.refuseCoach _
  · split
    · exact ((h.modStart _).raiseHold _ _ _).offer _ _
    · exact h.refuseCoach _

theorem applyGate (h : OnlyStart s t) (g : Nat) : OnlyStart s (t.applyGate g) := by
  unfold State.applyGate; split
  · exact h
  · dsimp only; split
    · exact ((h.modStart _).modStart _).enterRed
    · exact h.modStart _

theorem takeGate (h : OnlyStart s t) (k : AttemptHdr) (g : Nat) (a : Bool) :
    OnlyStart s (t.takeGate k g a) := by
  unfold State.takeGate; split
  · split
    · split
      · exact (h.modStart _).releaseHold _
      · exact h
    · exact (((h.modStart _).offer _ _).applyGate _).releaseHold _
  · exact h.applyGate _

theorem startCall (h : OnlyStart s t) (k : AttemptHdr) (g : Nat) : OnlyStart s (t.startCall k g) := by
  unfold State.startCall; split
  · exact (h.modStart _).enterRed
  · exact h.raise _

theorem startGo (h : OnlyStart s t) (k : AttemptHdr) : OnlyStart s (t.startGo k) := by
  unfold State.startGo; split
  · exact h.raise _
  · split
    · exact (h.modStart _).openStart
    · exact h

theorem startGate (h : OnlyStart s t) (k : AttemptHdr) (g : Nat) (a : Bool) :
    OnlyStart s (t.startGate k g a) := by
  unfold State.startGate; split
  · exact h.takeGate _ _ _
  · exact h.raise _

theorem startHold (h : OnlyStart s t) (l : LineHdr) (b : Bool) : OnlyStart s (t.startHold l b) := by
  unfold State.startHold; split
  · exact h.raiseHold _ _ _
  · exact h.releaseHold _

theorem startOwnPhase (h : OnlyStart s t) (b : Body) : OnlyStart s (t.startOwnPhase b) := by
  unfold State.startOwnPhase; dsimp only; split
  · exact (h.modStart _).reoffer _
  · exact h.modStart _

theorem startVoid (h : OnlyStart s t) (l : LineHdr) (k : AttemptHdr) (b : Body) :
    OnlyStart s (t.startVoid l k b) := by
  unfold State.startVoid; dsimp only
  repeat' split
  all_goals first
    | exact h
    | exact h.modStart _
    | exact h.endCycle
    | exact (h.modStart _).endCycle

theorem startLanded (h : OnlyStart s t) (k : AttemptHdr) : OnlyStart s (t.startLanded k) := by
  unfold State.startLanded; split
  · exact h.endCycle
  · exact h

theorem reofferPhase (h : OnlyStart s t) : OnlyStart s t.reofferPhase := by
  unfold State.reofferPhase; split
  · exact h.offer _ _
  · exact h.reoffer _

theorem startOwnStatus (h : OnlyStart s t) : OnlyStart s t.startOwnStatus :=
  ((h.reoffer _).reofferPhase).reoffer _

theorem juryOnly (h : OnlyStart s t) (l : LineHdr) (b : Body) {act : State → State}
    (k : OnlyStart s (act t)) : OnlyStart s (t.juryOnly l b act) := by
  unfold State.juryOnly; split
  · exact k
  · exact h.raise _

theorem startFrame (h : OnlyStart s t) (l : LineHdr) (b : Body) : OnlyStart s (t.startFrame l b) := by
  unfold State.startFrame; split
  · exact h.juryOnly l _ (h.startCall _ _)
  · exact h.juryOnly l _ (h.startGo _)
  · exact h.juryOnly l _ (h.startGate _ _ _)
  · exact h.juryOnly l _ (h.startHold _ _)
  · exact h.startCorridor _ _ _ _ _ _
  · exact h.startVoid _ _ _
  · exact h.startLanded _
  · exact h.startLanded _
  · exact h.startLanded _
  · split
    · exact h.startOwnPhase _
    · exact h
  · split
    · exact h.modStart _
    · exact h
  · split
    · exact h.startOwnStatus
    · exact h
  · split
    · exact h.modStart _
    · exact h.endCycle.modStart _
  · exact h

theorem startTake (h : OnlyStart s t) (l : LineHdr) (b : Body) : OnlyStart s (t.startTake l b) := by
  unfold State.startTake; split
  · exact (h.startFrame l b).recountBacklog
  · exact h.recountBacklog.startFrame l b

theorem startEntry (h : OnlyStart s t) (b : Bool) : OnlyStart s (t.startEntry b) :=
  (((h.modStart _).evalWind).evalRosterHolds).evalBacklog

theorem startRestart (h : OnlyStart s t) : OnlyStart s t.startRestart := by
  unfold State.startRestart; dsimp only; split
  · exact (((Only.foldl (f := fun s c => s.removeHold c) (fun h c => h.removeHold c) _
      h.endCycle).modStart _).evalWind.evalRosterHolds).evalBacklog
  · exact ((((Only.foldl (f := fun s c => s.removeHold c) (fun h c => h.removeHold c) _
      h.endCycle).modStart _).evalWind.evalRosterHolds).evalBacklog).raiseHold _ _ _

theorem takeLeave (h : OnlyStart s t) (e : Tick) : OnlyStart s (t.takeLeave e) := by
  unfold State.takeLeave; split
  · exact h.raise _
  · split
    · exact h.enterGone _ _ _
    · split
      · exact h.enterGone _ _ _
      · exact h.ownVoid _
    · exact h.ownVoid _
    · exact h.raise _
    · exact h.raise _

end Only

end Sys2Proof.Machine
end

