-- ==== Sys2Proof/Laws/FlightBlocks.lean ====
section
/-! SUPPORT. The edge timer, the wind unit, the span unit and the landing resolver change their own states and
their outboxes alone. -/

namespace Sys2Proof.Machine

open Sys2Proof

namespace Only

variable {s t : State}

/-! ## The edge timer -/

theorem edgeChange (h : OnlyEdge s t) (c : Change) : OnlyEdge s (t.edgeChange c) := by
  unfold State.edgeChange
  repeat' split
  all_goals first
    | exact h
    | exact h.modEdge _

theorem breakA (h : OnlyEdge s t) (r : RunRecord) (e : Tick) (u : Micros) :
    OnlyEdge s (t.breakA r e u) := by
  unfold State.breakA; split
  · exact h.modEdge _
  · exact h.raise _

theorem breakB (h : OnlyEdge s t) (r : RunRecord) (e : Tick) (u : Micros) :
    OnlyEdge s (t.breakB r e u) := by
  unfold State.breakB State.implausible; split
  · dsimp only; split
    · exact (h.modEdge _).raise _
    · split
      · exact (h.modEdge _).raise _
      · split
        · exact ((h.modEdge _).modEdge _).offer _ _
        · exact (h.modEdge _).raise _
  · exact h.raise _

theorem breakT (h : OnlyEdge s t) (r : RunRecord) (e : Tick) : OnlyEdge s (t.breakT r e) := by
  unfold State.breakT; split
  · exact h.raise _
  · exact (h.modEdge _).offer _ _

theorem attributeBreak (h : OnlyEdge s t) (x : EdgeBarrier) (e : Tick)
    {act : State → RunRecord → State} (k : ∀ {t : State}, OnlyEdge s t → ∀ r, OnlyEdge s (act t r)) :
    OnlyEdge s (t.attributeBreak x e act) := by
  unfold State.attributeBreak; split
  · exact h.raise _
  · exact k (h.modEdge _) _

theorem edgeBreak (h : OnlyEdge s t) (x : EdgeBarrier) {act : State → RunRecord → Tick → Micros → State}
    (k : ∀ {t : State}, OnlyEdge s t → ∀ r e u, OnlyEdge s (act t r e u)) :
    OnlyEdge s (t.edgeBreak x act) := by
  unfold State.edgeBreak; split
  · exact (h.modEdge _).attributeBreak _ _ (fun h r => k h r _ _)
  · exact h

theorem edgeFrame (h : OnlyEdge s t) (l : LineHdr) (b : Body) : OnlyEdge s (t.edgeFrame l b) := by
  unfold State.edgeFrame
  repeat' split
  all_goals first
    | exact h
    | exact h.modEdge _
    | exact (h.reoffer _).reoffer _

/-! ## The wind unit -/

theorem setStable (h : OnlyWind s t) (v : Bool) : OnlyWind s (t.setStable v) := by
  unfold State.setStable; split
  · exact h
  · exact (h.modWind _).raise _

theorem failedPoll (h : OnlyWind s t) : OnlyWind s t.failedPoll := by
  unfold State.failedPoll; dsimp only; split
  · exact h.modWind _
  · split
    · exact (h.modWind _).modWind _
    · exact ((h.modWind _).modWind _).setStable _

theorem goodPoll (h : OnlyWind s t) (x y : Int) (q : Byte) : OnlyWind s (t.goodPoll x y q) := by
  unfold State.goodPoll; dsimp only; split
  · exact (h.modWind _).setStable _
  · exact h.modWind _

theorem noAnswer (h : OnlyWind s t) : OnlyWind s t.noAnswer := by
  unfold State.noAnswer; split
  · dsimp only; split
    · exact ((h.modWind _).modWind _).report _ _
    · exact h.modWind _
  · exact h

theorem answered (h : OnlyWind s t) : OnlyWind s t.answered := h.modWind _

theorem pollOutcome (h : OnlyWind s t) (r : PollResult) : OnlyWind s (t.pollOutcome r) := by
  unfold State.pollOutcome
  repeat' split
  · exact (h.modWind _).failedPoll
  · exact h.goodPoll _ _ _
  · exact (h.modWind _).failedPoll
  · exact h.noAnswer.failedPoll
  · exact h.failedPoll

theorem setBus (h : OnlyWind s t) (b : BusState) : OnlyWind s (t.setBus b) := by
  unfold State.setBus; dsimp only; split
  · exact (h.modWind _).raise _
  · exact h.modWind _

theorem sendOnBus (h : OnlyWind s t) (l : List BusItem) : OnlyWind s (t.sendOnBus l) := h.modWind _

theorem beginTransaction (h : OnlyWind s t) (b : BusState) (l : List BusItem) :
    OnlyWind s (t.beginTransaction b l) := (h.sendOnBus _).setBus _

theorem endTransaction (h : OnlyWind s t) (o : TransferOutcome) (l : List BusItem) :
    OnlyWind s (t.endTransaction o l) := (h.sendOnBus _).setBus _

theorem beginBurst (h : OnlyWind s t) (a b : Bool) : OnlyWind s (t.beginBurst a b) :=
  (h.sendOnBus _).setBus _

theorem detectHang (h : OnlyWind s t) (a : Nat) : OnlyWind s (t.detectHang a) := (h.beginBurst _ _).report _ _

theorem answerTransfer (h : OnlyWind s t) (n : Nat) : OnlyWind s (t.answerTransfer n) :=
  (h.modWind _).reply _

theorem answerOp (h : OnlyWind s t) (k : Nat) (c : ReplyCode) : OnlyWind s (t.answerOp k c) :=
  (h.modWind _).answer _ _

theorem setMaster (h : OnlyWind s t) (m : MasterSelect) : OnlyWind s (t.setMaster m) := by
  unfold State.setMaster; split
  · exact h
  · exact (h.modWind _).setStable _

theorem carryOut (h : OnlyWind s t) : OnlyWind s t.carryOut := by
  unfold State.carryOut; split
  · split
    · exact h
    · exact (h.setMaster _).answerOp _ _
    · split
      · exact h.answerOp _ _
      · dsimp only; split
        · exact ((h.modWind _).detectHang _).answerTransfer _
        · exact (h.modWind _).beginTransaction _ _
    · exact h.beginBurst _ _
  · exact h

theorem takeOp (h : OnlyWind s t) (k : Nat) (o : Option SensorOp) : OnlyWind s (t.takeOp k o) := by
  unfold State.takeOp; split
  · exact h.answer _ _
  · split
    · exact h.answer _ _
    · exact (h.modWind _).carryOut

theorem windLanding (h : OnlyWind s t) (n : Nat) : OnlyWind s (t.windLanding n) := by
  unfold State.windLanding; split
  · exact h
  · split
    · exact h.raise _
    · split
      · exact ((h.modWind _).offer _ _).raise _
      · exact h

theorem windFrame (h : OnlyWind s t) (l : LineHdr) (b : Body) : OnlyWind s (t.windFrame l b) := by
  unfold State.windFrame
  repeat' split
  all_goals first
    | exact h
    | exact h.modWind _
    | exact h.windLanding _
    | exact h.reofferAll _

theorem windChange (h : OnlyWind s t) (c : Change) : OnlyWind s (t.windChange c) := by
  unfold State.windChange
  repeat' split
  all_goals first
    | exact h
    | exact h.modWind _

theorem windRestart (h : OnlyWind s t) : OnlyWind s t.windRestart := (h.modWind _).setStable _

/-! ## The span unit -/

theorem offerKept (h : OnlySpan s t) (b : Body) (e : Tick) : OnlySpan s (t.offerKept b e) :=
  (h.modSpan _).offer _ _

theorem beginClaim (h : OnlySpan s t) : OnlySpan s t.beginClaim := by
  unfold State.beginClaim
  repeat' split
  all_goals first
    | exact h
    | exact (h.modSpan _).offerKept _ _

theorem endClaim (h : OnlySpan s t) (r : LostReason) (e : Tick) : OnlySpan s (t.endClaim r e) := by
  unfold State.endClaim
  repeat' split
  all_goals first
    | exact h
    | exact (h.modSpan _).offerKept _ _

theorem headRecord (h : OnlySpan s t) (e : Tick) : OnlySpan s (t.headRecord e) := by
  unfold State.headRecord; dsimp only; split
  · exact h.modSpan _
  · exact (h.modSpan _).raise _

theorem presenceOff (h : OnlySpan s t) (e : Tick) : OnlySpan s (t.presenceOff e) :=
  (h.modSpan _).endClaim _ _

theorem spanContact (h : OnlySpan s t) (k : Track) (o : Nat) (e : Tick) :
    OnlySpan s (t.spanContact k o e) := by
  unfold State.spanContact; split
  · split
    · exact h.raise _
    · split
      · exact h
      · dsimp only; split
        · exact ((h.modSpan _).offerKept _ _).endClaim _ _
        · exact (h.modSpan _).offerKept _ _
  · exact h.raise _

theorem spanChange (h : OnlySpan s t) (c : Change) : OnlySpan s (t.spanChange c) := by
  unfold State.spanChange
  repeat' split
  all_goals first
    | exact h
    | exact h.modSpan _
    | exact (h.modSpan _).beginClaim

theorem spanFrame (h : OnlySpan s t) (l : LineHdr) (b : Body) : OnlySpan s (t.spanFrame l b) := by
  unfold State.spanFrame
  repeat' split
  all_goals first
    | exact h
    | exact h.modSpan _
    | exact h.reofferKept _

/-! ## The landing resolver -/

theorem offerLanding (h : OnlyLanding s t) (c : LandingContext) (d : Nat) (q : Quality) (n : Bool)
    (e : Tick) : OnlyLanding s (t.offerLanding c d q n e) := (h.setContext _).offer _ _

theorem takeInrun (h : OnlyLanding s t) (c : LandingContext) : OnlyLanding s (t.takeInrun c) := by
  unfold State.takeInrun; split
  · exact h.offerLanding _ _ _ _ _
  · exact h

theorem startInrun (h : OnlyLanding s t) (c : LandingContext) (e : Tick) :
    OnlyLanding s (t.startInrun c e) := (h.setContext _).takeInrun _

theorem takeFlight (h : OnlyLanding s t) (c : LandingContext) : OnlyLanding s (t.takeFlight c) := by
  unfold State.takeFlight; split
  · exact h
  · exact h.setContext _

theorem startFlight (h : OnlyLanding s t) (c : LandingContext) (e : Tick) :
    OnlyLanding s (t.startFlight c e) := (h.setContext _).takeFlight _

theorem landingSilent (h : OnlyLanding s t) (n : Nat) : OnlyLanding s (t.landingSilent n) :=
  ⟨h.block, h.same, h.keeps.trans (.of_eq rfl rfl rfl)⟩

theorem resolve (h : OnlyLanding s t) (c : LandingContext) : OnlyLanding s (t.resolve c) := by
  unfold State.resolve; dsimp only; split
  · exact (h.raise _).offerLanding _ _ _ _ _
  · exact (h.raise _).offerLanding _ _ _ _ _

theorem takeResolution (h : OnlyLanding s t) (c : LandingContext) : OnlyLanding s (t.takeResolution c) := by
  unfold State.takeResolution; split
  · exact h.resolve _
  · exact h

theorem enterContact (h : OnlyLanding s t) (c : LandingContext) (r : ContactReport) :
    OnlyLanding s (t.enterContact c r) := (h.setContext _).takeResolution _

theorem contextContact (h : OnlyLanding s t) (c : LandingContext) (r : ContactReport) :
    OnlyLanding s (t.contextContact c r) := by
  unfold State.contextContact
  repeat' split
  all_goals first
    | exact h
    | exact h.enterContact _ _
    | exact h.raise _
    | exact (h.setContext _).raise _

theorem landingContact (h : OnlyLanding s t) (l : LineHdr) (b : Body) (n : Nat) (r : ContactReport) :
    OnlyLanding s (t.landingContact l b n r) := by
  unfold State.landingContact
  repeat' split
  all_goals first
    | exact h
    | exact h.raise _
    | exact h.contextContact _ _

theorem fromSpan (h : OnlyLanding s t) (l : LineHdr) (b : Body) (n : Nat) {act : State → State}
    (k : OnlyLanding s (act t)) : OnlyLanding s (t.fromSpan l b n act) := by
  unfold State.fromSpan; split
  · exact k
  · exact h.raise _

theorem landingInView (h : OnlyLanding s t) (l : LineHdr) (n m : Nat) :
    OnlyLanding s (t.landingInView l n m) := by
  unfold State.landingInView
  repeat' split
  all_goals first
    | exact h
    | exact h.setContext _

theorem landingViewLost (h : OnlyLanding s t) (n m : Nat) : OnlyLanding s (t.landingViewLost n m) := by
  unfold State.landingViewLost
  repeat' split
  all_goals first
    | exact h
    | exact h.setContext _

theorem landingLeave (h : OnlyLanding s t) (l : LineHdr) (b : Body) (n : Nat) :
    OnlyLanding s (t.landingLeave l b n) := by
  unfold State.landingLeave
  repeat' split
  all_goals first
    | exact h
    | exact h.raise _
    | exact h.startInrun _ _

theorem landingTakeoff (h : OnlyLanding s t) (l : LineHdr) (b : Body) (n : Nat) :
    OnlyLanding s (t.landingTakeoff l b n) := by
  unfold State.landingTakeoff
  repeat' split
  all_goals first
    | exact h
    | exact h.raise _

theorem landingFrame (h : OnlyLanding s t) (l : LineHdr) (b : Body) : OnlyLanding s (t.landingFrame l b) := by
  unfold State.landingFrame; split
  · exact h.landingLeave _ _ _
  · exact h.landingTakeoff _ _ _
  · exact h.fromSpan _ _ _ (h.landingInView _ _ _)
  · exact h.fromSpan _ _ _ (h.landingViewLost _ _)
  · exact h.fromSpan _ _ _ (h.landingContact _ _ _ _)
  · split
    · exact h.dropContext _
    · exact h
  · split
    · exact h.reofferKept _
    · exact h
  · exact h

theorem landingOnInrun (h : OnlyLanding s t) (l : LineHdr) (r : AttemptRecord) :
    OnlyLanding s (t.landingOnInrun l r) := by
  unfold State.landingOnInrun; split
  · exact h
  · exact h.startInrun _ _

theorem landingAirborne (h : OnlyLanding s t) (l : LineHdr) (r : AttemptRecord) :
    OnlyLanding s (t.landingAirborne l r) := by
  unfold State.landingAirborne; dsimp only
  repeat' split
  all_goals first
    | exact h
    | exact h.startFlight _ _

theorem landingForced (h : OnlyLanding s t) (n : Nat) : OnlyLanding s (t.landingForced n) := by
  unfold State.landingForced
  repeat' split
  all_goals first
    | exact h
    | exact (h.dropContext _).raise _

theorem landingChange (h : OnlyLanding s t) (l : LineHdr) (c : Change) :
    OnlyLanding s (t.landingChange l c) := by
  unfold State.landingChange
  repeat' split
  all_goals first
    | exact h
    | exact h.dropContext _
    | exact h.landingForced _
    | exact h.landingOnInrun _ _
    | exact h.landingAirborne _ _

end Only

end Sys2Proof.Machine
end

