-- ==== Sys2Proof/Laws/JuryBlocks.lean ====
section
/-! SUPPORT. The scoring unit, the standings unit and the board unit change their own states and their
outboxes alone; the scoring unit also changes the scoring parts of the attempt records. -/

namespace Sys2Proof.Machine

open Sys2Proof

/-! ## The scoring unit -/

/-- A record without its scoring part. -/
def AttemptRecord.bare (r : AttemptRecord) : AttemptRecord := { r with scoring := none }

/-- The scoring unit changes its own state, its outbox and scoring parts. -/
structure OnlyScoring (s t : State) : Prop extends Only restoreScoring s t where
  bare : t.table.map AttemptRecord.bare = s.table.map AttemptRecord.bare

namespace OnlyScoring

variable {s t : State}

theorem refl (s : State) : OnlyScoring s s := ⟨.refl blockScoring s, rfl⟩

theorem trans {u : State} (h : OnlyScoring s t) (k : OnlyScoring t u) : OnlyScoring s u :=
  ⟨h.toOnly.trans k.toOnly, k.bare.trans h.bare⟩

theorem raise (h : OnlyScoring s t) (n : NoticeBody) : OnlyScoring s (t.raise n) :=
  ⟨h.toOnly.raise n, h.bare⟩

theorem offer (h : OnlyScoring s t) (b : Body) (e : Option Tick) : OnlyScoring s (t.offer b e) :=
  ⟨h.toOnly.offer b e, h.bare⟩

theorem answer (h : OnlyScoring s t) (k : Nat) (c : ReplyCode) : OnlyScoring s (t.answer k c) :=
  ⟨h.toOnly.answer k c, h.bare⟩

theorem foldl {α : Type} {f : State → α → State} {s : State}
    (step : ∀ {t : State}, OnlyScoring s t → ∀ a, OnlyScoring s (f t a)) (as : List α) :
    ∀ {t : State}, OnlyScoring s t → OnlyScoring s (as.foldl f t) := by
  induction as with
  | nil => exact id
  | cons a as ih => exact fun h => ih (step h a)

theorem reofferAll (h : OnlyScoring s t) (bs : List Body) : OnlyScoring s (t.reofferAll bs) :=
  OnlyScoring.foldl (fun h _ => h.offer _ _) bs h

theorem modScoring (h : OnlyScoring s t) (f : ScoringState → ScoringState) :
    OnlyScoring s (t.modScoring f) :=
  ⟨⟨h.block, h.same, h.keeps.trans (.of_eq rfl rfl rfl)⟩, h.bare⟩

/-- A change of records that leaves them the same but for their scoring parts. -/
theorem setRecord (h : OnlyScoring s t) (n : Nat) (f : AttemptRecord → AttemptRecord)
    (k : ∀ r, (f r).bare = r.bare) : OnlyScoring s (t.setRecord n f) := by
  refine ⟨⟨h.block, h.same, h.keeps.trans (.of_eq rfl rfl rfl)⟩, ?_⟩
  rw [← h.bare, State.setRecord_table, List.map_map]
  refine List.map_congr_left fun r _ => ?_
  show AttemptRecord.bare (if r.hdr.attempt == n then f r else r) = r.bare
  split
  · exact k r
  · rfl

theorem modPart (h : OnlyScoring s t) (n : Nat) (f : ScoringPart → ScoringPart) :
    OnlyScoring s (t.modPart n f) := h.setRecord n _ fun _ => rfl

theorem sendResult (h : OnlyScoring s t) (r : ResultPayload) : OnlyScoring s (t.sendResult r) :=
  (h.offer _ _).raise _

theorem sendVoid (h : OnlyScoring s t) (v : VoidCopy) : OnlyScoring s (t.sendVoid v) :=
  (h.offer _ _).raise _

theorem offerResult (h : OnlyScoring s t) (n g : Nat) (r : ResultPayload) :
    OnlyScoring s (t.offerResult n g r) := (h.modPart _ _).sendResult _

theorem scoringTest (h : OnlyScoring s t) (n : Nat) : OnlyScoring s (t.scoringTest n) := by
  unfold State.scoringTest
  repeat' split
  all_goals first
    | exact h
    | exact h.offerResult _ _ _

theorem gatherDone (h : OnlyScoring s t) (n m : Nat) (b : Bool) : OnlyScoring s (t.gatherDone n m b) :=
  ((h.modPart _ _).raise _).scoringTest _

theorem gatherTest (h : OnlyScoring s t) (n : Nat) : OnlyScoring s (t.gatherTest n) := by
  unfold State.gatherTest
  repeat' split
  all_goals first
    | exact h
    | exact h.gatherDone _ _ _

theorem gatherAll (h : OnlyScoring s t) : OnlyScoring s t.gatherAll :=
  OnlyScoring.foldl (fun h _ => h.gatherTest _) _ h

theorem scoringMean (h : OnlyScoring s t) (l : LineHdr) (n m : Nat) (x : Option Int) (u : Nat) (p : Bool) :
    OnlyScoring s (t.scoringMean l n m x u p) := by
  unfold State.scoringMean
  repeat' split
  all_goals first
    | exact h.raise _
    | exact (h.modPart _ _).gatherTest _

theorem openGather (h : OnlyScoring s t) (n : Nat) (e : Tick) : OnlyScoring s (t.openGather n e) :=
  h.modPart _ _

theorem scoringLanding (h : OnlyScoring s t) (l : LineHdr) (n : Nat) (m : Option Nat) :
    OnlyScoring s (t.scoringLanding l n m) := by
  unfold State.scoringLanding
  split
  · exact h
  · split
    · exact h
    · extract_lets fresh handed s1 s2
      have k1 : OnlyScoring s s1 := by
        unfold s1; split
        · exact (h.openGather _ _).modPart _ _
        · exact h
      have k2 : OnlyScoring s s2 := by
        unfold s2; split
        · exact k1.modPart _ _
        · exact k1
      split
      · exact (k2.gatherTest _).scoringTest _
      · exact k2

theorem scoringManual (h : OnlyScoring s t) (n d : Nat) : OnlyScoring s (t.scoringManual n d) := by
  unfold State.scoringManual
  dsimp only
  repeat' split
  all_goals first
    | exact h.answer _ _
    | exact ((((((h.answer _ _).raise _).modPart _ _).openGather _ _).gatherTest _).scoringTest _)
    | exact (((((h.answer _ _).raise _).modPart _ _).openGather _ _).scoringTest _)

theorem placeMark (h : OnlyScoring s t) (n seat m : Nat) (b : Bool) :
    OnlyScoring s (t.placeMark n seat m b) :=
  (((h.modPart _ _).modScoring _).raise _).scoringTest _

theorem takeMark (h : OnlyScoring s t) (seat m : Nat) : OnlyScoring s (t.takeMark seat m).1 := by
  unfold State.takeMark
  repeat' split
  all_goals first
    | exact h.raise _
    | exact h.placeMark _ _ _ _

theorem takeForce (h : OnlyScoring s t) (n : Nat) : OnlyScoring s (t.takeForce n) := by
  unfold State.takeForce
  repeat' split
  all_goals first
    | exact h.answer _ _
    | exact ((h.answer _ _).modPart _ _).scoringTest _

theorem publishCorrection (h : OnlyScoring s t) (r : AttemptRecord) (p : ScoringPart) :
    OnlyScoring s (t.publishCorrection r p) := (h.modPart _ _).offerResult _ _ _

theorem takeCorrectDistance (h : OnlyScoring s t) (n d : Nat) :
    OnlyScoring s (t.takeCorrectDistance n d) := by
  unfold State.takeCorrectDistance
  repeat' split
  all_goals first
    | exact h.answer _ _
    | exact (h.answer _ _).publishCorrection _ _

theorem takeCorrectMark (h : OnlyScoring s t) (n seat m : Nat) :
    OnlyScoring s (t.takeCorrectMark n seat m) := by
  unfold State.takeCorrectMark
  repeat' split
  all_goals first
    | exact h.answer _ _
    | exact (h.answer _ _).publishCorrection _ _

theorem scoringOwnResult (h : OnlyScoring s t) (r : ResultPayload) : OnlyScoring s (t.scoringOwnResult r) :=
  h.modPart _ _

theorem scoringReoffer (h : OnlyScoring s t) : OnlyScoring s t.scoringReoffer :=
  OnlyScoring.foldl (fun h _ => h.sendVoid _) _ (OnlyScoring.foldl (fun h _ => h.sendResult _) _ h)

theorem scoringFrame (h : OnlyScoring s t) (l : LineHdr) (b : Body) (m : Option Nat) :
    OnlyScoring s (t.scoringFrame l b m) := by
  unfold State.scoringFrame
  repeat' split
  all_goals first
    | exact h
    | exact h.scoringLanding _ _ _
    | exact h.scoringMean _ _ _ _ _ _
    | exact h.scoringOwnResult _
    | exact h.modScoring _
    | exact h.scoringReoffer

theorem scoringChange (h : OnlyScoring s t) (c : Change) : OnlyScoring s (t.scoringChange c) := by
  unfold State.scoringChange
  repeat' split
  · exact h.modScoring _
  · exact h.setRecord _ _ fun r => by split <;> rfl
  · exact h.setRecord _ _ fun r => rfl
  · exact h

theorem scoringRestart (h : OnlyScoring s t) : OnlyScoring s t.scoringRestart := h.modScoring _

theorem offerVoid (h : OnlyScoring s t) (k : AttemptHdr) (r : VoidReason) :
    OnlyScoring s (t.offerVoid k r) := ((h.modScoring _).sendVoid _).answer _ _

theorem takeVoid (h : OnlyScoring s t) (n r : Nat) : OnlyScoring s (t.takeVoid n r) := by
  unfold State.takeVoid
  repeat' split
  all_goals first
    | exact h.answer _ _
    | exact h.offerVoid _ _

end OnlyScoring

namespace Only

variable {s t : State}

/-! ## The standings unit -/

theorem updateResults (h : OnlyStandings s t) (k : AttemptHdr) (f : RoundStatus → RoundStatus) :
    OnlyStandings s (t.updateResults k f) := by
  unfold State.updateResults
  repeat' split
  all_goals first
    | exact h
    | exact h.modStandings _
    | exact h.raise _

theorem listResult (h : OnlyStandings s t) (r : ResultPayload) : OnlyStandings s (t.listResult r) := by
  unfold State.listResult; split
  · exact h
  · exact h.updateResults _ _

theorem listVoid (h : OnlyStandings s t) (k : AttemptHdr) (r : VoidReason) :
    OnlyStandings s (t.listVoid k r) := by
  unfold State.listVoid; split
  · exact h
  · exact h.updateResults _ _

theorem offerRound (h : OnlyStandings s t) (n : Nat) (m : RoundMsg) (g : Nat) :
    OnlyStandings s (t.offerRound n m g) := (h.modStandings _).offer _ _

theorem openNext (h : OnlyStandings s t) : OnlyStandings s t.openNext :=
  ((h.modStandings _).offerRound _ _ _).raise _

theorem closeNow (h : OnlyStandings s t) : OnlyStandings s t.closeNow := by
  unfold State.closeNow; dsimp only; split
  · exact ((((h.modStandings _).offerRound _ _ _).modStandings _).raise _).openNext
  · exact (((h.modStandings _).offerRound _ _ _).modStandings _).raise _

theorem testClosing (h : OnlyStandings s t) : OnlyStandings s t.testClosing := by
  unfold State.testClosing; split
  · exact h.closeNow
  · exact h

theorem refGateFrom (h : OnlyStandings s t) (k : AttemptHdr) : OnlyStandings s (t.refGateFrom k) := by
  unfold State.refGateFrom
  dsimp only
  repeat' split
  all_goals first
    | exact h
    | exact (h.modStandings _).offerRound _ _ _

theorem standingsRound (h : OnlyStandings s t) (l : LineHdr) (b : Body) (n : Nat) (m : RoundMsg)
    (g : Nat) : OnlyStandings s (t.standingsRound l b n m g) := by
  unfold State.standingsRound
  repeat' split
  all_goals first
    | exact h
    | exact h.modStandings _

theorem takeStartList (h : OnlyStandings s t) (bs : List Nat) : OnlyStandings s (t.takeStartList bs) := by
  unfold State.takeStartList
  dsimp only
  repeat' split
  all_goals first
    | exact h.answer _ _
    | exact (h.modStandings _).answer _ _

theorem repeatHead (h : OnlyStandings s t) (b : Nat) : OnlyStandings s (t.repeatHead b) := by
  unfold State.repeatHead
  dsimp only
  repeat' split
  all_goals first
    | exact h
    | exact h.raise _
    | exact (h.modStandings _).raise _

theorem offerCall (h : OnlyStandings s t) (g b : Nat) (f : Bool) : OnlyStandings s (t.offerCall g b f) :=
  (((h.modStandings _).offer _ _).raise _).answer _ _

theorem takeCall (h : OnlyStandings s t) (g f : Nat) : OnlyStandings s (t.takeCall g f) := by
  unfold State.takeCall
  repeat' split
  all_goals first
    | exact h.answer _ _
    | exact h.offerCall _ _ _

theorem callTaken (h : OnlyStandings s t) (n : Nat) : OnlyStandings s (t.callTaken n) := by
  unfold State.callTaken
  repeat' split
  all_goals first
    | exact h
    | exact (h.modStandings _).raise _

theorem forCalled (h : OnlyStandings s t) (k n : Nat) {act : State → AttemptRecord → State}
    (a : ∀ r, OnlyStandings s (act t r)) : OnlyStandings s (t.forCalled k n act) := by
  unfold State.forCalled
  repeat' split
  all_goals first
    | exact h.answer _ _
    | exact a _

theorem takeNewEvent (h : OnlyStandings s t) (n m r : Nat) : OnlyStandings s (t.takeNewEvent n m r) := by
  unfold State.takeNewEvent
  dsimp only
  repeat' split
  all_goals first
    | exact h.answer _ _
    | exact ((h.modStandings _).offer _ _).answer _ _

theorem standingsEvent (h : OnlyStandings s t) (l : LineHdr) (n : Nat) :
    OnlyStandings s (t.standingsEvent l n) := by
  unfold State.standingsEvent
  dsimp only
  repeat' split
  · exact h
  · exact (h.modStandings _).modStandings _
  · exact h.modStandings _

theorem standingsOwnStatus (h : OnlyStandings s t) : OnlyStandings s t.standingsOwnStatus :=
  (h.reofferAll _).reofferAll _

theorem standingsFrame (h : OnlyStandings s t) (l : LineHdr) (b : Body) :
    OnlyStandings s (t.standingsFrame l b) := by
  unfold State.standingsFrame
  dsimp only
  repeat' split
  all_goals first
    | exact h
    | exact h.standingsEvent _ _
    | exact h.standingsRound _ _ _ _ _
    | exact h.listResult _
    | exact (h.listVoid _ _)
    | exact (h.listVoid _ _).repeatHead _
    | exact ((h.callTaken _).listVoid _ _)
    | exact ((h.callTaken _).listVoid _ _).repeatHead _
    | exact (h.callTaken _).refGateFrom _
    | exact h.callTaken _
    | exact h.standingsOwnStatus

theorem standingsTake (h : OnlyStandings s t) (l : LineHdr) (b : Body) (cs : List Change) :
    OnlyStandings s (t.standingsTake l b cs) := by
  unfold State.standingsTake; dsimp only; split
  · exact h.standingsFrame _ _
  · exact (h.standingsFrame _ _).testClosing

theorem standingsRestart (h : OnlyStandings s t) : OnlyStandings s t.standingsRestart := h.modStandings _

/-! ## The board unit -/

theorem composePage (h : OnlyBoard s t) (p : Page) : OnlyBoard s (t.composePage p) := h.modBoard _

theorem recompose (h : OnlyBoard s t) (f : Page → Bool) : OnlyBoard s (t.recompose f) := by
  unfold State.recompose
  repeat' split
  all_goals first
    | exact h
    | exact h.composePage _

theorem showPage (h : OnlyBoard s t) (e : PageEntry) : OnlyBoard s (t.showPage e) :=
  (h.modBoard _).composePage _

theorem placePage (h : OnlyBoard s t) (e : PageEntry) (put : PageEntry → List PageEntry → List PageEntry) :
    OnlyBoard s (t.placePage e put) := by
  unfold State.placePage State.raiseDropped
  repeat' split
  all_goals first
    | exact h.modBoard _
    | exact h.raise _
    | exact (h.modBoard _).raise _

theorem arrive (h : OnlyBoard s t) (e : PageEntry) : OnlyBoard s (t.arrive e) := by
  unfold State.arrive
  repeat' split
  all_goals first
    | exact h.showPage _
    | exact (h.placePage _ _).showPage _
    | exact h.placePage _ _

theorem rotate (h : OnlyBoard s t) : OnlyBoard s t.rotate := (h.modBoard _).showPage _

theorem nextPage (h : OnlyBoard s t) : OnlyBoard s t.nextPage := by
  unfold State.nextPage; split
  · exact (h.modBoard _).showPage _
  · exact h.rotate

theorem endPage (h : OnlyBoard s t) : OnlyBoard s t.endPage := (h.modBoard _).nextPage

theorem removePages (h : OnlyBoard s t) (f : Page → Bool) : OnlyBoard s (t.removePages f) := by
  unfold State.removePages; dsimp only; split
  · exact (h.modBoard _).endPage
  · exact h.modBoard _

theorem mapPages (h : OnlyBoard s t) (p : Page → Bool) (f : PageEntry → PageEntry) :
    OnlyBoard s (t.mapPages p f) := h.modBoard _

theorem boardPhase (h : OnlyBoard s t) (l : LineHdr) (k : AttemptHdr) (p : Phase) (n : Nat) :
    OnlyBoard s (t.boardPhase l k p n) := by
  unfold State.boardPhase
  dsimp only
  repeat' split
  all_goals first
    | exact h
    | exact h.arrive _
    | exact (h.mapPages _ _).recompose _
    | exact h.showPage _
    | exact h.mapPages _ _

theorem boardLanding (h : OnlyBoard s t) (n : Nat) (cs : List Change) : OnlyBoard s (t.boardLanding n cs) := by
  unfold State.boardLanding
  split
  · exact (h.modBoard _).recompose _
  · exact h.recompose _

theorem boardChange (h : OnlyBoard s t) (b : Bool) (c : Change) : OnlyBoard s (t.boardChange b c) := by
  unfold State.boardChange
  repeat' split
  all_goals first
    | exact h
    | exact h.removePages _

theorem boardStatus (h : OnlyBoard s t) (p : StartPart) : OnlyBoard s (t.boardStatus p) := by
  unfold State.boardStatus
  dsimp only
  repeat' split
  all_goals first
    | exact h.modBoard _
    | exact (h.modBoard _).recompose _
    | exact ((h.modBoard _).arrive _).recompose _
    | exact ((h.modBoard _).removePages _).recompose _

theorem boardResult (h : OnlyBoard s t) (r : ResultPayload) : OnlyBoard s (t.boardResult r) := by
  unfold State.boardResult
  dsimp only
  repeat' split
  all_goals first
    | exact h
    | exact h.modBoard _
    | exact h.arrive _

theorem boardText (h : OnlyBoard s t) (cs : List Byte) : OnlyBoard s (t.boardText cs) := h.arrive _

theorem boardListChange (h : OnlyBoard s t) (u : StandingsState) : OnlyBoard s (t.boardListChange u) := by
  unfold State.boardListChange; split
  · exact h
  · exact h.recompose _

theorem boardFrame (h : OnlyBoard s t) (l : LineHdr) (b : Body) (cs : List Change) :
    OnlyBoard s (t.boardFrame l b cs) := by
  unfold State.boardFrame; split
  · split
    · exact h.boardPhase _ _ _ _
    · exact h
  · exact h.recompose _
  · exact h.boardLanding _ _
  · split
    · exact h.boardResult _
    · exact h
  · split
    · exact h.boardText _
    · exact h
  · exact h.removePages _
  · split
    · rename_i p _
      cases p.start with
      | none => exact h
      | some q => exact h.boardStatus q
    · exact h
  · exact h

theorem boardTake (h : OnlyBoard s t) (u : StandingsState) (l : LineHdr) (b : Body) (cs : List Change) :
    OnlyBoard s (t.boardTake u l b cs) :=
  ((Only.foldl (f := fun s c => s.boardChange (isLanding b) c) (fun h _ => h.boardChange _ _) cs
    h).boardListChange u).boardFrame l b cs

theorem boardEntry (h : OnlyBoard s t) : OnlyBoard s t.boardEntry := (h.modBoard _).rotate

theorem boardRestart (h : OnlyBoard s t) : OnlyBoard s t.boardRestart := (h.modBoard _).rotate

end Only

end Sys2Proof.Machine
end

