-- ==== Sys2Proof/Laws/Delivery.lean ====
section
/-! SUPPORT. What the delivery of a frame, the hand-over of changes of the attempt table and a console command
leave alone. -/

namespace Sys2Proof.Machine

open Sys2Proof

/-! ## All blocks together -/

/-- `t` with the blocks, the attempt table and the outbox of `s`. -/
def restoreBlocks (s t : State) : State :=
  { restoreOut s t with
    table := s.table, start := s.start, edge := s.edge, wind := s.wind, span := s.span
    contexts := s.contexts, scoring := s.scoring, standings := s.standings, board := s.board }

theorem blockBlocks : BlockRestore restoreBlocks := ⟨fun _ => rfl, fun _ _ _ => rfl, fun _ _ _ => rfl⟩

/-- From `s` to `t` nothing changes but the blocks, the scoring parts of the table, and the outbox. -/
structure OnlyBlocks (s t : State) : Prop extends Only restoreBlocks s t where
  bare : t.table.map AttemptRecord.bare = s.table.map AttemptRecord.bare

namespace OnlyBlocks

variable {s t u : State}

theorem refl (s : State) : OnlyBlocks s s := ⟨.refl blockBlocks s, rfl⟩

theorem trans (h : OnlyBlocks s t) (k : OnlyBlocks t u) : OnlyBlocks s u :=
  ⟨h.toOnly.trans k.toOnly, k.bare.trans h.bare⟩

/-- A change of one block and its outbox is a change of the blocks. -/
theorem of_only {R : State → State → State} (h : Only R s t)
    (w : ∀ s u v, restoreBlocks s (R u v) = restoreBlocks s v) (table : t.table = s.table) :
    OnlyBlocks s t :=
  ⟨⟨blockBlocks, by rw [← w s s t, h.same]; rfl, h.keeps⟩, by rw [table]⟩

theorem of_out (h : OnlyOut s t) : OnlyBlocks s t :=
  of_only h (fun _ _ _ => rfl) (congrArg State.table h.same :)

theorem of_start (h : OnlyStart s t) : OnlyBlocks s t :=
  of_only h (fun _ _ _ => rfl) (congrArg State.table h.same :)

theorem of_edge (h : OnlyEdge s t) : OnlyBlocks s t :=
  of_only h (fun _ _ _ => rfl) (congrArg State.table h.same :)

theorem of_wind (h : OnlyWind s t) : OnlyBlocks s t :=
  of_only h (fun _ _ _ => rfl) (congrArg State.table h.same :)

theorem of_span (h : OnlySpan s t) : OnlyBlocks s t :=
  of_only h (fun _ _ _ => rfl) (congrArg State.table h.same :)

theorem of_landing (h : OnlyLanding s t) : OnlyBlocks s t :=
  of_only h (fun _ _ _ => rfl) (congrArg State.table h.same :)

theorem of_standings (h : OnlyStandings s t) : OnlyBlocks s t :=
  of_only h (fun _ _ _ => rfl) (congrArg State.table h.same :)

theorem of_board (h : OnlyBoard s t) : OnlyBlocks s t :=
  of_only h (fun _ _ _ => rfl) (congrArg State.table h.same :)

theorem of_scoring (h : OnlyScoring s t) : OnlyBlocks s t :=
  ⟨⟨blockBlocks, (congrArg (restoreBlocks s) h.same :), h.keeps⟩, h.bare⟩

/-- An action that only the stations of a role take. -/
theorem ifRole (h : OnlyBlocks s t) (role : RoleSet → Bool) {act : State → State}
    (k : ∀ t, OnlyBlocks t (act t)) : OnlyBlocks s (t.ifRole role act) := by
  unfold State.ifRole; split
  · exact h.trans (k t)
  · exact h

end OnlyBlocks

section Blocks

variable (s : State)

theorem State.handChanges_only (l : LineHdr) (byLanding : Bool) (cs : List Change) :
    OnlyBlocks s (s.handChanges l byLanding cs) := by
  unfold State.handChanges
  refine OnlyBlocks.ifRole (OnlyBlocks.ifRole (OnlyBlocks.ifRole (OnlyBlocks.ifRole (OnlyBlocks.ifRole
    (OnlyBlocks.ifRole (OnlyBlocks.ifRole (OnlyBlocks.ifRole (.refl s) _ fun t => ?_) _ fun t => ?_) _
      fun t => ?_) _ fun t => ?_) _ fun t => ?_) _ fun t => ?_) _ fun t => ?_) _ fun t => ?_
  · exact .of_start (Only.refl blockStart t).recountBacklog
  · exact .of_edge (Only.foldl (fun h _ => h.edgeChange _) cs (.refl blockEdge t))
  · exact .of_wind (Only.foldl (fun h _ => h.windChange _) cs (.refl blockWind t))
  · exact .of_span (Only.foldl (fun h _ => h.spanChange _) cs (.refl blockSpan t))
  · exact .of_landing (Only.foldl (f := fun s c => s.landingChange l c) (fun h _ => h.landingChange _ _)
      cs (.refl blockLanding t))
  · exact .of_scoring (OnlyScoring.foldl (fun h _ => h.scoringChange _) cs (.refl t))
  · split
    · exact .refl t
    · exact .of_standings (Only.refl blockStandings t).testClosing
  · exact .of_board ((Only.foldl (f := fun s c => s.boardChange byLanding c) (fun h _ => h.boardChange _ _)
      cs (.refl blockBoard t)).boardListChange _)

theorem State.handFrame_only (l : LineHdr) (b : Body) (cs : List Change) :
    OnlyBlocks s (s.handFrame l b cs) := by
  unfold State.handFrame
  refine OnlyBlocks.ifRole (OnlyBlocks.ifRole (OnlyBlocks.ifRole (OnlyBlocks.ifRole (OnlyBlocks.ifRole
    (OnlyBlocks.ifRole (OnlyBlocks.ifRole (OnlyBlocks.ifRole (.refl s) _ fun t => ?_) _ fun t => ?_) _
      fun t => ?_) _ fun t => ?_) _ fun t => ?_) _ fun t => ?_) _ fun t => ?_) _ fun t => ?_
  · exact .of_start ((Only.refl blockStart t).startTake l b)
  · exact .of_edge ((Only.foldl (fun h _ => h.edgeChange _) cs (.refl blockEdge t)).edgeFrame l b)
  · exact .of_wind ((Only.foldl (fun h _ => h.windChange _) cs (.refl blockWind t)).windFrame l b)
  · exact .of_span ((Only.foldl (fun h _ => h.spanChange _) cs (.refl blockSpan t)).spanFrame l b)
  · exact .of_landing ((Only.foldl (f := fun s c => s.landingChange l c)
      (fun h _ => h.landingChange _ _) cs (.refl blockLanding t)).landingFrame l b)
  · exact .of_scoring ((OnlyScoring.foldl (fun h _ => h.scoringChange _) cs (.refl t)).scoringFrame l b _)
  · exact .of_standings ((Only.refl blockStandings t).standingsTake l b cs)
  · exact .of_board ((Only.refl blockBoard t).boardTake _ l b cs)

theorem State.rosterReaders_only : OnlyBlocks s s.rosterReaders := by
  unfold State.rosterReaders
  refine OnlyBlocks.ifRole (OnlyBlocks.ifRole (.refl s) _ fun t => ?_) _ fun t => ?_
  · exact .of_start (Only.refl blockStart t).evalRosterHolds
  · exact .of_scoring (OnlyScoring.refl t).gatherAll

end Blocks

/-! ## The roster and the attempt table -/

/-- `t` with the roster, the blocks, the attempt table, the event number and the outbox of `s`. -/
def restoreDelivery (s t : State) : State :=
  { restoreBlocks s t with
    roster := s.roster
    line := { t.line with
      urgent := s.line.urgent, routine := s.line.routine, eventNumber := s.line.eventNumber } }

theorem blockDelivery : BlockRestore restoreDelivery :=
  ⟨fun _ => rfl, fun _ _ _ => rfl, fun _ _ _ => rfl⟩

/-- From `s` to `t` nothing changes but what a delivery may change. -/
abbrev OnlyDelivery := Only restoreDelivery

theorem OnlyBlocks.delivery {s t : State} (h : OnlyBlocks s t) : OnlyDelivery s t :=
  ⟨blockDelivery, (congrArg (restoreDelivery s) h.same :), h.keeps⟩

/-- A change of the attempt table alone. -/
theorem OnlyDelivery.withTable {s t : State} (h : OnlyDelivery s t) (v : List AttemptRecord) :
    OnlyDelivery s { t with table := v } := ⟨h.block, h.same, h.keeps.trans (.of_eq rfl rfl rfl)⟩

theorem OnlyDelivery.raiseChanges {s : State} (cs : List Change) :
    ∀ {t : State}, OnlyDelivery s t → OnlyDelivery s (t.raiseChanges cs) :=
  fun h => Only.foldl (f := State.raiseChange) (fun h c => by
    unfold State.raiseChange; split
    · exact h
    · exact h.raise _) cs h

theorem OnlyDelivery.forceOthers {s t : State} (h : OnlyDelivery s t) (n : Nat) (put : Bool) :
    OnlyDelivery s (t.forceOthers n put).1 := by
  unfold State.forceOthers; split
  · exact OnlyDelivery.withTable h _
  · exact h

theorem OnlyDelivery.addRecord {s t : State} (h : OnlyDelivery s t) (r : AttemptRecord) :
    OnlyDelivery s (t.addRecord r).1 :=
  OnlyDelivery.raiseChanges _ (OnlyDelivery.forceOthers (OnlyDelivery.withTable h _) _ _)

theorem OnlyDelivery.takeKnown {s t : State} (h : OnlyDelivery s t) (own : Bool) (l : LineHdr) (b : Body)
    (k : AttemptHdr) (r : AttemptRecord) : OnlyDelivery s (t.takeKnown own l b k r).1 := by
  have k1 : OnlyDelivery s
      (if r.hdr = k then t else t.raise (.attemptMismatch r.hdr b.kind l.sender k.bib k.round)) := by
    split
    · exact h
    · exact h.raise _
  unfold State.takeKnown
  extract_lets s1 r' s2
  have k2 : OnlyDelivery s s2 := OnlyDelivery.withTable k1 _
  split
  · exact k2
  · exact OnlyDelivery.raiseChanges _ (OnlyDelivery.forceOthers k2 _ _)

theorem OnlyDelivery.removeRecord {s t : State} (h : OnlyDelivery s t) (l : LineHdr) (r : AttemptRecord) :
    OnlyDelivery s (t.removeRecord l r) :=
  (OnlyDelivery.withTable h _).trans (State.handChanges_only _ _ _ _).delivery

theorem OnlyDelivery.createRecord {s t : State} (h : OnlyDelivery s t) (l : LineHdr) (b : Body)
    (k : AttemptHdr) : OnlyDelivery s (t.createRecord l b k).1 := by
  unfold State.createRecord; dsimp only; split
  · exact OnlyDelivery.addRecord h _
  · exact OnlyDelivery.addRecord (OnlyDelivery.removeRecord h _ _) _
  · exact OnlyDelivery.addRecord (OnlyDelivery.removeRecord (h.report _ _) _ _) _
  · exact h.raise _

theorem OnlyDelivery.track {s t : State} (h : OnlyDelivery s t) (l : LineHdr) (b : Body) :
    OnlyDelivery s (t.track l b).1 := by
  unfold State.track; split
  · exact OnlyDelivery.withTable h _
  · split
    · exact h
    · split
      · exact OnlyDelivery.takeKnown h _ _ _ _ _
      · split
        · exact OnlyDelivery.createRecord h _ _ _
        · exact h.raise _

theorem OnlyDelivery.withRoster {s t : State} (h : OnlyDelivery s t) (v : List RosterEntry) :
    OnlyDelivery s { t with roster := v } := ⟨h.block, h.same, h.keeps.trans (.of_eq rfl rfl rfl)⟩

theorem OnlyDelivery.rosterTake {s t : State} (h : OnlyDelivery s t) (l : LineHdr) (b : Body) :
    OnlyDelivery s (t.rosterTake l b) := by
  unfold State.rosterTake
  extract_lets e e' heard changed s1 s2 s3
  have k1 : OnlyDelivery s s1 := OnlyDelivery.withRoster h _
  have k2 : OnlyDelivery s s2 := by
    unfold s2; split
    · exact k1.raise _
    · exact k1
  have k3 : OnlyDelivery s s3 := by
    unfold s3; split
    · exact k2.raise _
    · exact k2
  split
  · exact k3.trans s3.rosterReaders_only.delivery
  · exact k3

/-- Fewer waiting frames, with another event number, keep the bounds of the outbox. -/
theorem OutKeeps.purge (s : State) (n : Nat) (keep : QueuedFrame → Bool) :
    OutKeeps s { s with line := { s.line with
      eventNumber := n, urgent := s.line.urgent.filter keep, routine := s.line.routine.filter keep } } := by
  refine ⟨fun h => ?_, fun h m => ?_, id⟩
  · obtain ⟨h1, h2, h3, h4⟩ := h
    refine ⟨(List.length_filter_le _ _).trans h1, (List.length_filter_le _ _).trans h2, ?_, ?_⟩
    · rw [List.filter_comm]; exact (List.length_filter_le _ _).trans h3
    · rw [List.filter_comm]; exact (List.length_filter_le _ _).trans h4
  · obtain ⟨h1, h2⟩ := h m
    simp [h1, h2]

theorem OnlyDelivery.setEvent {s t : State} (h : OnlyDelivery s t) (n : Nat) :
    OnlyDelivery s { t with line := t.line.setEvent n } := by
  unfold LineState.setEvent; split
  · exact h
  · exact ⟨h.block, h.same, h.keeps.trans (.purge t n _)⟩

theorem OnlyDelivery.lineTake {s t : State} (h : OnlyDelivery s t) (l : LineHdr) (b : Body) :
    OnlyDelivery s (t.lineTake l b) := by
  unfold State.lineTake; split
  · exact ⟨h.block, h.same, h.keeps.trans (.purge t _ _)⟩
  · split
    · exact OnlyDelivery.setEvent h _
    · exact h
  · exact h

/-- A delivered frame changes the roster, the attempt table, the blocks, the event number and the outbox,
and nothing else. -/
theorem State.deliver_only (s : State) (l : LineHdr) (b : Body) : OnlyDelivery s (s.deliver l b) := by
  have k : OnlyDelivery s (s.rosterTake l b) := OnlyDelivery.rosterTake (.refl blockDelivery s) l b
  unfold State.deliver; dsimp only; split
  · split
    · exact (OnlyDelivery.track (OnlyDelivery.lineTake k l b) l b).trans
        (State.handFrame_only _ _ _ _).delivery
    · exact k
  · exact k

/-! ## Console commands -/

/-- A taken console command, case by case (R184, R185). -/
theorem State.command_cases (s : State) (kind : Nat) (ok : Bool) (role : RoleSet → Bool)
    (act : State → State) :
    (s.resetAsserted = true ∧ s.command kind ok role act = s) ∨
    (s.resetAsserted = false ∧ s.console.skipping = true ∧
      s.command kind ok role act = { s with console := { s.console with rxQuietUs := 0 } }) ∨
    (s.resetAsserted = false ∧ s.console.skipping = false ∧
      ((8 ≤ s.console.replies.length ∧ s.command kind ok role act =
          { s.clearAssembler with console := { s.clearAssembler.console with commandLost := true } }) ∨
        (s.console.replies.length < 8 ∧
          ((∃ c, s.command kind ok role act = s.clearAssembler.answer kind c) ∨
            (ok = true ∧ role s.loader.roles = true ∧
              s.command kind ok role act = act s.clearAssembler))))) := by
  unfold State.command replyLimit
  by_cases h : s.resetAsserted = true
  · exact .inl ⟨h, by rw [if_pos h]⟩
  by_cases h' : s.console.skipping = true
  · exact .inr (.inl ⟨by simpa using h, h', by rw [if_neg h, if_pos h']⟩)
  · refine .inr (.inr ⟨by simpa using h, by simpa using h', ?_⟩)
    rw [if_neg h, if_neg h']
    by_cases r : 8 ≤ s.clearAssembler.console.replies.length
    · exact .inl ⟨r, by rw [if_pos r]⟩
    · have r' : s.console.replies.length < 8 := Nat.lt_of_not_le r
      refine .inr ⟨r', ?_⟩
      rw [if_neg r]
      by_cases a : (s.clearAssembler.loader.state == .loading && kind != 1) = true
      · exact .inl ⟨.state, by rw [if_pos a]⟩
      · rw [if_neg a]
        by_cases b : (!ok) = true
        · exact .inl ⟨.range, by rw [if_pos b]⟩
        · rw [if_neg b]
          by_cases c : (!role s.clearAssembler.loader.roles) = true
          · exact .inl ⟨.role, by rw [if_pos c]⟩
          · rw [if_neg c]
            exact .inr ⟨by simpa using b, by simpa using c, rfl⟩

end Sys2Proof.Machine
end

