-- ==== Sys2Proof/Laws/Console.lean ====
section
/-! SUPPORT. What taking a console record comes to in the station states that the statements name, and what a
frame command comes to: the lemmas that a proof about a command cites in place of unfolding it. -/

namespace Sys2Proof.Machine

open Sys2Proof

/-! ## A console record that is taken (R184, R185, R154) -/

/-- A record of a command whose role the station holds goes to the command's own rule. -/
theorem State.TakesRecord.command {s : State} (h : s.TakesRecord) (kind : Nat) (role : RoleSet → Bool)
    (act : State → State) (r : role s.loader.roles = true) :
    s.command kind true role act = act s.clearAssembler := by
  obtain ⟨h1, h2, h3, h4⟩ := h
  have n : ¬8 ≤ s.console.replies.length := by omega
  simp [State.command, h1, h2, h3, r, State.clearAssembler, replyLimit, n]

/-- A command that is answered with a code alone. -/
theorem State.TakesRecord.answer {s : State} (h : s.TakesRecord) (kind : Nat) (c : ReplyCode) :
    s.clearAssembler.answer kind c = s.afterAnswer kind c := by
  obtain ⟨h1, h2, h3, h4⟩ := h
  have n : ¬8 ≤ s.console.replies.length := by omega
  simp [State.answer, State.reply, ConsoleState.reply, State.clearAssembler, State.afterAnswer,
    State.afterReply, replyLimit, n]

/-- A jury command in an event goes to its own rule past the EVENT test. -/
theorem State.JuryTakes.command {s : State} (h : s.JuryTakes) (kind : Nat) (act : State → State) :
    s.command kind true (·.jury) (fun s => s.eventTest kind act) = act s.clearAssembler := by
  rw [h.toTakesRecord.command _ _ _ h.jury]
  have e := h.event
  simp [State.eventTest, State.clearAssembler, e]

/-- An offer leaves the receive assembler of the console alone. -/
theorem State.offer_clearAssembler (s : State) (b : Body) (e : Option Tick) :
    s.clearAssembler.offer b e = (s.offer b e).clearAssembler := by
  have f : s.clearAssembler.offerFate b = s.offerFate b := rfl
  unfold State.offer
  rw [f]
  split
  · have r : ∀ n, (s.clearAssembler.console.raise s.loader.state s.clock n) =
        { s.console.raise s.loader.state s.clock n with gathered := [], skipping := false, rxQuietUs := 0 } := by
      intro n
      unfold ConsoleState.raise State.clearAssembler
      dsimp only
      repeat' split
      all_goals rfl
    have x := r (.faultReported .txOverflow b.kind)
    simp only [State.clearAssembler] at x ⊢
    rw [x]
  · rfl

/-- A record is taken after an offer as before it. -/
theorem State.TakesRecord.offer {s : State} (h : s.TakesRecord) (b : Body) (e : Option Tick) :
    (s.offer b e).TakesRecord := by
  obtain ⟨h1, h2, h3, h4⟩ := h
  rcases s.offer_cases b e with ⟨-, x⟩ | ⟨-, -, -, x⟩ | ⟨-, -, x⟩ | ⟨-, -, -, x⟩ <;> rw [x] <;>
    constructor <;> simp_all [State.report]

/-- A command that offers a frame and is answered with a code. -/
theorem State.TakesRecord.offer_answer {s : State} (h : s.TakesRecord) (b : Body) (e : Option Tick)
    (kind : Nat) (c : ReplyCode) :
    (s.clearAssembler.offer b e).answer kind c = (s.offer b e).afterAnswer kind c := by
  rw [State.offer_clearAssembler, (h.offer b e).answer]

/-! ## A frame command (R3 to R5, R28) -/

/-- Every frame command hands its frame to the line interface. -/
theorem exec_frameCommand (h : RxHdr) (b : Body) (s : State) :
    exec (frameCommand h b) s = .next (s.receive h b) := by cases b <;> rfl

/-- A frame of another station that is heard is delivered. -/
theorem State.Hears.receive {s : State} {l : LineHdr} {b : Body} (h : s.Hears l b) :
    s.receive l.rx b = ({ s with line := { s.line.heard b with yieldMark := false } }).deliver l b := by
  obtain ⟨h1, h2, h3, h4, h5, h6, h7, h8⟩ := h
  have e : l.rx.stamped (s.startStamp b) = l := by rw [← h8]; rfl
  simp [State.receive, h1, h2, h3, h4, e, h5, h6, State.hearOther]
  simp [State.isOwn, h7]

/-- The frame in transmission, read back whole, is delivered as the station's own (R13). -/
theorem State.receive_echo {s : State} {l : LineHdr} {b : Body} (h1 : s.resetAsserted = false)
    (h2 : s.loader.state ≠ .loading) (h3 : s.line.tx = some ⟨l, b⟩) (h4 : l.inRange = true)
    (h5 : b.inRange = true) : s.receive l.rx b =
      ({ s with line := { s.line.endTx b with busyUs := some b.lineUs } }).deliver l b := by
  simp [State.receive, State.echo, h1, h2, h3, h4, h5]

/-- The command of a frame that is delivered answers the state after its delivery, from a state that differs in the
line alone. -/
theorem State.Delivers.exec {s : State} {l : LineHdr} {b : Body} (h : s.Delivers l b) :
    ∃ line, Sys2Proof.Machine.exec (frameCommand l.rx b) s = .next (({ s with line := line }).deliver l b) := by
  rw [exec_frameCommand]
  rcases h with h | h
  · exact ⟨_, by rw [h.toHears.receive]⟩
  · have hl : s.loader.state ≠ .loading := by rcases h.active with e | e <;> simp [e]
    exact ⟨_, by rw [State.receive_echo h.released hl h.sending h.line h.body]⟩

/-- To a part that still waits, the resolver hands with a LANDING the manual distance that the statements name (R128). -/
theorem State.handedManual_eq_manualGiven (s : State) (l : LineHdr) {p : ScoringPart} (hw : p.stage = .waiting)
    (h : AttemptHdr) (d : Nat) (q : Quality) (nt lc : Bool) :
    s.handedManual l (.landing h d q nt lc) = s.manualGiven l h.attempt p := by
  simp only [State.handedManual, State.manualGiven, State.contextSent, State.isOwn]
  obtain ⟨x, hc⟩ : ∃ x, s.context? h.attempt = x := ⟨_, rfl⟩
  cases x with
  | none => simp [hc]
  | some c =>
    by_cases ho : l.sender = s.loader.station <;> by_cases hp : c.phase = .sent <;> simp [hc, ho, hp, hw]

/-- The roster after it has taken a frame. -/
theorem State.rosterTake_roster (s : State) (l : LineHdr) (b : Body) :
    (s.rosterTake l b).roster = s.roster.set l.sender ((s.rosterAt l.sender).hear l b) := by
  unfold State.rosterTake
  extract_lets e e' heard changed s1 s2 s3
  have h2 : s2.roster = s1.roster := by unfold s2; split <;> rfl
  have h3 : s3.roster = s2.roster := by unfold s3; split <;> rfl
  have h4 : s3.rosterReaders.roster = s3.roster :=
    (congrArg State.roster s3.rosterReaders_only.same :)
  split <;> simp [h4, h3, h2, s1, e', e]

end Sys2Proof.Machine
end

