-- ==== Sys2Proof/Laws/Holds.lean ====
section
/-! SUPPORT. The hold list, said once for each shared operation of the sequencer: what raising, releasing and evaluating a
cause, counting the backlog and ending a cycle leave in it, and in the rest of the sequencer's state (R55, R59, R68,
R72). -/

namespace Sys2Proof.Machine

open Sys2Proof

variable (s : State)

/-! ## Phases: the sequencer's state after each entry (R60, R62, R64) -/

/-- The fields of the sequencer that no change of the hold list touches: all but the phase, its timers, the kept PHASE and
the list. -/
def StartState.besidesHolds (st : StartState) : StartState :=
  { st with phase := .idle, readyAt := none, windowAt := none, graceAt := none, keptPhase := none, holds := [] }

@[simp] theorem State.offerPhase_holds : s.offerPhase.start.holds = s.start.holds := by
  unfold State.offerPhase; split <;> simp

@[simp] theorem State.offerPhase_phase : s.offerPhase.start.phase = s.start.phase := by
  unfold State.offerPhase; split <;> simp

@[simp] theorem State.offerPhase_besides : s.offerPhase.start.besidesHolds = s.start.besidesHolds := by
  unfold State.offerPhase; split <;> simp [StartState.besidesHolds]

@[simp] theorem State.enterRed_holds : s.enterRed.start.holds = s.start.holds := by simp [State.enterRed]

@[simp] theorem State.enterRed_phase : s.enterRed.start.phase = .red := by simp [State.enterRed]

@[simp] theorem State.enterRed_besides : s.enterRed.start.besidesHolds = s.start.besidesHolds := by
  simp [State.enterRed]; rfl

@[simp] theorem State.enterAmber_holds : s.enterAmber.start.holds = s.start.holds := by simp [State.enterAmber]

@[simp] theorem State.enterAmber_phase : s.enterAmber.start.phase = .amber := by simp [State.enterAmber]

@[simp] theorem State.enterAmber_besides : s.enterAmber.start.besidesHolds = s.start.besidesHolds := by
  simp [State.enterAmber]; rfl

@[simp] theorem State.closeStart_holds : s.closeStart.start.holds = s.start.holds := by
  unfold State.closeStart; split <;> simp

/-- A raise leaves no open start (R64). -/
theorem State.closeStart_phase : s.closeStart.start.phase =
    if s.start.phase = .amber ∨ s.start.phase = .green then .red else s.start.phase := by
  unfold State.closeStart; split <;> simp_all

@[simp] theorem State.closeStart_besides : s.closeStart.start.besidesHolds = s.start.besidesHolds := by
  unfold State.closeStart; split
  · simp
  · simp; rfl
  · rfl

@[simp] theorem State.openStart_holds : s.openStart.start.holds = s.start.holds := by
  unfold State.openStart; split <;> simp

/-- An empty list brings AMBER in RED with the GO mark set, and nothing otherwise (R62). -/
theorem State.openStart_phase : s.openStart.start.phase =
    if s.start.holds = [] ∧ s.start.phase = .red ∧ s.start.goMark = true then .amber else s.start.phase := by
  unfold State.openStart
  by_cases h : s.start.holds = [] <;> by_cases p : s.start.phase = .red <;>
    by_cases g : s.start.goMark = true <;> simp [h, p, g]

@[simp] theorem State.openStart_besides : s.openStart.start.besidesHolds = s.start.besidesHolds := by
  unfold State.openStart; split <;> simp

/-! ## The hold list after each operation (R59) -/

/-- A cause stands where the list has an entry of it. -/
theorem StartState.standing_iff (st : StartState) (c : HoldCause) :
    st.standing c = true ↔ ∃ x ∈ st.holds, x.cause = c := by simp [StartState.standing]

/-- A cause that does not stand is in no entry. -/
theorem StartState.not_standing_iff (st : StartState) (c : HoldCause) :
    st.standing c = false ↔ ∀ x ∈ st.holds, x.cause ≠ c := by simp [StartState.standing]

/-- Raising a cause (R59): one that stands takes source and detail in its place, and any other joins the list. -/
theorem State.raiseHold_holds (c : HoldCause) (source detail : Nat) : (s.raiseHold c source detail).start.holds =
    if s.start.standing c = true then replaceHold c source detail s.start.holds
    else appendHold ⟨c, s.clock, source, detail⟩ s.start.holds := by
  unfold State.raiseHold; split <;> simp

/-- A raise touches nothing of the sequencer besides the list and what the close of the start changes. -/
@[simp] theorem State.raiseHold_besides (c : HoldCause) (source detail : Nat) :
    (s.raiseHold c source detail).start.besidesHolds = s.start.besidesHolds := by
  unfold State.raiseHold; split <;> (simp; rfl)

/-- Removing a cause takes its entry out of the list. -/
theorem State.removeHold_holds (c : HoldCause) :
    (s.removeHold c).start.holds = s.start.holds.filter (fun x => x.cause ≠ c) := by
  unfold State.removeHold StartState.hold?
  split
  · rename_i h
    refine (List.filter_eq_self.2 fun x m => ?_).symm
    simpa using List.find?_eq_none.1 h x m
  · exact List.filter_congr fun x _ => by cases h : decide (x.cause = c) <;> simp_all

@[simp] theorem State.removeHold_besides (c : HoldCause) :
    (s.removeHold c).start.besidesHolds = s.start.besidesHolds := by
  unfold State.removeHold; split
  · rfl
  · simp; rfl

/-- Releasing a cause takes its entry out of the list, where it stands (R59). -/
theorem State.releaseHold_holds (c : HoldCause) :
    (s.releaseHold c).start.holds = s.start.holds.filter (fun x => x.cause ≠ c) := by
  unfold State.releaseHold; split
  · simp [s.removeHold_holds c]
  · rename_i h
    refine (List.filter_eq_self.2 fun x m => ?_).symm
    have k := (s.start.not_standing_iff c).1 (by simpa using h)
    simpa using k x m

@[simp] theorem State.releaseHold_besides (c : HoldCause) :
    (s.releaseHold c).start.besidesHolds = s.start.besidesHolds := by
  unfold State.releaseHold; split <;> simp

/-- A released cause stands no more. -/
theorem State.releaseHold_standing (c : HoldCause) : (s.releaseHold c).start.standing c = false := by
  rw [StartState.not_standing_iff, State.releaseHold_holds]
  simp

/-- A raised cause stands. -/
theorem State.raiseHold_standing (c : HoldCause) (source detail : Nat) :
    (s.raiseHold c source detail).start.standing c = true := by
  rw [StartState.standing_iff, State.raiseHold_holds]
  split
  · rename_i h
    obtain ⟨x, m, e⟩ := (s.start.standing_iff c).1 h
    exact ⟨{ x with source := source, detail := detail }, List.mem_map.2 ⟨x, m, by simp [e]⟩, e⟩
  · exact ⟨_, (appendHold_perm _ _).mem_iff.2 (List.mem_cons_self ..), rfl⟩

/-! ## The entries of one cause, while another is raised or released -/

theorem appendHold_filter (h : Hold) (hs : List Hold) (d : HoldCause) (ne : h.cause ≠ d) :
    (appendHold h hs).filter (fun x => x.cause = d) = hs.filter (fun x => x.cause = d) := by
  induction hs with
  | nil => simp [appendHold, ne]
  | cons x xs ih =>
    unfold appendHold; split
    · simp [ne]
    · simp only [List.filter_cons, ih]

theorem replaceHold_filter (c d : HoldCause) (a b : Nat) (hs : List Hold) (ne : c ≠ d) :
    (replaceHold c a b hs).filter (fun x => x.cause = d) = hs.filter (fun x => x.cause = d) := by
  induction hs with
  | nil => rfl
  | cons x xs ih =>
    rw [replaceHold, List.map_cons, List.filter_cons, List.filter_cons, ← replaceHold, ih]
    by_cases e : x.cause = c <;> simp [e, ne]

/-- Raising one cause leaves the entries of another. -/
theorem State.raiseHold_other {c d : HoldCause} (ne : c ≠ d) (source detail : Nat) :
    (s.raiseHold c source detail).start.holds.filter (fun x => x.cause = d) =
      s.start.holds.filter (fun x => x.cause = d) := by
  rw [State.raiseHold_holds]; split
  · exact replaceHold_filter _ _ _ _ _ ne
  · exact appendHold_filter _ _ _ ne

/-- Releasing one cause leaves the entries of another. -/
theorem State.releaseHold_other {c d : HoldCause} (ne : c ≠ d) :
    (s.releaseHold c).start.holds.filter (fun x => x.cause = d) = s.start.holds.filter (fun x => x.cause = d) := by
  rw [State.releaseHold_holds, List.filter_filter]
  refine List.filter_congr fun x _ => ?_
  by_cases e : x.cause = d
  · simp [e, ne.symm]
  · simp [e]

/-- Evaluating one cause leaves the entries of another. -/
theorem State.holdWhile_other {c d : HoldCause} (ne : c ≠ d) (why : Option (Nat × Nat)) :
    (s.holdWhile c why).start.holds.filter (fun x => x.cause = d) = s.start.holds.filter (fun x => x.cause = d) := by
  unfold State.holdWhile; split
  · exact s.raiseHold_other ne _ _
  · exact s.releaseHold_other ne

@[simp] theorem State.holdWhile_besides (c : HoldCause) (why : Option (Nat × Nat)) :
    (s.holdWhile c why).start.besidesHolds = s.start.besidesHolds := by
  unfold State.holdWhile; split <;> simp

/-! ## The backlog count and BACKLOG (R55, R72) -/

/-- The list that an evaluation of BACKLOG leaves. -/
theorem State.evalBacklog_holds : s.evalBacklog.start.holds =
    if s.loader.consts.cycle.backlogLimit = 0 ∨ s.start.backlog < s.loader.consts.cycle.backlogLimit then
      s.start.holds.filter (fun x => x.cause ≠ .backlog)
    else if s.start.standing .backlog = true then
      replaceHold .backlog s.loader.station s.start.backlog s.start.holds
    else appendHold ⟨.backlog, s.clock, s.loader.station, s.start.backlog⟩ s.start.holds := by
  unfold State.evalBacklog State.holdWhile State.backlogCause
  by_cases h : s.loader.consts.cycle.backlogLimit = 0 ∨ s.start.backlog < s.loader.consts.cycle.backlogLimit
  · have n : ¬(0 < s.loader.consts.cycle.backlogLimit ∧
        s.loader.consts.cycle.backlogLimit ≤ s.start.backlog) := by omega
    simp [h, n, State.releaseHold_holds]
  · have y : 0 < s.loader.consts.cycle.backlogLimit ∧
        s.loader.consts.cycle.backlogLimit ≤ s.start.backlog := by omega
    simp [h, y, State.raiseHold_holds]

/-- After a count the sequencer holds the number of records that R55 counts. -/
theorem State.recountBacklog_backlog (r : s.loader.roles.start = true) :
    s.recountBacklog.start.backlog = s.countBacklog := by
  unfold State.recountBacklog
  by_cases h : s.countBacklog = s.start.backlog
  · simp [r, h]
  · have e := congrArg StartState.backlog (State.holdWhile_besides
      (s.modStart (fun st => { st with backlog := s.countBacklog })) .backlog
      (s.modStart (fun st => { st with backlog := s.countBacklog })).backlogCause)
    simpa [r, h, StartState.besidesHolds, State.evalBacklog] using e

/-- After a count the hold list is the one that R72 gives for it. -/
theorem State.recountBacklog_holds (r : s.loader.roles.start = true) :
    s.recountBacklog.start.holds = s.holdsAtBacklog s.countBacklog := by
  unfold State.recountBacklog State.holdsAtBacklog
  by_cases h : s.countBacklog = s.start.backlog
  · simp [r, h]
  · rw [if_neg h, if_pos (by simp [r, h]), State.evalBacklog_holds]
    simp [StartState.standing]

/-- A count touches nothing else of the sequencer, but through the phase rules. -/
theorem State.recountBacklog_besides : s.recountBacklog.start.besidesHolds =
    { s.start.besidesHolds with backlog := s.recountBacklog.start.backlog } := by
  unfold State.recountBacklog
  split
  · rename_i h
    have e := State.holdWhile_besides (s.modStart (fun st => { st with backlog := s.countBacklog })) .backlog
      (s.modStart (fun st => { st with backlog := s.countBacklog })).backlogCause
    have b := congrArg StartState.backlog e
    simp only [StartState.besidesHolds, State.modStart_start] at e b ⊢
    rw [State.evalBacklog, e, b]
  · rfl

/-! ## The end of a cycle (R68) -/

/-- The end of a cycle leaves IDLE, without a current attempt, timer, request or kept frame but an own VOID, and takes
COACH out of the list. -/
theorem State.endCycle_start : s.endCycle.start =
    { s.start.atIdle with holds := s.start.holds.filter (fun x => x.cause ≠ .coach) } := by
  have k : ∀ u : State, u.start.phase = .idle →
      (u.releaseHold .coach).start = { u.start with holds := u.start.holds.filter (fun x => x.cause ≠ .coach) } := by
    intro u p
    have hs := u.releaseHold_holds .coach
    have hr := u.removeHold_holds .coach
    unfold State.releaseHold at hs ⊢
    split
    · have np : (u.removeHold .coach).start.phase = .idle := by unfold State.removeHold; split <;> simp [p]
      have o : (u.removeHold .coach).openStart = u.removeHold .coach := by simp [State.openStart, np]
      rw [o]
      unfold State.removeHold at hr ⊢
      split
      · rename_i e; rw [e] at hr; rw [← hr]
      · rename_i e; rw [e] at hr; simpa using hr
    · rename_i n; rw [if_neg n] at hs; rw [← hs]
  exact k _ rfl

end Sys2Proof.Machine
end

