-- ==== Sys2Proof/Laws/Image.lean ====
section
/-! SUPPORT. What a read of the constants image takes from the EEPROM: no more bytes than decide the load (R21). -/

namespace Sys2Proof.Machine

open Sys2Proof

/-- Bytes that follow those that decide a packet sequence only stand among what is left over. -/
theorem readPackets_append (more : List Byte) : ∀ (fuel room : Nat) (bs : List Byte),
    readPackets fuel room bs ≠ .short →
    readPackets fuel room (bs ++ more) =
      (match readPackets fuel room bs with
        | .good ps rest => .good ps (rest ++ more)
        | sh => sh) := by
  intro fuel
  induction fuel with
  | zero => intro room bs h; rfl
  | succ fuel ih =>
    intro room bs h
    by_cases p : room < 2
    · simp [readPackets, p]
    match bs with
    | [] | [_] => exact absurd (by simp [readPackets, p]) h
    | id :: len :: rest =>
      simp only [readPackets, List.cons_append] at h ⊢
      rw [if_neg p] at h ⊢
      rw [if_neg p]
      by_cases q : id = 0xFF
      · rw [if_pos q, if_pos q]; split <;> rfl
      rw [if_neg q] at h ⊢
      rw [if_neg q]
      by_cases r : 2 + len.toNat ≤ room
      · rw [if_pos r] at h ⊢
        rw [if_pos r]
        have t : ¬rest.length < len.toNat := fun t => h (if_pos t)
        have t' : ¬(rest ++ more).length < len.toNat := by rw [List.length_append]; omega
        rw [if_neg t] at h ⊢
        rw [if_neg t', List.drop_append_of_le_length (by omega), List.take_append_of_le_length (by omega)]
        have h' : readPackets fuel (room - 2 - len.toNat) (rest.drop len.toNat) ≠ .short :=
          fun x => h (by rw [x]; rfl)
        rw [ih _ _ h']
        cases readPackets fuel (room - 2 - len.toNat) (rest.drop len.toNat) <;> rfl
      · rw [if_neg r, if_neg r]

/-- A sequence that passes checks 3 and 4 fills the room up to the stored digest. -/
theorem readPackets_good : ∀ (fuel room : Nat) (bs : List Byte) (ps : List Packet) (rest : List Byte),
    readPackets fuel room bs = .good ps rest → bs.length = room + rest.length := by
  intro fuel
  induction fuel with
  | zero => intro room bs ps rest h; cases h
  | succ fuel ih =>
    intro room bs ps rest' h
    by_cases p : room < 2
    · simp [readPackets, p] at h
    match bs with
    | [] | [_] => exact absurd h (by simp [readPackets, p])
    | id :: len :: rest =>
      simp only [readPackets] at h
      rw [if_neg p] at h
      by_cases q : id = 0xFF
      · rw [if_pos q] at h
        split at h
        · rename_i hl
          cases h
          simp only [Bool.and_eq_true, beq_iff_eq] at hl
          simp only [List.length_cons]; omega
        · cases h
      rw [if_neg q] at h
      by_cases r : 2 + len.toNat ≤ room
      · rw [if_pos r] at h
        by_cases t : rest.length < len.toNat
        · rw [if_pos t] at h; cases h
        rw [if_neg t] at h
        cases e : readPackets fuel (room - 2 - len.toNat) (rest.drop len.toNat) with
        | short => rw [e] at h; cases h
        | bad => rw [e] at h; cases h
        | good ps' rest'' =>
          rw [e] at h
          cases h
          have := ih _ _ _ _ e
          simp only [List.length_drop] at this
          simp only [List.length_cons]; omega
      · rw [if_neg r] at h; cases h

/-- Bytes that follow those that decide a load change nothing of it. -/
theorem loadImage_append (own : Nat) (bs more : List Byte) (h : loadImage own bs ≠ .failedRead) :
    loadImage own (bs ++ more) = loadImage own bs := by
  match bs with
  | [] | [_] => exact absurd rfl h
  | m0 :: m1 :: rest =>
    by_cases p : m0 ≠ 0x48 ∨ m1 ≠ 0x4C
    · simp only [loadImage, List.cons_append]; rw [if_pos p, if_pos p]
    match rest with
    | [] | [_] => exact absurd (by simp only [loadImage]; rw [if_neg p]) h
    | l0 :: l1 :: body =>
      simp only [loadImage, List.cons_append] at h ⊢
      rw [if_neg p] at h ⊢
      rw [if_neg p]
      by_cases q : u16 l0 l1 < 8 ∨ 1024 < u16 l0 l1
      · rw [if_pos q, if_pos q]
      rw [if_neg q] at h ⊢
      rw [if_neg q]
      have h' : readPackets 512 (u16 l0 l1 - 6) body ≠ .short := fun x => h (by rw [x])
      rw [readPackets_append more _ _ _ h']
      cases e : readPackets 512 (u16 l0 l1 - 6) body with
      | short => exact absurd e h'
      | bad => rfl
      | good ps rest =>
        rw [e] at h
        match rest with
        | [] | [_] => exact absurd rfl h
        | d0 :: d1 :: tail =>
          have hl := readPackets_good _ _ _ _ _ e
          have ht : (m0 :: m1 :: l0 :: l1 :: (body ++ more)).take (u16 l0 l1 - 2) =
              (m0 :: m1 :: l0 :: l1 :: body).take (u16 l0 l1 - 2) := by
            have := List.take_append_of_le_length (l₁ := m0 :: m1 :: l0 :: l1 :: body) (l₂ := more)
              (i := u16 l0 l1 - 2) (by simp only [List.length_cons] at hl ⊢; omega)
            simpa using this
          simp only [List.cons_append, ht]

/-- What the loader reads: as many bytes as decide the load, and no more (R21). -/
theorem loadImage_bytesTaken (own : Nat) (bytes : List Byte) :
    bytesTaken own bytes ≤ bytes.length ∧
    loadImage own (bytes.take (bytesTaken own bytes)) = loadImage own bytes ∧
    ∀ m < bytesTaken own bytes, loadImage own (bytes.take m) = .failedRead := by
  unfold bytesTaken
  cases e : (List.range bytes.length).find? (fun k => loadImage own (bytes.take k) != .failedRead) with
  | none =>
    simp only [Option.getD_none, List.take_length, Nat.le_refl, true_and]
    intro m hm
    simpa using List.find?_eq_none.mp e m (List.mem_range.mpr hm)
  | some n =>
    have hn := List.find?_some e
    have hr := List.mem_range.mp (List.mem_of_find?_eq_some e)
    simp only [Option.getD_some]
    refine ⟨by omega, ?_, ?_⟩
    · have := loadImage_append own (bytes.take n) (bytes.drop n) (by simpa using hn)
      rw [List.take_append_drop] at this
      exact this.symm
    · intro m hm
      have := (List.find?_range_eq_some.mp e).2.2 m hm
      simpa using this

/-- A read that fails has taken every byte that the EEPROM gave. -/
theorem bytesTaken_of_failedRead {own : Nat} {bytes : List Byte} (h : loadImage own bytes = .failedRead) :
    bytesTaken own bytes = bytes.length := by
  obtain ⟨hn, _, _⟩ := loadImage_bytesTaken own bytes
  refine Nat.le_antisymm hn (Nat.le_of_not_lt fun hlt => ?_)
  unfold bytesTaken at hlt
  cases e : (List.range bytes.length).find? (fun k => loadImage own (bytes.take k) != .failedRead) with
  | none => rw [e] at hlt; exact Nat.lt_irrefl _ hlt
  | some n =>
    have hd : loadImage own (bytes.take n) ≠ .failedRead := by simpa using List.find?_some e
    have := loadImage_append own (bytes.take n) (bytes.drop n) hd
    rw [List.take_append_drop, h] at this
    exact hd this.symm

end Sys2Proof.Machine
end

