-- ==== Sys2Proof/Laws/Panel.lean ====
section
/-! SUPPORT. The panel scanner: what a row period leaves at the panel scan outputs, and what of the board unit it leaves
alone (R181, R182). -/

namespace Sys2Proof.Machine

open Sys2Proof

/-! ## One thing done at the outputs -/

@[simp] theorem PanelOutputs.drive_blank_on (o : PanelOutputs) :
    o.drive (.blank true) = { o with blank := true, columnData := [] } := rfl

@[simp] theorem PanelOutputs.drive_blank_off (o : PanelOutputs) :
    o.drive (.blank false) = { o with blank := false } := rfl

@[simp] theorem PanelOutputs.drive_column (o : PanelOutputs) (dot : Bool) :
    o.drive (.column dot) = { o with columnData := o.columnData ++ [dot] } := rfl

@[simp] theorem PanelOutputs.drive_latch (o : PanelOutputs) (asserted : Bool) :
    o.drive (.latch asserted) = { o with latch := asserted } := rfl

@[simp] theorem PanelOutputs.drive_rowSelect (o : PanelOutputs) (row : Nat) :
    o.drive (.rowSelect row) = { o with rowSelect := row } := rfl

/-- The dots of a row go out one after the other, and change nothing but column data. -/
theorem PanelOutputs.drive_columns (dots : List Bool) : ∀ o : PanelOutputs,
    (dots.map ScanItem.column).foldl PanelOutputs.drive o = { o with columnData := o.columnData ++ dots } := by
  induction dots with
  | nil => intro o; simp
  | cons dot dots ih => intro o; simp [ih]

/-! ## A row period -/

/-- After a row period the outputs show the row, whatever they showed before: its number, its dots, latch released and
blank released. -/
theorem drive_rowItems (dots : List Bool) (row : Nat) (o : PanelOutputs) :
    (rowItems dots row).foldl PanelOutputs.drive o = ⟨row, dots, false, false⟩ := by
  simp [rowItems, PanelOutputs.drive_columns]

theorem rowItems_length (dots : List Bool) (row : Nat) : (rowItems dots row).length = dots.length + 5 := by
  simp [rowItems]

/-- What a row period does to the board unit: the buffers exchange at row 0 where the back one is ready, the row is
scanned, and the next one is due a tick later. -/
theorem BoardState.scanRow_eq (b : BoardState) (k : BoardConsts) :
    b.scanRow k =
      let f := if b.row = 0 then b.frameStart else b
      { f with
        scan := rowItems (panelRow k f.front b.row) b.row
        panel := ⟨b.row, panelRow k f.front b.row, false, false⟩
        row := if b.row + 1 < k.rowsTotal then b.row + 1 else 0
        nextRow := b.nextRow.map (· + 1) } := by
  unfold BoardState.scanRow BoardState.frameStart
  split
  · split <;> simp [drive_rowItems]
  · simp [drive_rowItems]

/-- The pages, and what is known of the start station, are the same before and after a row period. -/
theorem BoardState.scanRow_pages (b : BoardState) (k : BoardConsts) :
    (b.scanRow k).queue = b.queue ∧ (b.scanRow k).current = b.current ∧
    (b.scanRow k).knownHolds = b.knownHolds ∧ (b.scanRow k).knownAttempt = b.knownAttempt ∧
    (b.scanRow k).shownSeconds = b.shownSeconds := by
  rw [BoardState.scanRow_eq]
  unfold BoardState.frameStart
  split
  · split <;> exact ⟨rfl, rfl, rfl, rfl, rfl⟩
  · exact ⟨rfl, rfl, rfl, rfl, rfl⟩

end Sys2Proof.Machine
end

