-- ==== Sys2Proof/Tests/Slice0.lean ====
section
/-! SUPPORT. Tests: the manual's worked examples and tables, the smoke test of well-formedness, and for each
statement with hypotheses a witness that meets them, clause by clause. -/

namespace Sys2Proof.Machine.Tests

open Sys2Proof Sys2Proof.Machine

/-! ## Small states -/

/-- A small hill: START at station 0, EDGE at 1, MAST and SPAN at 2, JURY and BOARD at 7. -/
def hill : Constants where
  hill := ⟨250, 280, 600, 18⟩
  gates := ⟨20, 70, 70⟩
  wind := ⟨108, 130, 1, 20, 500⟩
  corridor := ⟨-300, 300, 200, 2, 3, 1⟩
  cycle := ⟨3, 10, 500, 2⟩
  flight := ⟨10, 5, 3, 300, 3⟩
  edge := ⟨5000, 400, 1300⟩
  stations := [⟨0, { start := true }, 0, 0⟩, ⟨1, { edge := true }, 0, 0⟩,
    ⟨2, { mast := true, span := true }, 1, 3⟩, ⟨7, { jury := true, board := true }, 0, 0⟩]
  masts := [⟨1, 2, true, true⟩]
  spans := [⟨3, 12000, 14000⟩]
  qualifiers := 4
  board := ⟨192, 0, 191, 48, 0, 47, 5, 8, 6⟩
  sensorAddress := 0x40

/-- A station of the small hill in RUN, in event 1. -/
def station (n : Nat) (roles : RoleSet) : State where
  loader := { station := n, state := .run, consts := hill, roles := roles, mast := 1, span := 3 }
  line := { eventNumber := 1 }
  clock := 100000

def startStation : State := station 0 { start := true }
def edgeStation : State := station 1 { edge := true }
def mastStation : State := station 2 { mast := true, span := true }
def juryStation : State := station 7 { jury := true, board := true }
def boardStation : State := station 9 { board := true }

/-- The header of attempt 41 (bib 17, round 1). -/
def h41 : AttemptHdr := ⟨41, 17, 1⟩

/-- A frame line from a station, in event 1, at station clock 100,000. -/
def lineOf (sender : Nat) : LineHdr := ⟨sender, 1, 0, 100000⟩

/-- The header that a command gives of a frame from a station, in event 1. -/
def rxOf (sender : Nat) : RxHdr := ⟨sender, 1, 0⟩

/-- The line of a frame from a station that ends now, of age 0, in an event: its stamp is the clock at its first
start edge (R2). -/
def heard (s : State) (sender : Nat) (b : Body) (event : Nat := 1) : LineHdr := ⟨sender, event, 0, s.startStamp b⟩

/-- The state takes a frame of age 0 from a station. -/
abbrev TakesFrom (s : State) (sender : Nat) (b : Body) (event : Nat := 1) : Prop :=
  s.Takes (heard s sender b event) b

/-- A frame of age 0 from another station is delivered to the state. -/
abbrev DeliversFrom (s : State) (sender : Nat) (b : Body) (event : Nat := 1) : Prop :=
  s.Delivers (heard s sender b event) b

/-- A state whose station has a frame in transmission. -/
def sendingOf (s : State) (b : Body) : State :=
  { s with line := { s.line with tx := some ⟨lineOf s.loader.station, b⟩ } }

/-- A record of attempt 41. -/
def rec41 (st : AttemptState) : AttemptRecord := { hdr := h41, state := st, juryGate := some 10, gateUsed := some 10 }

/-- The state that a command answers with. -/
def after (c : Instr) (s : State) : State :=
  match exec c s with
  | .next t => t
  | _ => s

/-! ## Tests against the manual -/

/-- R2: for the nine bytes of the ASCII text "123456789" the CRC is 0x29B1. -/
theorem test_crc_check_value :
    crc16 [0x31, 0x32, 0x33, 0x34, 0x35, 0x36, 0x37, 0x38, 0x39] = 0x29B1 := by decide +kernel

/-- Opening file, Integer arithmetic: -79 / 2 and 79 / 2. -/
theorem test_rounding : roundHalfAway (-79) 2 = -40 ∧ roundHalfAway 79 2 = 40 ∧ roundHalfUp 79 2 = 40 := by
  decide

/-- Section 1.3, one takeoff instant on two clocks: an age of 9, and a saturated one. -/
theorem test_takeoff_on_two_clocks :
    ageAt 1000009 (some 1000000) = 9 ∧
    LineHdr.eventTime ⟨4, 1, 9, 5431872⟩ = 5431863 ∧ LineHdr.eventTime ⟨4, 1, 9, 88207⟩ = 88198 ∧
    ageAt 1070000 (some 1000000) = 65535 ∧ LineHdr.saturated ⟨4, 1, 65535, 5431872⟩ = true := by decide

/-- Section 1.5, a crowded quiet gap: the gaps of stations 3, 12, 7 and 9. -/
theorem test_crowded_gap :
    LineState.gap {} 3 ⟨.go h41, 1, none⟩ = 48 ∧ LineState.gap {} 12 ⟨.go h41, 1, none⟩ = 120 ∧
    LineState.gap {} 7 ⟨.text [0x41], 1, none⟩ = 208 ∧
    LineState.gap {} 9 ⟨.text [0x41], 1, none⟩ = 224 := by decide

/-- Section 12.1: a GO for attempt 41, bib 17, round 1, in event 3, from station 7, laid out byte by byte
from the tables; its CRC is the one that R2 gives for the ten bytes before it. -/
theorem test_go_frame_bytes :
    (frameBytes 7 3 0 (.go h41)).take 10 = [0x12, 0x87, 4, 3, 41, 0, 17, 1, 0, 0] ∧
    decodeFrame (frameBytes 7 3 0 (.go h41)) = some (7, 3, 0, .go h41) := by decide +kernel

/-- Section 12.1: the urgent mark of a routine kind is an error (R3). -/
theorem test_urgent_mark_checked :
    decodeFrame ([0x92, 0x07, 4, 3, 41, 0, 17, 1, 0, 0] ++
      le16 (crc16 [0x92, 0x07, 4, 3, 41, 0, 17, 1, 0, 0]).toNat) = none ∧
    decodeFrame ([0x12, 0x07, 4, 3, 41, 0, 17, 1, 0, 0] ++
      le16 (crc16 [0x12, 0x07, 4, 3, 41, 0, 17, 1, 0, 0]).toNat) = none := by decide +kernel

/-- Section 6.5, one corridor summary: the two means. -/
theorem test_corridor_means : roundHalfAway 4130 20 = 207 ∧ roundHalfAway (-890) 20 = -45 := by decide

/-- R2: the stamp of a frame of twelve characters, 240 µs, that ends at clock 100,000 or 99 µs after it. -/
theorem test_stamp_at_start_edge :
    juryStation.startStamp (.go h41) = 99997 ∧
    ({ juryStation with subTick := 99 } : State).startStamp (.go h41) = 99998 := by decide

/-- R1: a character is a start bit, eight data bits from the least significant, and a stop bit; a low stop bit
spells none. -/
theorem test_character_levels :
    charLevels 0x12 = [false, false, true, false, false, true, false, false, false, true] ∧
    readLevels (charLevels 0x12) = some 0x12 ∧
    readLevels [false, false, true, false, false, true, false, false, false, false] = none := by decide

/-- R59: causes raised at one instant stand in the order of its list, a cause raised before them first. -/
theorem test_holds_of_one_instant :
    (appendHold ⟨.jury, 7, 0, 0⟩ (appendHold ⟨.station, 7, 3, 3⟩ (appendHold ⟨.wind, 7, 0, 0⟩
      [⟨.lamp, 5, 0, 0⟩]))).map (·.cause) =
      (appendHold ⟨.wind, 7, 0, 0⟩ (appendHold ⟨.jury, 7, 0, 0⟩ (appendHold ⟨.station, 7, 3, 3⟩
        [⟨.lamp, 5, 0, 0⟩]))).map (·.cause) := by decide

/-- The contacts of section 7's first worked example, in order of delivery. -/
def contacts41 : List ContactReport :=
  [⟨4, .left, 13414, 500120⟩, ⟨3, .left, 13412, 500119⟩, ⟨3, .right, 13437, 500310⟩,
    ⟨4, .right, 13440, 500311⟩]

/-- Chapter 7, a landing in the overlap of two spans: 268 half-metres, BOTH, at 500,119. -/
theorem test_landing_in_the_overlap :
    landingOf (chooseTrack contacts41 .left) (chooseTrack contacts41 .right) 500119 =
      (268, .both, 500119) := by decide

/-- Chapter 7, an IN_VIEW suspends the flight timer with 22,198 ticks remaining and a limit of 527,790. -/
theorem test_claim_suspends :
    LandingContext.addClaim { attempt := 41, phase := .flightWait, timer := .running 520000 } 497802
      ⟨2, 3, 497790 + secondsT 3⟩ =
    { attempt := 41, phase := .flightWait, timer := .suspended 22198, claims := [⟨2, 3, 527790⟩]
      claimed := [3] } := by decide

/-- Chapter 8, one attempt scored: distance, style, gate and wind compensation, and the total. -/
theorem test_points_of_41 :
    distancePoints ⟨250, 280, 600, 18⟩ 268 = 762 ∧ stylePoints [37, 36, 37, 38, 35] = 550 ∧
    stylePoints [37, 36, 37, 38] = 555 ∧ gateCompensation ⟨20, 70, 70⟩ 2 = 98 ∧
    gateCompensation ⟨20, 70, 70⟩ 3 = 147 ∧ roundHalfAway 25 4 = 6 ∧
    windCompensation ⟨108, 130, 2, 20, 0⟩ (some 6) = -6 ∧
    windCompensation ⟨108, 130, 2, 20, 0⟩ (some (-85)) = 111 ∧
    totalPoints 762 550 98 (-6) = 1404 ∧ totalPoints (-900) 0 0 0 = 0 := by decide

/-- Chapter 8: the granted request is kept at 268 half-metres and not at 265. -/
theorem test_coach_distance :
    coachQualified ⟨250, 280, 600, 18⟩ true 268 = true ∧
    coachQualified ⟨250, 280, 600, 18⟩ true 265 = false := by decide

/-- The results list of chapter 9's worked example, in the order of its arrivals. -/
def resultsAfterRound1 : List ResultsEntry :=
  [⟨12, { r1 := .dns 1 }⟩, ⟨44, { r1 := .ok 1302 2 0 }⟩, ⟨5, { r1 := .dsq 3 }⟩,
    ⟨27, { r1 := .ok 1288 4 0 }⟩, ⟨8, { r1 := .ok 1302 5 0 }⟩, ⟨17, { r1 := .ok 1404 6 0 }⟩,
    ⟨31, { r1 := .ok 1377 7 0 }⟩].foldl (fun es e => insertEntry e es) []

/-- Chapter 9, standings after round 1 and the list for round 2. -/
theorem test_standings_after_round_1 :
    resultsAfterRound1.map (·.bib) = [17, 31, 8, 44, 27, 12, 5] ∧
    (resultsAfterRound1.take 6).map (placeOf resultsAfterRound1) = [1, 2, 3, 3, 5, 6] ∧
    nextStartList resultsAfterRound1 1 4 = [44, 8, 31, 17] ∧
    nextStartList resultsAfterRound1 1 3 = [44, 8, 31, 17] := by decide

/-- Section 10.5: how quantities are shown. -/
theorem test_shown_quantities :
    tenths 1404 = chars "140.4" ∧ tenths (-6) = chars "-0.6" ∧ compensation 98 = chars "+9.8" ∧
    metres 268 = chars "134.0" ∧ metres 265 = chars "132.5" ∧ windText 6 = chars "0.06" ∧
    windText (-85) = chars "-0.85" := by decide

/-- Section 12.4: a CONTACT record of the span head, its check byte, and a record with a wrong one. -/
theorem test_head_records :
    readHeadRecord [0xA5, 0x01, 0xA6] = some .heartbeat ∧
    readHeadRecord [0xA5, 0x03, 1, 0x10, 0x27, 0xE0] = some (.contact .right 10000) ∧
    readHeadRecord [0xA5, 0x03, 1, 0x10, 0x27, 0xE1] = none ∧
    readHeadRecord [0xA5, 0x03, 1, 0x31, 0x75, 0x4F] = none := by decide

/-! ## The smoke test of well-formedness: an ill-formed term for each check, which the check refuses -/

/-- A RESULT payload with every field in its range. -/
def result41 : ResultPayload where
  hdr := h41
  revision := 0
  flags := {}
  distance := 268
  quality := .both
  speed := some 924
  gateUsed := 10
  wind := some 6
  marks := ⟨some 37, some 36, some 37, some 38, some 35⟩
  distancePoints := 762
  stylePoints := 550
  gateComp := 98
  windComp := -6
  total := 1404

/-- A STATUS payload without roles. -/
def status0 : StatusPayload := ⟨{}, .ok, 0, none, none, none, none, none, none⟩

theorem test_wf_refuses_frames :
    ([.statusFrame (rxOf 16) status0,
      .statusFrame (rxOf 1) { status0 with roles := { start := true } },
      .corridorFrame (rxOf 1) 9 0 0 0 {}, .corridorFrame (rxOf 1) 1 40000 0 0 {},
      .eventFrame (rxOf 1) 0 .training 1, .eventFrame (rxOf 1) 1 .training 5,
      .callFrame (rxOf 1) h41 41, .goFrame (rxOf 1) ⟨0, 17, 1⟩, .goFrame (rxOf 1) ⟨41, 200, 1⟩,
      .goFrame (rxOf 1) ⟨41, 17, 5⟩, .gateFrame (rxOf 1) h41 0 true,
      .holdFrame ⟨7, 256, 0⟩ true, .roundFrame (rxOf 1) 1 .opened 3,
      .roundFrame (rxOf 1) 1 .refSet 0, .textFrame (rxOf 1) [], .textFrame (rxOf 1) [0x1F],
      .phaseFrame (rxOf 1) h41 .idle 1 0 0, .phaseFrame (rxOf 1) h41 .red 1 5 0,
      .coachFrame (rxOf 1) h41 0 1 false, .leaveFrame (rxOf 1) ⟨65536, 17, 1⟩ false,
      .voidFrame (rxOf 1) ⟨0, 17, 1⟩ .dsq, .speedFrame (rxOf 1) h41 399,
      .takeoffFrame (rxOf 1) ⟨0, 17, 1⟩ false, .inViewFrame (rxOf 1) h41 9,
      .viewLostFrame (rxOf 1) h41 0 .viewLimit, .contactFrame (rxOf 1) h41 3 .left 30001,
      .landingFrame (rxOf 1) h41 601 .both false false, .landingFrame (rxOf 1) h41 1 .none false false,
      .mastmeanFrame (rxOf 1) h41 1 (some 5) 161 false,
      .resultFrame (rxOf 1) { result41 with revision := 16 },
      .resultFrame (rxOf 1) { result41 with quality := .none },
      .resultFrame (rxOf 1) { result41 with total := 46301 }] : List Instr).all (fun c => !c.wf) = true := by
  decide

theorem test_wf_refuses_others :
    ([.eepromReadEnd (List.replicate 1025 0) {}, .invalidFrame (frameBytes 7 3 0 (.go h41)),
      .stationSilent 16, .corridorEntryAged 0, .clockStretchTimeout (List.replicate 33 0),
      .sensorMode 256, .sensorTransfer 256 0 [] false, .sensorTransfer 8 256 [] false,
      .sensorTransfer 8 0 (List.replicate 9 0) false, .sensorTransferEnd .ok (List.replicate 33 0),
      .sensorTransferEnd (.noAck 46) [], .pollComplete (.arbLost 13),
      .headContact .left 30001 0, .headRecordDiscard (.chars [0xA5, 0x01, 0xA6]), .inrunTimerExpiry 0,
      .flightTimerExpiry 65536, .claimLimitReached 0 1, .claimLimitReached 41 9, .resolutionTime 0,
      .closingEnd 0, .manualDistance 65536 0, .manualDistance 1 65536, .gatherDeadline 0,
      .keypadRecord 6 1 1 1, .keypadGapTimeout 0 (.gap 300), .lampFlashToggle 6, .lampAnswerEnd 0,
      .forceScore 65536, .correctDistance 65536 1, .correctMark 1 256 1, .correctMark 1 1 256,
      .void 65536 5, .void 1 256, .newEvent 256 0 1, .newEvent 1 256 1, .newEvent 1 0 256,
      .startList [], .startList [256], .startList (List.replicate 61 1), .dns 256, .call 256 0,
      .call 1 256, .go 65536, .setGate 65536 1, .setGate 1 256, .coachAck 65536,
      .text (List.replicate 61 0x41), .noticeMask 256, .unknownCommand 256 [],
      .unknownCommand 1 (List.replicate 256 0)] : List Instr).all (fun c => !c.wf) = true := by
  decide +kernel

theorem test_wf_takes :
    ([.resultFrame (rxOf 7) result41, .statusFrame (rxOf 1) status0,
      .landingFrame (rxOf 7) h41 0 .none true false, .invalidFrame [0x12], .startList [1, 199],
      .void 41 5] : List Instr).all (·.wf) = true := by decide

/-! ## Witnesses: states that meet the hypotheses of the statements, clause by clause

A witness names its statement. Each part meets the hypotheses of one clause, at the ends of a range where it
has one. -/

/-- The checks of `State.Hears` as one test. -/
def hearsTest (s : State) (l : LineHdr) (b : Body) : Bool :=
  !s.resetAsserted && s.loader.state != .loading && s.line.tx.isNone && !s.line.rx.skipping && l.inRange &&
    b.inRange && l.sender != s.loader.station && l.stamp == s.startStamp b

theorem hears_of_test {s : State} {l : LineHdr} {b : Body} (h : hearsTest s l b = true) : s.Hears l b := by
  simp only [hearsTest, Bool.and_eq_true, Bool.not_eq_true', bne_iff_ne, ne_eq,
    Option.isNone_iff_eq_none, beq_iff_eq] at h
  obtain ⟨⟨⟨⟨⟨⟨⟨h1, h2⟩, h3⟩, h4⟩, h5⟩, h6⟩, h7⟩, h8⟩ := h
  exact ⟨h1, h2, h3, h4, h5, h6, h7, h8⟩

/-- The checks of `State.Echoes` as one test. -/
def echoesTest (s : State) (l : LineHdr) (b : Body) : Bool :=
  !s.resetAsserted && (s.loader.state == .run || s.loader.state == .muted true) && s.line.tx == some ⟨l, b⟩ &&
    l.sender == s.loader.station && l.inRange && b.inRange && s.passesFilter l b

theorem echoes_of_test {s : State} {l : LineHdr} {b : Body} (h : echoesTest s l b = true) : s.Echoes l b := by
  simp only [echoesTest, Bool.and_eq_true, Bool.or_eq_true, Bool.not_eq_true', beq_iff_eq] at h
  obtain ⟨⟨⟨⟨⟨⟨h1, h2⟩, h3⟩, h4⟩, h5⟩, h6⟩, h7⟩ := h
  exact ⟨h1, h2, h3, h4, h5, h6, h7⟩

/-- The station reads back whole the frame of `sendingOf`. -/
abbrev EchoesOf (s : State) (b : Body) : Prop := (sendingOf s b).Echoes (lineOf s.loader.station) b

/-- The station's own frame is delivered to it. -/
abbrev DeliversOwn (s : State) (b : Body) : Prop := (sendingOf s b).Delivers (lineOf s.loader.station) b

/-- The checks of `State.Takes` as one test. -/
def takesTest (s : State) (l : LineHdr) (b : Body) : Bool :=
  hearsTest s l b && (s.loader.state == .run || s.loader.state == .muted true) && s.passesFilter l b

theorem takes_of_test {s : State} {l : LineHdr} {b : Body} (h : takesTest s l b = true) :
    s.Takes l b := by
  simp only [takesTest, Bool.and_eq_true, Bool.or_eq_true, beq_iff_eq] at h
  exact ⟨hears_of_test h.1.1, h.1.2, h.2⟩

theorem record_of_test {s : State} (h : (!s.resetAsserted && s.loader.state != .loading &&
    !s.console.skipping && decide (s.console.replies.length < 8)) = true) : s.TakesRecord := by
  simp only [Bool.and_eq_true, Bool.not_eq_true', bne_iff_ne, ne_eq, decide_eq_true_eq] at h
  exact ⟨h.1.1.1, h.1.1.2, h.1.2, h.2⟩

theorem jury_of_test {s : State} (h : (!s.resetAsserted && s.loader.state != .loading &&
    !s.console.skipping && decide (s.console.replies.length < 8)) = true)
    (j : s.loader.roles.jury = true) (e : s.line.eventNumber ≠ 0) : s.JuryTakes :=
  ⟨record_of_test h, j, e⟩

/-! ### Step, time, reset and load -/

theorem witness_StepRunsTheFrontCommand :
    ({ pending := [.hold, .release] } : State).pending = .hold :: [.release] := rfl

/-- A station in whose step nothing falls due: its line and its console RX quiet for a time. -/
def idling (quiet : Nat) (tx : Option LineFrame) : State :=
  { line := { quietUs := quiet, tx := tx, busyUs := some 7, rx := ⟨[1], true⟩ }
    console := { rxQuietUs := 9980 + quiet, gathered := [1], skipping := true } }

theorem witness_TimePassesBetweenCommands :
    ((idling 18 none).dueCommands = [] ∧ (idling 19 none).dueCommands = [] ∧
      (idling 20 none).dueCommands = [] ∧ (idling 18 none).resetAsserted = false ∧
      (19 < 20 ∧ 20 ≤ 20 ∧ ¬20 < 20 ∧ 20 < 21) ∧
      (idling 0 (some ⟨lineOf 7, .hold true⟩)).dueCommands = [] ∧
      (idling 0 (some ⟨lineOf 7, .hold true⟩)).line.tx ≠ none) ∧
    (({ line := { nextStatus := some 0 } } : State).pending = [] ∧
      ({ line := { nextStatus := some 0 } } : State).dueCommands ≠ []) ∧
    (({ resetAsserted := true } : State).pending = [] ∧
      ({ resetAsserted := true } : State).resetAsserted = true) ∧
    (({ subTick := 98 } : State).dueCommands = [] ∧ ({ subTick := 98 } : State).resetAsserted = false) ∧
    ({ subTick := 99 } : State).dueCommands = [] ∧
    (Instr.hold ≠ .resetAssert ∧ ∀ n, Instr.hold ≠ .resetRelease n) := by
  refine ⟨by decide, by decide, by decide, by decide, by decide, by simp⟩

theorem witness_ResetAndItsState :
    State.reset.resetAsserted = false ∧ ({ resetAsserted := true } : State).resetAsserted = true := by
  decide

/-- A packet of the constants image: identifier, length and data. -/
def packet (id : Nat) (data : List Byte) : List Byte := [byte id, byte data.length] ++ data

/-- The packets of the small hill, written from the tables of section 12.2. -/
def hillPackets : List Byte :=
  packet 1 (le16 250 ++ le16 280 ++ le16 600 ++ [18]) ++ packet 2 [20, 70, 70] ++
  packet 3 (le16 108 ++ le16 130 ++ [1, 20] ++ le16 500) ++
  packet 4 (le16s (-300) ++ le16 300 ++ le16 200 ++ [2, 3, 1]) ++
  packet 5 ([3, 10] ++ le16 500 ++ [2]) ++ packet 6 ([10, 5, 3] ++ le16 300 ++ [3]) ++
  packet 7 (le16 5000 ++ le16 400 ++ le16 1300) ++
  packet 8 [0, 0x01, 0, 0, 1, 0x02, 0, 0, 2, 0x0C, 1, 3, 7, 0x30, 0, 0] ++ packet 9 [1, 2, 3] ++
  packet 10 ([3] ++ le16 12000 ++ le16 14000) ++ packet 11 [4] ++
  packet 12 (le16 192 ++ le16 0 ++ le16 191 ++ [48, 0, 47, 5, 8, 6]) ++ packet 13 [0x40]

/-- The image up to its digest. -/
def hillBody : List Byte :=
  [0x48, 0x4C] ++ le16 (hillPackets.length + 8) ++ hillPackets ++ [0xFF, 0]

/-- The constants image of the small hill. -/
def hillImage : List Byte := hillBody ++ le16 (crc16 hillBody).toNat

set_option maxRecDepth 20000 in
/-- The image brings RUN at station 7, with the constants that its packets spell. -/
theorem test_image_brings_run : loadImage 7 hillImage = .run (crc16 hillBody) hill := by decide +kernel

set_option maxRecDepth 20000 in
/-- A station that the map does not name: a failing check of the STATIONS packet, 0x08 (R24). -/
theorem test_image_without_own_station : loadImage 5 hillImage = .invalid 8 (crc16 hillBody) := by
  decide +kernel

/-- A station 7 that reads its EEPROM. -/
def reading : State := { loader := { station := 7 } }

theorem witness_LoadEndsInRun :
    reading.resetAsserted = false ∧ reading.loader.state = .loading ∧ reading.loader.retryAt = none ∧
    reading.line.routine = [] ∧ reading.console.notices.length < 32 ∧
    loadImage reading.loader.station hillImage = .run (crc16 hillBody) hill :=
  ⟨rfl, rfl, rfl, rfl, by decide, test_image_brings_run⟩

/-- A load that waits after a number of failed reads. -/
def waiting (n : Nat) : State := { loader := { failedReads := n, retryAt := some 50 }, clock := 50 }

/-- R20, R21: from reset the loader reads at 0x51 from memory address 0; a read of two bytes, too short, ends
with a stop, and the read begins again after 5 ms. -/
theorem test_image_read_on_the_bus :
    State.reset.loader.eeprom = [.start, .address 0x51 false, .memoryAddress 0, .repeatedStart, .address 0x51 true] ∧
    (after (.eepromReadEnd [1, 2] {}) reading).loader.eeprom =
      [.start, .address 0x51 false, .memoryAddress 0, .repeatedStart, .address 0x51 true, .receive, .receive, .stop] ∧
    (after .eepromRetryTimer (waiting 19)).loader.eeprom = eepromOpening := by decide

theorem witness_LoadFails :
    loadImage 5 hillImage = .invalid 8 (crc16 hillBody) ∧ loadImage 7 [] = .failedRead ∧
    ((waiting 19).loader.retryAt = some 50 ∧ reached (waiting 19).clock 50 = true ∧
      (waiting 19).loader.failedReads < 20) ∧
    ((waiting 20).loader.retryAt = some 50 ∧ reached (waiting 20).clock 50 = true ∧
      20 ≤ (waiting 20).loader.failedReads ∧ (waiting 20).line.routine = [] ∧
      (waiting 20).loader.state = .loading) :=
  ⟨test_image_without_own_station, rfl, by decide, by decide⟩

theorem witness_LoadedMapIsSound : loadImage 7 hillImage = .run (crc16 hillBody) hill :=
  test_image_brings_run

theorem witness_LoaderHeldUntilColdReset :
    juryStation.resetAsserted = false ∧ juryStation.loader.state ≠ .loading ∧
    juryStation.loader.retryAt = none ∧ Instr.hold ≠ .resetAssert ∧
    exec .hold juryStation = .next (after .hold juryStation) :=
  ⟨rfl, by decide, rfl, by simp, rfl⟩

/-! ### The hill line -/

/-- A queue of urgent frames. -/
def urgentQueue (n : Nat) : List QueuedFrame := List.replicate n ⟨.go h41, 1, none⟩

/-- A queue of routine frames. -/
def routineQueue (n : Nat) : List QueuedFrame := List.replicate n ⟨.text [0x41], 1, none⟩

/-- A station with both queues filled to a length. -/
def queued (n : Nat) : State :=
  { juryStation with line := { juryStation.line with urgent := urgentQueue n, routine := routineQueue n } }

theorem witness_OfferedFrames :
    ({ loader := { state := .muted true } } : State).loader.state.isMuted = true ∧
    ((queued 7).loader.state.isMuted = false ∧ (Body.go h41).urgent = true ∧
      (queued 7).line.urgent.length < 8) ∧
    ((queued 8).loader.state.isMuted = false ∧ ¬(queued 8).line.urgent.length < 8) ∧
    ((Body.text [0x41]).urgent = false ∧ (Body.text [0x41]).kind ≠ 0x01 ∧ (Body.text [0x41]).kind ≠ 0x02 ∧
      (queued 7).line.routine.length < 8 ∧ ¬(queued 8).line.routine.length < 8) ∧
    ((Body.status status0).urgent = false ∧
      ∀ g ∈ (queued 8).line.routine, g.body.kind ≠ (Body.status status0).kind) := by decide

theorem witness_StatusAndCorridorReplace :
    ((queued 0).loader.state.isMuted = false ∧ (Body.status status0).kind = 0x01 ∧
      (Body.corridor 1 0 0 0 {}).kind = 0x02 ∧
      routineQueue 3 ++ ⟨.status status0, 1, none⟩ :: routineQueue 4 =
        routineQueue 3 ++ ⟨.status status0, 1, none⟩ :: routineQueue 4 ∧
      ∀ f ∈ routineQueue 3, f.body.kind ≠ 0x01) ∧
    ((∀ f ∈ (queued 7).line.routine, f.body.kind ≠ 0x01) ∧ (queued 7).line.routine.length < 8) ∧
    (queued 8).QueuesSound := by unfold State.QueuesSound; decide

/-- The same with a quiet time. -/
def quietFor (us : Nat) : State := { queued 1 with line := { (queued 1).line with quietUs := us } }

theorem witness_TransmissionCarriesTheAge :
    ((quietFor 80).resetAsserted = false ∧ (quietFor 80).loader.state = .run ∧ (quietFor 80).line.tx = none ∧
      (quietFor 80).line.busyUs = none ∧ (quietFor 80).line.hung = false ∧
      (quietFor 80).line.urgent.head? = some ⟨.go h41, 1, none⟩ ∧
      (7 : Nat) = (if (Body.go h41).urgent then (quietFor 80).loader.station
        else if (quietFor 80).line.yieldMark then 32 + (quietFor 80).loader.station
        else 16 + (quietFor 80).loader.station) ∧
      0 + 24 + 8 * 7 ≤ (quietFor 80).line.quietUs ∧ (quietFor 79).line.quietUs < 0 + 24 + 8 * 7) ∧
    (({ line := { busyUs := some 20, urgent := urgentQueue 1 } } : State).line.busyUs ≠ none) ∧
    ((65534 : Tick) - 0).toNat ≤ 65534 ∧ 65534 < ((65535 : Tick) - 0).toNat := by decide

/-- A station that sends a STATUS. -/
def sending : State := sendingOf juryStation (.status status0)

/-- The same, a time in µs into its frame. -/
def sendingAt (us : Nat) : State := { sending with line := { sending.line with busyUs := some us } }

/-- R14: driver enable is deasserted, and the station's own echo due, at the end of the last stop bit; one µs before it
neither. A character takes 20 µs (R1). -/
theorem test_driver_enable_ends_with_the_frame :
    (Body.status status0).lineUs = 20 * (frameBytes 7 1 0 (.status status0)).length ∧
    (sendingAt ((Body.status status0).lineUs - 1)).driverEnable = true ∧
    (sendingAt ((Body.status status0).lineUs - 1)).dueCommands = [] ∧
    (sendingAt (Body.status status0).lineUs).driverEnable = false ∧
    (sendingAt (Body.status status0).lineUs).dueCommands = [.statusFrame ⟨7, 1, 0⟩ status0] := by decide +kernel

theorem witness_LineGuards :
    (sending.line.tx = some ⟨lineOf 7, .status status0⟩ ∧ 1000 < 1001) ∧ juryStation.line.tx = none ∧
    ((sendingAt 0).line.tx = some ⟨lineOf 7, .status status0⟩ ∧ (sendingAt 0).line.busyUs = some 0 ∧
      (sendingAt 0).resetAsserted = false) ∧
    (juryStation.resetAsserted = false ∧ juryStation.loader.state ≠ .loading ∧
      juryStation.line.hung = false ∧ 2000 < 2001) ∧
    (({ line := { hung := true, quietUs := 1000 } } : State).line.hung = true ∧
      1000 ≤ ({ line := { hung := true, quietUs := 1000 } } : State).line.quietUs ∧
      ({ line := { hung := true, quietUs := 999 } } : State).line.quietUs < 1000) ∧
    State.reset.loader.state = .loading := by decide

theorem witness_WhatTheLineDoesNotTake :
    (juryStation.resetAsserted = false ∧ juryStation.loader.state ≠ .loading ∧
      juryStation.line.tx = none ∧ (20 ≤ 20 ∧ ¬20 < 20 ∧ 20 < 21 ∧ 19 < 20) ∧ decodeFrame [0x12] = none ∧ 32 < (33 : Byte).toNat) ∧
    State.reset.loader.state = .loading ∧ State.reset.resetAsserted = false ∧
    (({ juryStation with line := { rx := { skipping := true } } } : State).line.rx.skipping = true ∧
      ({ juryStation with line := { rx := { skipping := true } } } : State).line.tx = none) ∧
    (juryStation.line.rx.skipping = false ∧ ((lineOf 16).inRange && (Body.hold true).inRange) = false) := by
  decide

/-- A station of the small hill that has heard its own STATUS, and keeps a PHASE GREEN, a LEAVE, a VOID, a SPEED, a
TAKEOFF, a MASTMEAN, a CONTACT, an EVENT, a ROUND and a RESULT not yet delivered. -/
def keeping (s : State) : State :=
  { s with
    roster := List.replicate 16 { presence := .present, lastHeard := some 99000, status := some ⟨status0, 1⟩ }
    table := [{ hdr := h41, state := .landed, scoring := some { stage := .sent, revision := some 0, copy := some result41 } }]
    start := { s.start with
      phase := .green, current := some h41, shown := 7, backlog := 1
      keptLeave := some ⟨.leave h41 false, some 5⟩, keptPhase := some ⟨.phase h41 .green 10 10 1, none⟩
      keptVoid := some ⟨.void h41 .late, none⟩ }
    edge := { keptSpeed := some ⟨.speed h41 924, some 5⟩, keptTakeoff := some ⟨.takeoff h41 false, some 6⟩ }
    wind := { means := [⟨41, some (.mastMean h41 1 (some 5) 20 false), false⟩] }
    span := { kept := [⟨.contact h41 3 .left 13412, some 9⟩] }
    scoring := { voidCopies := [⟨h41, .dsq⟩] }
    standings := { eventCopy := some (.event 1 .competition 2), roundCopies := [.round 1 .closed 9] } }

/-- What the five kinds of station offer again at the echo of their own STATUS. -/
theorem test_kept_copies :
    (keeping startStation).keptCopies.map (·.body) =
      [.leave h41 false, .phase h41 .green 10 7 1, .void h41 .late] ∧
    (keeping edgeStation).keptCopies.map (·.body) = [.speed h41 924, .takeoff h41 false] ∧
    (keeping mastStation).keptCopies.map (·.body) =
      [.mastMean h41 1 (some 5) 20 false, .contact h41 3 .left 13412] ∧
    (keeping juryStation).keptCopies.map (·.body) =
      [.result result41, .void h41 .dsq, .event 1 .competition 2, .round 1 .closed 9] := by decide

theorem witness_CadencesAndStatusContent_copies :
    (EchoesOf (keeping startStation) (.status status0) ∧ EchoesOf (keeping juryStation) (.status status0) ∧
      ((keeping startStation).rosterAt 0).presence = .present ∧
      ((keeping startStation).rosterAt 0).status.map (fun h => (h.payload.digest, h.payload.condition)) =
        some (status0.digest, status0.condition) ∧
      (keeping startStation).start.backlog = (keeping startStation).countBacklog ∧
      (keeping startStation).line.eventNumber ≠ 0) ∧
    (EchoesOf (keeping startStation) (.leave h41 false) ∧ EchoesOf (keeping startStation) (.void h41 .late) ∧
      EchoesOf (keeping startStation) (.phase h41 .green 10 10 1) ∧
      EchoesOf (keeping edgeStation) (.speed h41 924) ∧ EchoesOf (keeping edgeStation) (.takeoff h41 false) ∧
      EchoesOf (keeping mastStation) (.mastMean h41 1 (some 5) 20 false) ∧
      EchoesOf (keeping mastStation) (.contact h41 3 .left 13412) ∧
      EchoesOf (keeping juryStation) (.void h41 .dsq) ∧ EchoesOf (keeping juryStation) (.round 1 .closed 9) ∧
      EchoesOf (keeping juryStation) (.event 1 .competition 2)) ∧
    (keeping startStation).start.keptLeave = some ⟨.leave h41 false, some 5⟩ := by
  refine ⟨⟨?_, ?_, by decide⟩, ⟨?_, ?_, ?_, ?_, ?_, ?_, ?_, ?_, ?_, ?_⟩, rfl⟩ <;>
    exact echoes_of_test (by decide)

/-- A station other than START that keeps copies of a live attempt: it holds no backlog count. -/
def keepingLive (s : State) (st : AttemptState) : State :=
  { keeping s with start := {}, table := [{ hdr := h41, state := st }] }

/-- The start station in GONE, with the LEAVE of attempt 41 not yet delivered. -/
def keepingGone : State :=
  { keeping startStation with start := { (keeping startStation).start with phase := .gone } }

theorem witness_CadencesAndStatusContent_echoes :
    (EchoesOf (keepingLive edgeStation .airborne) (.status status0) ∧
      EchoesOf (keepingLive mastStation .landed) (.status status0) ∧
      EchoesOf (keepingLive juryStation .landed) (.status status0)) ∧
    ((∀ s ∈ [edgeStation, mastStation, juryStation], (keepingLive s .landed).loader.roles.start = false ∧
        (keepingLive s .landed).countBacklog = 1 ∧ (keepingLive s .landed).start.backlog = 0 ∧
        (keepingLive s .landed).keptCopies ≠ [] ∧ (keepingLive s .landed).line.eventNumber ≠ 0) ∧
      ∀ n, n < 16 → ((keepingLive edgeStation .airborne).rosterAt n).presence = .present) ∧
    (EchoesOf keepingGone (.phase h41 .gone 10 0 1) ∧ keepingGone.loader.roles.start = true ∧
      keepingGone.loader.roles.jury = false ∧ keepingGone.start.phase = .gone ∧
      keepingGone.start.keptLeave = some ⟨.leave h41 false, some 5⟩) := by
  refine ⟨⟨?_, ?_, ?_⟩, by decide, ?_, by decide⟩ <;> exact echoes_of_test (by decide)

theorem witness_CadencesAndStatusContent :
    (({ line := { nextStatus := some 7 }, clock := 7 } : State).line.nextStatus = some 7 ∧
      reached 7 7 = true) ∧
    ({ line := { nextCorridor := some 7 }, clock := 7 } : State).line.nextCorridor = some 7 ∧
    expired 6 (some 7) = false ∧
    ({ loader := { state := .invalid } } : State).loader.state = .invalid ∧
    juryStation.loader.state = .run := by decide

/-! ### Frames heard -/

/-- A station whose roster holds every other station PRESENT. -/
def withRoster (s : State) : State :=
  { s with roster := List.replicate 16 { presence := .present, lastHeard := some 99000 } }

theorem witness_HeardFrameRefreshesTheRoster :
    (boardStation.Hears (heard boardStation 7 (.text [0x41])) (.text [0x41]) ∧ boardStation.RosterSound) ∧
    (boardStation.loader.roles.start = false ∧ boardStation.loader.roles.edge = false ∧
      boardStation.loader.roles.mast = false ∧ boardStation.loader.roles.span = false ∧
      boardStation.loader.roles.jury = false ∧ edgeStation.loader.roles.board = false ∧
      edgeStation.loader.roles.jury = false) ∧
    (juryStation.Hears (heard juryStation 1 (.hold true) 2) (.hold true) ∧
      juryStation.passesFilter (heard juryStation 1 (.hold true) 2) (.hold true) = false) ∧
    ((Body.hold true).hdr? = none ∧ ∀ n m r, Body.hold true ≠ .event n m r) ∧
    (startStation.Hears (heard startStation 2 (.text [0x41])) (.text [0x41]) ∧ startStation.RosterSound ∧
      startStation.loader.roles.start = true ∧ (startStation.rosterAt 2).presence ≠ .present) :=
  ⟨⟨hears_of_test (by decide), rfl⟩, by decide, ⟨hears_of_test (by decide), by decide⟩, ⟨rfl, by simp⟩,
    hears_of_test (by decide), rfl, rfl, by decide⟩

/-- A mast station that has had no event. -/
def noEvent : State := { withRoster mastStation with line := {} }

/-- R57: at event number 0 a CALL creates no record, and a CORRIDOR is filtered, though their headers carry 0. -/
theorem test_event_zero_filters :
    noEvent.Hears (heard noEvent 7 (.call h41 9) 0) (.call h41 9) ∧ noEvent.line.eventNumber = 0 ∧
    noEvent.RosterSound ∧
    (after (.callFrame (heard noEvent 7 (.call h41 9) 0).rx h41 9) noEvent).table = [] ∧
    noEvent.passesFilter (heard noEvent 2 (.corridor 1 0 0 20 {}) 0) (.corridor 1 0 0 20 {}) = false ∧
    noEvent.passesFilter (heard noEvent 7 (.event 1 .training 1) 0) (.event 1 .training 1) = true :=
  ⟨hears_of_test (by decide), rfl, rfl, by decide⟩

theorem witness_OwnFramesEchoOrMute :
    (sending.resetAsserted = false ∧ sending.loader.state ≠ .loading ∧
      sending.line.tx = some ⟨lineOf 7, .status status0⟩ ∧ (lineOf 7).sender = sending.loader.station ∧
      (lineOf 7).inRange = true ∧ (Body.status status0).inRange = true ∧ sending.RosterSound) ∧
    (juryStation.resetAsserted = false ∧ juryStation.loader.state = .run ∧ juryStation.line.tx = none ∧
      juryStation.line.rx.skipping = false ∧ (lineOf 7).sender = juryStation.loader.station) ∧
    ({ juryStation with loader := { juryStation.loader with state := .muted true } } : State).loader.state =
      .muted true := by unfold State.RosterSound; decide

/-- The jury with an own LANDING under way for attempt 41. -/
def landingSent : State := { juryStation with contexts := [{ attempt := 41, phase := .sent }] }

theorem witness_OwnFramesEchoOrMute_delivery :
    ((EchoesOf (keeping juryStation) (.result result41) ∧
        (keeping juryStation).attempt? 41 =
          some { hdr := h41, state := .landed, scoring := some { stage := .sent, revision := some 0, copy := some result41 } }) ∧
      EchoesOf (keeping startStation) (.leave h41 false)) ∧
    ((EchoesOf juryStation (.call h41 20) ∧ juryStation.loader.roles.jury = true) ∧
      (EchoesOf startStation (.phase h41 .red 9 0 0) ∧ startStation.loader.roles.start = true ∧
        startStation.loader.roles.jury = false) ∧
      EchoesOf juryStation (.go h41) ∧ EchoesOf startStation (.leave h41 true) ∧
      juryStation.attempt? 41 = none ∧ startStation.attempt? 41 = none) ∧
    (EchoesOf landingSent (.landing h41 268 .both false false) ∧
      landingSent.context? 41 = some { attempt := 41, phase := .sent }) := by
  refine ⟨⟨⟨?_, by decide⟩, ?_⟩, ⟨⟨?_, rfl⟩, ⟨?_, rfl, rfl⟩, ?_, ?_, by decide⟩, ?_, by decide⟩ <;>
    exact echoes_of_test (by decide)

/-- A STATUS of station 7 with another digest. -/
def statusOther : StatusPayload := { status0 with digest := 1 }

/-- A STATUS of the start station. -/
def statusStart : StatusPayload :=
  { status0 with roles := { start := true }, start := some ⟨.red, some 41, { wind := true }, 0⟩ }

/-- The start station in RED with the GO mark, CONFIG its only cause, station 7 having announced another digest and
every other station the local one. -/
def otherDigest : State :=
  { startStation with
    roster := (List.replicate 16 { presence := .present, lastHeard := some 99000, status := some ⟨status0, 1⟩ }).set 7
      { presence := .present, lastHeard := some 99000, status := some ⟨statusOther, 1⟩ }
    start := { phase := .red, current := some h41, goMark := true, holds := [⟨.config, 90000, 7, 1⟩] } }

theorem witness_StatusFrameAtAStation :
    (DeliversFrom startStation 7 (.status statusOther) ∧ startStation.RosterSound ∧
      startStation.loader.roles.start = true ∧ statusOther.digest ≠ startStation.loader.digest ∧
      (startStation.rosterAt 7).status.map (·.payload.digest) ≠ some statusOther.digest ∧
      startStation.HoldsSound) ∧
    (DeliversFrom ({ boardStation with line := {} } : State) 7 (.status status0) ∧
      boardStation.loader.consts.stationWith (·.jury) = some 7) ∧
    (DeliversFrom boardStation 0 (.status statusStart) ∧ boardStation.loader.roles.board = true ∧
      boardStation.loader.consts.stationWith (·.start) = some 0 ∧ statusStart.start ≠ none) :=
  ⟨⟨.inl (takes_of_test (by decide)), by unfold State.RosterSound State.HoldsSound; decide⟩,
    ⟨.inl (takes_of_test (by decide)), by decide⟩, .inl (takes_of_test (by decide)), by decide⟩

/-- Station 7 announces the local digest again, the digest it had announced, or another one; the start station its
own. -/
theorem witness_StatusFrameAtAStation_evaluated :
    (DeliversFrom otherDigest 7 (.status status0) ∧ DeliversFrom otherDigest 7 (.status statusOther) ∧
      DeliversFrom otherDigest 2 (.status statusOther) ∧ DeliversOwn otherDigest (.status statusStart) ∧
      DeliversOwn startStation (.status statusStart)) ∧
    (otherDigest.RosterSound ∧ otherDigest.HoldsSound ∧ otherDigest.loader.roles.start = true ∧
      (otherDigest.rosterAt 7).presence = .present ∧
      (otherDigest.rosterAt 7).status.map (fun k => (k.payload.digest, k.payload.condition)) =
        some (statusOther.digest, statusOther.condition) ∧
      (otherDigest.rosterAt 7).status.map (fun k => (k.payload.digest, k.payload.condition)) ≠
        some (status0.digest, status0.condition)) ∧
    (otherDigest.start.phase = .red ∧ otherDigest.start.goMark = true ∧ otherDigest.start.holds ≠ []) := by
  refine ⟨⟨.inl (takes_of_test (by decide)), .inl (takes_of_test (by decide)), .inl (takes_of_test (by decide)),
    .inr (echoes_of_test (by decide)), .inr (echoes_of_test (by decide))⟩, ?_, by decide⟩
  unfold State.RosterSound State.HoldsSound; decide

/-- R71, R62: the local digest announced again releases CONFIG, and the list it empties brings AMBER. -/
theorem test_config_released :
    (after (.statusFrame (rxOf 7) status0) otherDigest).start.holds = [] ∧
    (after (.statusFrame (rxOf 7) status0) otherDigest).start.phase = .amber ∧
    (after (.statusFrame (rxOf 7) statusOther) otherDigest).start.holds = otherDigest.start.holds := by decide

theorem witness_EventFrameBeginsAnEvent :
    TakesFrom startStation 7 (.event 2 .competition 4) 9 ∧
    (startStation.loader.roles.start = true ∧ startStation.CycleSound) ∧
    TakesFrom boardStation 7 (.event 255 .training 1) 9 ∧
    (TakesFrom juryStation 1 (.event 1 .training 1) 9 ∧ juryStation.loader.roles.jury = true) :=
  ⟨takes_of_test (by decide), by unfold State.CycleSound; decide, takes_of_test (by decide),
    takes_of_test (by decide), rfl⟩

/-- The jury's own EVENT, which it keeps until this echo. -/
theorem witness_EventFrameBeginsAnEvent_own :
    (sendingOf (keeping juryStation) (.event 1 .competition 2)).Delivers (lineOf 7) (.event 1 .competition 2) ∧
    (keeping juryStation).loader.roles.jury = true :=
  ⟨.inr (echoes_of_test (by decide)), rfl⟩

/-- The jury with attempt 41 LANDED in a round, its EVENT and a ROUND not yet delivered. -/
def midEvent (r : RoundState) : State :=
  { keeping juryStation with standings := { (keeping juryStation).standings with
      results := [⟨17, {}⟩], startList := [31], round := ⟨1, r, none⟩ } }

theorem witness_EventFrameBeginsAnEvent_foreign :
    ((midEvent .opened).Delivers (heard (midEvent .opened) 3 (.event 2 .training 1) 2) (.event 2 .training 1) ∧
      (midEvent .opened).loader.roles.jury = true ∧ 3 ≠ (midEvent .opened).loader.station ∧
      (midEvent .opened).standings.round.state ≠ .closing) ∧
    ((midEvent .closing).Delivers (heard (midEvent .closing) 3 (.event 2 .training 1) 2) (.event 2 .training 1) ∧
      (midEvent .closing).standings.round.state = .closing) ∧
    (boardStation.Delivers (heard boardStation 7 (.event 255 .training 1) 9) (.event 255 .training 1) ∧
      boardStation.loader.roles.jury = false ∧ boardStation.loader.roles.board = true) :=
  ⟨⟨.inl (takes_of_test (by decide)), by decide⟩, ⟨.inl (takes_of_test (by decide)), by decide⟩,
    .inl (takes_of_test (by decide)), rfl, rfl⟩

/-- R161: the jury's standings and its kept EVENT stay at an EVENT of another sender, and go at its own. -/
theorem test_event_of_another_sender :
    (after (.eventFrame (heard (midEvent .opened) 3 (.event 2 .training 1) 2).rx 2 .training 1)
        (midEvent .opened)).standings = (midEvent .opened).standings ∧
    (after (.eventFrame (lineOf 7).rx 1 .competition 2)
        (sendingOf (midEvent .opened) (.event 1 .competition 2))).standings =
      { (midEvent .opened).standings with
        results := [], startList := [], eventCopy := none, roundCopies := [], roundsPlanned := some 2
        round := ⟨1, .opened, none⟩ } := by decide

/-! ### Frames at the sequencer -/

/-- A station of the small hill, its roster PRESENT, with one attempt record. -/
def holding (s : State) (r : AttemptRecord) : State := { withRoster s with table := [r] }

/-- The start station in a phase of the cycle of attempt 41. -/
def inPhase (p : Phase) (holds : List Hold) : State :=
  { withRoster startStation with start := { phase := p, current := some h41, gate := 10, juryGate := 10, holds := holds } }

/-- A standing cause. -/
def held (c : HoldCause) : List Hold := [⟨c, 90000, 7, 0⟩]

/-- The start station in RED with a coach's request in a state, for gate 9. -/
def coached (c : CoachState) : State :=
  { inPhase .red [] with start := { (inPhase .red []).start with coach := c, requested := some 9 } }

/-- The means of mast 1, its x one above the corridor's limit. -/
def outOfBand : CorridorEntry :=
  ⟨1, 2, 301, 0, 20, {}, startStation.startStamp (.corridor 1 301 0 20 {}), false⟩

/-- The start station in RED, WIND its only cause, with another settle time. -/
def windHeld (settle : Nat) : State :=
  { inPhase .red (held .wind) with loader := { startStation.loader with
      consts := { hill with corridor := { hill.corridor with settleS := settle } } } }

/-- A mean of mast 1 in the band leaves it alone in the table, counted, fresh and in the band, with WIND standing or
not, and a settle time or none. -/
theorem witness_CorridorAndHoldFrames_inBand :
    (TakesFrom (windHeld 3) 2 (.corridor 1 300 (-200) 20 {}) ∧ TakesFrom (windHeld 0) 2 (.corridor 1 300 (-200) 20 {}) ∧
      TakesFrom startStation 2 (.corridor 1 (-300) 200 20 {})) ∧
    (∀ s ∈ [windHeld 3, windHeld 0, startStation],
      ((after (.corridorFrame (rxOf 2) 1 300 (-200) 20 {}) s).start.corridor.map (fun e =>
        (s.counted e, e.fresh s.clock, e.inBand s.loader.consts.corridor))) = [(true, true, true)] ∧
      s.loader.consts.corridor.minMasts = 1) ∧
    ((windHeld 3).start.standing .wind = true ∧ (windHeld 3).loader.consts.corridor.settleS ≠ 0 ∧
      (windHeld 0).start.standing .wind = true ∧ (windHeld 0).loader.consts.corridor.settleS = 0 ∧
      startStation.start.standing .wind = false) :=
  ⟨⟨takes_of_test (by decide), takes_of_test (by decide), takes_of_test (by decide)⟩, by decide, by decide⟩

theorem witness_CorridorAndHoldFrames :
    (TakesFrom startStation 2 (.corridor 1 301 0 20 {}) ∧ startStation.loader.roles.start = true ∧
      outOfBand = ⟨1, 2, 301, 0, 20, {}, startStation.startStamp (.corridor 1 301 0 20 {}), false⟩ ∧
      startStation.loader.consts.mastStation 1 = some 2 ∧ startStation.HoldsSound ∧
      startStation.counted outOfBand = true ∧ outOfBand.fresh startStation.clock = true ∧
      outOfBand.inBand startStation.loader.consts.corridor = false) ∧
    (TakesFrom startStation 1 (.corridor 8 (-32768) 0 100 {}) ∧
      startStation.loader.consts.mastStation 8 ≠ some 1) ∧
    (TakesFrom startStation 7 (.hold true) ∧ TakesFrom startStation 7 (.hold false) ∧
      startStation.loader.consts.stationWith (·.jury) = some 7) ∧
    TakesFrom startStation 1 (.hold true) :=
  ⟨⟨takes_of_test (by decide), rfl, rfl, by decide, by unfold State.HoldsSound; decide, by decide, by decide,
    by decide⟩, ⟨takes_of_test (by decide), by decide⟩,
    ⟨takes_of_test (by decide), takes_of_test (by decide), by decide⟩, takes_of_test (by decide)⟩

theorem witness_CallAndGoFrames :
    (TakesFrom (withRoster startStation) 7 (.call h41 20) ∧
      TakesFrom (withRoster startStation) 7 (.call h41 21) ∧
      TakesFrom (withRoster startStation) 1 (.call h41 1) ∧
      TakesFrom (inPhase .gone []) 7 (.call h41 1)) ∧
    (((withRoster startStation).rosterAt 7).presence = .present ∧
      (withRoster startStation).start.backlog = (withRoster startStation).countBacklog ∧
      (withRoster startStation).attempt? 41 = none ∧
      (withRoster startStation).loader.consts.stationWith (·.jury) = some 7 ∧
      (withRoster startStation).start.phase = .idle ∧ (withRoster startStation).loader.consts.gates.count = 20 ∧
      (withRoster startStation).line.urgent.length < 8) ∧
    (TakesFrom (inPhase .red []) 7 (.go h41) ∧
      TakesFrom (inPhase .red (held .jury)) 7 (.go h41) ∧
      TakesFrom (inPhase .green []) 7 (.go h41) ∧
      TakesFrom (inPhase .red []) 7 (.go ⟨42, 17, 1⟩) ∧ TakesFrom (inPhase .red []) 1 (.go h41) ∧
      TakesFrom (withRoster startStation) 7 (.go h41)) ∧
    ((withRoster startStation).start.phase = .idle ∧ (withRoster startStation).start.current = none) ∧
    ((inPhase .red []).start.current = some h41 ∧
      (inPhase .red []).start.backlog = (inPhase .red []).countBacklog) := by
  refine ⟨⟨?_, ?_, ?_, ?_⟩, by decide, ⟨?_, ?_, ?_, ?_, ?_, ?_⟩, by decide, by decide⟩ <;>
    exact takes_of_test (by decide)

/-- The same in AMBER. -/
def coachedAmber (c : CoachState) : State :=
  { coached c with start := { (coached c).start with phase := .amber } }

/-- The same in RED with the GO mark, COACH the only standing cause. -/
def coachedHeld (c : CoachState) : State :=
  { coached c with start := { (coached c).start with holds := held .coach, goMark := true } }

theorem witness_GateFrameAtTheSequencer :
    (TakesFrom (inPhase .red []) 7 (.gate h41 20 false) ∧
      TakesFrom (inPhase .amber []) 7 (.gate h41 1 true) ∧
      TakesFrom (coached .pending) 7 (.gate h41 9 true) ∧
      TakesFrom (coached .pending) 7 (.gate h41 9 false) ∧
      TakesFrom (coached .granted) 7 (.gate h41 10 true) ∧
      TakesFrom (coached .granted) 7 (.gate h41 9 true) ∧
      TakesFrom (inPhase .green []) 7 (.gate h41 9 false) ∧
      TakesFrom (inPhase .red []) 7 (.gate h41 21 false)) ∧
    (TakesFrom (withRoster startStation) 7 (.gate h41 9 false) ∧
      TakesFrom (coachedAmber .pending) 7 (.gate h41 9 true) ∧
      TakesFrom (coachedAmber .granted) 7 (.gate h41 9 false) ∧
      TakesFrom (coachedAmber .granted) 7 (.gate h41 10 false) ∧
      TakesFrom (coachedHeld .pending) 7 (.gate h41 10 false) ∧
      TakesFrom (coachedHeld .granted) 7 (.gate h41 9 false)) ∧
    ((withRoster startStation).start.phase = .idle ∧ (withRoster startStation).start.current = none ∧
      (coachedAmber .granted).start.gate = 10 ∧ (coachedHeld .pending).start.standing .coach = true ∧
      (coachedHeld .pending).start.backlog = (coachedHeld .pending).countBacklog ∧
      (coachedHeld .pending).loader.state = .run ∧ (coachedHeld .pending).line.urgent.length < 8) ∧
    ((inPhase .red []).start.coach = .none ∧ (inPhase .red []).start.current = some h41 ∧
      ((inPhase .red []).rosterAt 7).presence = .present ∧
      (coached .pending).start.requested = some 9 ∧
      (coached .pending).start.backlog = (coached .pending).countBacklog ∧
      (coached .pending).loader.consts.gates.count = 20) := by
  refine ⟨⟨?_, ?_, ?_, ?_, ?_, ?_, ?_, ?_⟩, ⟨?_, ?_, ?_, ?_, ?_, ?_⟩, by decide, by decide⟩ <;>
    exact takes_of_test (by decide)

/-- The board in a round, with a page shown. -/
def showing (p : Page) : State :=
  { boardStation with
    standings := { round := ⟨2, .opened, none⟩ }
    board := { current := some ⟨⟨p, some 50000⟩, some 120000⟩ } }

/-- An entry of the page queue, without a duration. -/
def entry (p : Page) : PageEntry := ⟨p, none⟩

/-- The board in a round, with a page shown and pages waiting. -/
def waitingPages (p : Page) (q : List PageEntry) : State :=
  { showing p with board := { (showing p).board with queue := q } }

/-- R173: in a full queue a STANDINGS that would join is dropped, a TEXT takes the place of the newest STANDINGS, and
without one that of the oldest TEXT. -/
theorem test_full_queue_makes_room :
    ((waitingPages .hold (List.replicate 16 (entry (.text [0x41])))).arrive (entry (.standings 2))).board.queue =
      List.replicate 16 (entry (.text [0x41])) ∧
    ((waitingPages .hold (List.replicate 15 (entry .hold) ++ [entry (.standings 1)])).arrive
      (entry (.text [0x42]))).board.queue = List.replicate 15 (entry .hold) ++ [entry (.text [0x42])] ∧
    ((waitingPages .hold (entry (.text [0x41]) :: List.replicate 15 (entry (.text [0x43])))).arrive
      (entry (.text [0x42]))).board.queue =
        List.replicate 15 (entry (.text [0x43])) ++ [entry (.text [0x42])] := by decide

theorem witness_RoundAndTextFrames_pages :
    [entry .hold, entry (.text [0x41]), entry (.standings 0)].Pairwise
      (fun a b => a.page.priority ≤ b.page.priority) ∧
    boardStation.board.current = none ∧
    ((showing (.standings 0)).board.current = some ⟨⟨.standings 0, some 50000⟩, some 120000⟩ ∧
      true = decide ((entry (.text [0x41])).page.priority < (Page.standings 0).priority) ∧
      (showing (.text [0x42])).board.current = some ⟨⟨.text [0x42], some 50000⟩, some 120000⟩ ∧
      false = decide ((entry (.text [0x41])).page.priority < (Page.text [0x42]).priority)) ∧
    ((waitingPages .hold (List.replicate 15 (entry .hold))).board.queue.length < 16 ∧
      16 ≤ (waitingPages .hold (List.replicate 16 (entry .hold))).board.queue.length) ∧
    ((Page.standings 0).priority = 3 ∧ (Page.text [0x41]).priority ≠ 3 ∧
      List.replicate 16 (entry (.standings 0)) = List.replicate 15 (entry (.standings 0)) ++ [entry (.standings 0)] ∧
      List.replicate 16 (entry (.text [0x41])) =
        [] ++ entry (.text [0x41]) :: List.replicate 15 (entry (.text [0x41])) ∧
      (∀ f ∈ [entry .hold], f.page.priority = 1) ∧
      (∀ f ∈ List.replicate 15 (entry (.text [0x41])), f.page.priority ≠ 3)) := by decide

theorem witness_RoundAndTextFrames :
    (TakesFrom (showing .hold) 7 (.round 1 .closed 9) ∧ TakesFrom (showing .hold) 7 (.round 2 .refSet 9) ∧
      TakesFrom (showing .hold) 7 (.round 3 .opened 0) ∧ TakesFrom juryStation 1 (.round 4 .closed 1)) ∧
    (TakesFrom (showing (.standings 0)) 7 (.text [0x20]) ∧
      TakesFrom (showing .hold) 7 (.text (List.replicate 32 0x7E)) ∧
      TakesFrom (showing .hold) 1 (.text [0x41])) ∧
    ((showing .hold).loader.roles.board = true ∧ (showing .hold).loader.roles.jury = false ∧
      (showing .hold).standings.round.number = 2 ∧ (showing .hold).board.queue.length < 16 ∧
      (showing (.standings 0)).board.current =
        some ⟨⟨.standings 0, some 50000⟩, some 120000⟩ ∧
      (showing .hold).loader.consts.stationWith (·.jury) = some 7) ∧
    (∀ i, Page.hold ≠ .standings i) := by
  refine ⟨⟨?_, ?_, ?_, ?_⟩, ⟨?_, ?_, ?_⟩, by decide, by simp⟩ <;> exact takes_of_test (by decide)

/-! ### Records of attempts -/

/-- A VOID record. -/
def voided : AttemptRecord := { rec41 .void with voidReason := some .dsq }

theorem witness_AttemptsFollowTheFrames :
    (TakesFrom (holding boardStation voided) 4 (.takeoff h41 false) ∧
      TakesFrom (holding boardStation (rec41 .landed)) 7 (.void h41 .dsq) ∧
      TakesFrom (holding startStation (rec41 .called)) 1 (.speed h41 924) ∧
      TakesFrom (holding boardStation (rec41 .green)) 0 (.phase h41 .red 9 0 1) ∧
      TakesFrom (holding boardStation (rec41 .onInrun)) 1 (.takeoff h41 false)) ∧
    ((holding boardStation (rec41 .green)).attempt? 41 = some (rec41 .green) ∧
      (Body.takeoff h41 false).hdr? = some h41) ∧
    (TakesFrom (holding startStation (rec41 .onInrun)) 2 (.inView h41 3) ∧
      TakesFrom (holding startStation (rec41 .onInrun)) 2 (.viewLost h41 3 .viewLimit) ∧
      TakesFrom (holding startStation (rec41 .airborne)) 2 (.contact h41 3 .left 30000) ∧
      TakesFrom (holding startStation (rec41 .airborne)) 2 (.mastMean h41 1 (some 5) 20 false) ∧
      ¬((holding startStation (rec41 .onInrun)).loader.roles.start = true ∧
        ((rec41 .onInrun).state = .called ∨ (rec41 .onInrun).state = .green)) ∧
      (rec41 .onInrun).state.rank < (impliedState (.contact h41 3 .left 30000)).rank) ∧
    (TakesFrom juryStation 0 (.leave h41 false) ∧ TakesFrom startStation 1 (.takeoff h41 true) ∧
      TakesFrom boardStation 7 (.call h41 20)) ∧
    (juryStation.attempt? 41 = none ∧ startStation.attempt? 41 = none ∧ boardStation.attempt? 41 = none ∧
      boardStation.table.length < 8 ∧ boardStation.loader.roles.jury = false ∧
      boardStation.loader.roles.start = false) := by
  refine ⟨⟨?_, ?_, ?_, ?_, ?_⟩, by decide, ⟨?_, ?_, ?_, ?_, by decide⟩, ⟨?_, ?_, ?_⟩, by decide⟩ <;>
    exact takes_of_test (by decide)

theorem witness_CalledRecordsAreWritten :
    (DeliversFrom (holding boardStation (rec41 .called)) 0 (.phase h41 .red 40 0 0) ∧
      DeliversFrom (holding boardStation (rec41 .called)) 0 (.phase h41 .amber 1 0 255) ∧
      DeliversFrom (holding boardStation (rec41 .called)) 7 (.gate h41 9 true) ∧
      DeliversFrom (holding boardStation (rec41 .called)) 0 (.coach h41 10 9 false) ∧
      DeliversFrom (holding boardStation (rec41 .called)) 0 (.coach h41 10 9 true)) ∧
    ((holding boardStation (rec41 .called)).attempt? 41 = some (rec41 .called) ∧
      (rec41 .called).state = .called) := by
  refine ⟨⟨?_, ?_, ?_, ?_, ?_⟩, by decide⟩ <;> exact .inl (takes_of_test (by decide))

/-- The station's own PHASE, COACH and GATE, and a GATE and a COACH for a record outside CALLED. -/
theorem witness_CalledRecordsAreWritten_own :
    (DeliversOwn (holding startStation (rec41 .called)) (.phase h41 .red 9 0 0) ∧
      DeliversOwn (holding startStation (rec41 .called)) (.coach h41 10 9 false) ∧
      DeliversOwn (holding juryStation (rec41 .called)) (.gate h41 9 true)) ∧
    (DeliversFrom (holding boardStation (rec41 .green)) 7 (.gate h41 9 false) ∧
      DeliversFrom (holding boardStation (rec41 .green)) 0 (.coach h41 10 9 false) ∧
      DeliversFrom (holding boardStation (rec41 .void)) 7 (.gate h41 9 true)) ∧
    (DeliversOwn (holding juryStation (rec41 .published)) (.gate h41 9 true) ∧
      DeliversOwn (holding startStation (rec41 .void)) (.coach h41 10 9 true)) ∧
    ((holding boardStation (rec41 .green)).attempt? 41 = some (rec41 .green) ∧
      (holding boardStation (rec41 .void)).attempt? 41 = some (rec41 .void) ∧
      (rec41 .green).state ≠ .called ∧ (rec41 .void).state ≠ .called) := by
  refine ⟨⟨?_, ?_, ?_⟩, ⟨?_, ?_, ?_⟩, ⟨?_, ?_⟩, by decide⟩ <;>
    first | exact .inl (takes_of_test (by decide)) | exact .inr (echoes_of_test (by decide))

theorem witness_FlightRecordsAreWritten :
    (DeliversFrom (holding boardStation (rec41 .green)) 0 (.leave h41 true) ∧
      DeliversFrom (holding startStation (rec41 .green)) 1 (.speed h41 400) ∧
      DeliversFrom (holding boardStation (rec41 .onInrun)) 1 (.takeoff h41 true) ∧
      DeliversFrom (holding boardStation (rec41 .called)) 0 (.phase h41 .green 10 10 1) ∧
      DeliversFrom (holding boardStation (rec41 .green)) 0 (.phase h41 .gone 10 0 1) ∧
      DeliversFrom (holding boardStation (rec41 .green)) 0 (.phase h41 .red 10 0 1) ∧
      DeliversFrom (holding boardStation (rec41 .airborne)) 0 (.phase h41 .green 10 10 1)) ∧
    ((holding startStation (rec41 .green)).attempt? 41 = some (rec41 .green) ∧
      (rec41 .green).state ≠ .void ∧
      (true = true ↔ (holding startStation (rec41 .green)).loader.roles.start = true ∧
        1 ≠ (holding startStation (rec41 .green)).loader.station ∧
        ((rec41 .green).state = .called ∨ (rec41 .green).state = .green))) ∧
    (DeliversOwn (holding startStation (rec41 .called)) (.phase h41 .green 10 10 1) ∧
      DeliversOwn (holding startStation (rec41 .green)) (.leave h41 false) ∧
      DeliversOwn (holding edgeStation (rec41 .onInrun)) (.speed h41 924) ∧
      DeliversOwn (holding edgeStation (rec41 .onInrun)) (.takeoff h41 false)) ∧
    (false = true ↔ (holding startStation (rec41 .green)).loader.roles.start = true ∧
      (lineOf 0).sender ≠ (holding startStation (rec41 .green)).loader.station ∧
      ((rec41 .green).state = .called ∨ (rec41 .green).state = .green)) := by
  refine ⟨⟨?_, ?_, ?_, ?_, ?_, ?_, ?_⟩, by decide, ⟨?_, ?_, ?_, ?_⟩, by decide⟩ <;>
    first | exact .inl (takes_of_test (by decide)) | exact .inr (echoes_of_test (by decide))

theorem witness_EndedRecordsAreWritten :
    (DeliversFrom (holding boardStation (rec41 .airborne)) 7 (.landing h41 600 .one false true) ∧
      DeliversFrom (holding boardStation (rec41 .landed)) 7 (.result result41) ∧
      DeliversFrom (holding boardStation (rec41 .landed)) 7 (.void h41 .dsq)) ∧
    ((holding boardStation (rec41 .landed)).attempt? 41 = some (rec41 .landed) ∧ result41.hdr = h41 ∧
      (rec41 .airborne).quality = none ∧ (rec41 .landed).revision = none ∧
      (false = true ↔ (holding boardStation (rec41 .landed)).loader.roles.start = true ∧
        7 ≠ (holding boardStation (rec41 .landed)).loader.station ∧
        ((rec41 .landed).state = .called ∨ (rec41 .landed).state = .green))) ∧
    (DeliversOwn (holding juryStation (rec41 .airborne)) (.landing h41 600 .one false true) ∧
      DeliversOwn (holding juryStation (rec41 .landed)) (.result result41) ∧
      DeliversOwn (holding startStation (rec41 .green)) (.void h41 .late)) := by
  refine ⟨⟨?_, ?_, ?_⟩, by decide, ?_, ?_, ?_⟩ <;>
    first | exact .inl (takes_of_test (by decide)) | exact .inr (echoes_of_test (by decide))

/-- Eight records of attempts 1 to 8 in a state, attempt 1 the oldest. -/
def eight (st : AttemptState) : List AttemptRecord :=
  (List.range 8).map (fun i => { hdr := ⟨i + 1, 17, 1⟩, state := st, created := 90000 + BitVec.ofNat 32 i })

/-- The board with a full table of records in a state. -/
def full (st : AttemptState) : State := { withRoster boardStation with table := eight st }

/-- The board with attempt 41 CALLED and attempt 40 in a flight state. -/
def overtaken (st : AttemptState) : State :=
  { holding boardStation (rec41 .called) with
    table := [rec41 .called, { rec41 st with hdr := ⟨40, 16, 1⟩ }] }

theorem witness_EndedRecordsAreWritten_others :
    ((TakesFrom (overtaken .airborne) 0 (.leave h41 false) ∧ TakesFrom (overtaken .green) 0 (.leave h41 false) ∧
        TakesFrom (overtaken .published) 1 (.takeoff h41 false)) ∧
      (overtaken .green).attempt? 41 = some (rec41 .called) ∧
      (overtaken .green).attempt? 40 = some { rec41 .green with hdr := ⟨40, 16, 1⟩ } ∧
      (rec41 .called).state.rank < (impliedState (.leave h41 false)).rank ∧
      (impliedState (.leave h41 false)).flight = true) ∧
    ((TakesFrom (full .void) 7 (.call h41 20) ∧ TakesFrom (full .landed) 7 (.call h41 20) ∧
        TakesFrom (full .landed) 7 (.void h41 .dsq) ∧ TakesFrom (full .landed) 7 (.result result41)) ∧
      (full .landed).attempt? 41 = none ∧ 8 ≤ (full .landed).table.length ∧ (full .void).TableSound ∧
      (full .landed).TableSound ∧
      { hdr := ⟨1, 17, 1⟩, state := .void, created := 90000 } ∈ (full .void).table ∧
      (∀ q ∈ (full .void).table, q ≠ { hdr := ⟨1, 17, 1⟩, state := .void, created := 90000 } →
        q.state = .published ∨ q.state = .void →
        since (full .void).clock q.created < since (full .void).clock 90000) ∧
      { hdr := ⟨1, 17, 1⟩, state := .landed, created := 90000 } ∈ (full .landed).table ∧
      (∀ q ∈ (full .landed).table, q.state ≠ .published ∧ q.state ≠ .void) ∧
      impliedState (.call h41 20) = .called ∧ impliedState (.void h41 .dsq) = .void) ∧
    DeliversFrom (holding startStation (rec41 .green)) 1 (.takeoff h41 false) := by
  refine ⟨⟨⟨?_, ?_, ?_⟩, by decide⟩, ⟨⟨?_, ?_, ?_, ?_⟩, ?_⟩, .inl ?_⟩ <;>
    first | exact takes_of_test (by decide) | (unfold State.TableSound; decide)

/-- A station with a record of attempt 41 GREEN, and attempt 40 AIRBORNE and counted in the backlog. -/
def following (s : State) : State :=
  { withRoster s with
    table := [rec41 .green, { rec41 .airborne with hdr := ⟨40, 16, 1⟩ }]
    start := { phase := .gone, current := some h41, gate := 10, juryGate := 10, backlog := 1 } }

/-- The same without the record of attempt 41. -/
def alone (s : State) : State := { following s with table := [{ rec41 .airborne with hdr := ⟨40, 16, 1⟩ }] }

/-- A START station's own LEAVE moves its record, its own PHASE creates one, a frame of another station does neither,
and a board creates one; the backlog comes to its limit with the own LEAVE. -/
theorem witness_EndedRecordsAreWritten_start :
    (DeliversOwn (following startStation) (.leave h41 false) ∧ DeliversFrom (following startStation) 1 (.speed h41 924) ∧
      (following startStation).attempt? 41 = some (rec41 .green) ∧
      (following startStation).attempt? 40 = some { rec41 .airborne with hdr := ⟨40, 16, 1⟩ } ∧
      (rec41 .green).state.rank < (impliedState (.leave h41 false)).rank) ∧
    (DeliversOwn (alone startStation) (.phase h41 .green 10 10 1) ∧
      DeliversFrom (alone startStation) 1 (.takeoff h41 false) ∧
      DeliversFrom (alone boardStation) 1 (.takeoff h41 false) ∧ (alone startStation).attempt? 41 = none ∧
      (alone boardStation).attempt? 41 = none ∧
      (impliedState (.phase h41 .green 10 10 1)).flight = true ∧ (alone startStation).table.length < 8) ∧
    ((following startStation).BacklogSound ∧ (following startStation).loader.consts.cycle.backlogLimit = 2) := by
  refine ⟨⟨.inr (echoes_of_test (by decide)), .inl (takes_of_test (by decide)), by decide⟩,
    ⟨.inr (echoes_of_test (by decide)), .inl (takes_of_test (by decide)), .inl (takes_of_test (by decide)),
      by decide⟩, ?_⟩
  unfold State.BacklogSound; decide

/-- R55, R72: the own LEAVE brings the count to the limit of 2, and BACKLOG stands with the own number and the count. -/
theorem test_backlog_raised :
    (after (.leaveFrame (lineOf 0).rx h41 false) (sendingOf (following startStation) (.leave h41 false))).start.backlog =
      2 ∧
    (after (.leaveFrame (lineOf 0).rx h41 false) (sendingOf (following startStation) (.leave h41 false))).start.holds =
      [⟨.backlog, 100000, 0, 2⟩] := by decide

/-! ### Landing, scoring and results at a delivered frame -/

/-- The jury with attempt 41 in a state, and a scoring part. -/
def scoring (st : AttemptState) (p : ScoringPart) : State :=
  holding juryStation { rec41 st with scoring := some p }

/-- The mast station with three retained samples, and a record that flew from 12 s to 15 s. -/
def sampled : State :=
  { mastStation with wind := { ring := [⟨117000, 10, 0, false⟩, ⟨120000, 11, 0, false⟩, ⟨150000, 13, 0, false⟩] } }

/-- A record with a takeoff time and a landing time. -/
def flew (takeoff landing : Tick) : AttemptRecord :=
  { rec41 .landed with takeoffTime := some takeoff, landingTime := some landing }

/-- R107: both ends of the window are in it, the mean is rounded half away from zero, and it is partial only where the
oldest retained sample is later than the start; here the pre-window is 500 ms. -/
theorem test_flight_mean :
    sampled.flightMean (flew 122000 150000) = (some 11, 3, false) ∧
    sampled.flightMean (flew 122001 149999) = (some 11, 1, false) ∧
    sampled.flightMean (flew 121999 150000) = (some 11, 3, true) ∧
    sampled.flightMean (rec41 .landed) = (none, 0, false) := by decide

theorem witness_LandingAndMeansAtTheJury_means :
    ((rec41 .landed).takeoffTime = none ∧ (flew 122000 150000).takeoffTime = some 122000 ∧
      (flew 122000 150000).landingTime = some 150000) ∧
    1 ∈ (scoring .landed {}).expectedMasts ∧
    (({ showing .hold with standings := { round := ⟨1, .opened, some 9⟩ } } : State).standings.round.refGate = some 9 ∧
      (1 : Nat) = (rec41 .landed).hdr.round ∧ (showing .hold).standings.round.refGate = none ∧
      (rec41 .landed).juryGate = some 10) := by decide

theorem witness_LandingAndMeansAtTheJury :
    (TakesFrom (scoring .airborne {}) 3 (.landing h41 0 .none true false) ∧
      TakesFrom (holding mastStation (rec41 .airborne)) 7 (.landing h41 600 .both false false) ∧
      TakesFrom (scoring .airborne { means := [⟨1, some 5, 20, false⟩] }) 3
        (.landing h41 268 .both false false)) ∧
    (((scoring .airborne {}).rosterAt 3).presence = .present ∧
      (scoring .airborne {}).attempt? 41 = some { rec41 .airborne with scoring := some {} } ∧
      (scoring .airborne {}).expectedMasts.all (fun m => ([] : List MeanEntry).any (·.mast == m)) = false ∧
      (scoring .airborne { means := [⟨1, some 5, 20, false⟩] }).expectedMasts.all
        (fun m => ([⟨1, some 5, 20, false⟩] : List MeanEntry).any (·.mast == m)) = true ∧
      (holding mastStation (rec41 .airborne)).wind.hasMean 41 = false) ∧
    (TakesFrom (scoring .landed {}) 2 (.mastMean h41 1 (some (-4000)) 160 true) ∧
      TakesFrom (scoring .landed { gather := .done }) 2 (.mastMean h41 1 none 0 false) ∧
      TakesFrom (scoring .landed {}) 3 (.mastMean h41 8 (some 4000) 1 false)) ∧
    ((scoring .landed {}).loader.consts.mastStation 1 = some 2 ∧
      (scoring .landed {}).loader.consts.isScoring 1 = true ∧
      (scoring .landed {}).loader.consts.mastStation 8 ≠ some 3) := by
  refine ⟨⟨?_, ?_, ?_⟩, by decide, ⟨?_, ?_, ?_⟩, by decide⟩ <;> exact takes_of_test (by decide)

/-- The jury with attempt 41 AIRBORNE and its own LANDING under way, from a context that was given a manual distance. -/
def landingOwn (p : ScoringPart) (manual : Option Nat) : State :=
  { scoring .airborne p with contexts := [{ attempt := 41, phase := .sent, manual := manual }] }

/-- A station of number 2, which holds mast 1, with a scoring part of its own for attempt 41. -/
def meanOwn (p : ScoringPart) : State :=
  { scoring .landed p with loader := { (scoring .landed p).loader with station := 2 } }

theorem witness_LandingAndMeansAtTheJury_own :
    ((sendingOf (landingOwn {} (some 250)) (.landing h41 268 .both false false)).Delivers (lineOf 7)
        (.landing h41 268 .both false false) ∧
      (landingOwn {} (some 250)).manualGiven (lineOf 7) 41 {} = some 250) ∧
    ((sendingOf (landingOwn { means := [⟨1, some 5, 20, false⟩] } none) (.landing h41 0 .none true false)).Delivers
        (lineOf 7) (.landing h41 0 .none true false) ∧
      (landingOwn { means := [⟨1, some 5, 20, false⟩] } none).manualGiven (lineOf 7) 41 {} = none) ∧
    (sendingOf (meanOwn {}) (.mastMean h41 1 (some 5) 20 false)).Delivers (lineOf 2)
      (.mastMean h41 1 (some 5) 20 false) :=
  ⟨⟨.inr (echoes_of_test (by decide)), by decide⟩, ⟨.inr (echoes_of_test (by decide)), by decide⟩,
    .inr (echoes_of_test (by decide))⟩

/-- R128, R133: the jury's own LANDING opens the gather from its stamp, with the manual distance of the context that
it removes. -/
theorem test_own_landing_opens_the_gather :
    (after (.landingFrame (lineOf 7).rx h41 268 .both false false)
      (sendingOf (landingOwn {} (some 250)) (.landing h41 268 .both false false))).part? 41 =
        some { gather := .opened, deadline := some (100000 + secondsT hill.flight.gatherS),
               distance := some (250, .manual) } ∧
    (after (.landingFrame (lineOf 7).rx h41 268 .both false false)
      (sendingOf (landingOwn {} (some 250)) (.landing h41 268 .both false false))).contexts = [] := by decide

/-- A part with all five marks. -/
def allMarks : ScoringPart := { marks := ⟨some 37, some 36, some 37, some 38, some 35⟩ }

theorem witness_LandingAndMeansAtTheJury_publish :
    (TakesFrom (scoring .airborne { allMarks with means := [⟨1, some 5, 20, false⟩] }) 3
        (.landing h41 268 .both false false) ∧
      (scoring .airborne { allMarks with means := [⟨1, some 5, 20, false⟩] }).expectedMasts.all
        (fun m => ([⟨1, some 5, 20, false⟩] : List MeanEntry).any (·.mast == m)) = true ∧
      (scoring .airborne { allMarks with distance := some (268, .both) }).Publishes (rec41 .airborne)
        { allMarks with distance := some (268, .both) }) ∧
    (TakesFrom (scoring .landed { allMarks with gather := .opened, distance := some (268, .both) }) 2
        (.mastMean h41 1 (some 6) 20 false) ∧
      TakesFrom (scoring .landed { gather := .opened }) 2 (.mastMean h41 1 (some 6) 20 false)) ∧
    ((none, 0, false) : Option Int × Nat × Bool) =
      (holding mastStation (rec41 .airborne)).flightMean { rec41 .airborne with landingTime := some 99999 } := by
  refine ⟨⟨?_, by decide, ?_⟩, ⟨?_, ?_⟩, by decide⟩ <;>
    first | exact takes_of_test (by decide) | (unfold State.Publishes; decide)

/-- The jury with attempt 41 AIRBORNE and its context. -/
def resolving (c : LandingContext) : State := { scoring .airborne {} with contexts := [c] }

/-- A context in FLIGHT_WAIT with its timer running. -/
def inFlight : LandingContext := { attempt := 41, phase := .flightWait, timer := .running 120000 }

theorem witness_SpanFramesAtTheResolver :
    (TakesFrom (resolving inFlight) 2 (.inView h41 3) ∧
      TakesFrom (resolving inFlight) 3 (.inView h41 3) ∧
      TakesFrom (resolving { inFlight with claimed := [3] }) 2 (.inView h41 3) ∧
      TakesFrom (resolving { inFlight with claims := [⟨2, 3, 130000⟩], timer := .suspended 500 }) 2
        (.viewLost h41 3 .viewLimit) ∧
      TakesFrom (resolving inFlight) 3 (.viewLost h41 3 .presenceOff) ∧
      TakesFrom (resolving inFlight) 2 (.contact h41 3 .right 30000) ∧
      TakesFrom (resolving inFlight) 3 (.contact h41 3 .left 0)) ∧
    ((resolving inFlight).loader.roles.jury = true ∧ ((resolving inFlight).rosterAt 2).presence = .present ∧
      (resolving inFlight).context? 41 = some inFlight ∧
      (resolving inFlight).loader.consts.spanStation 3 = some 2 ∧
      inFlight.claimed.contains 3 = false ∧ inFlight.contacts = [] ∧
      before (resolving inFlight).clock ((heard (resolving inFlight) 2 (.inView h41 3)).eventTime + secondsT 3) = true ∧
      (resolving inFlight).loader.consts.flight.viewS = 3 ∧
      reached (resolving inFlight).clock 
        ((heard (resolving inFlight) 2 (.contact h41 3 .right 30000)).eventTime + millisT 300 + 500) = false) := by
  refine ⟨⟨?_, ?_, ?_, ?_, ?_, ?_, ?_⟩, by decide⟩ <;> exact takes_of_test (by decide)

/-- The jury with one entry on its results list. -/
def listed (r : RoundStatus) : State := { juryStation with standings := { results := [⟨17, { r1 := r }⟩] } }

theorem witness_ResultsListFollowsTheFrames :
    (juryStation.loader.roles.jury = true ∧ TakesFrom (listed (.ok 1300 41 0)) 3 (.result result41) ∧
      TakesFrom (listed (.dsq 40)) 3 (.result { result41 with revision := 1 }) ∧
      TakesFrom (listed .none) 3 (.result result41) ∧ TakesFrom boardStation 7 (.result result41)) ∧
    (result41.hdr.bib ≠ 0 ∧ result41.flags.trial = false ∧
      (listed .none).standings.results.any (fun e => e.bib == 17) = true ∧
      boardStation.standings.results.length < 80 ∧
      ∀ o ∈ (listed .none).standings.results, o.rounds.get 1 = .none) ∧
    (TakesFrom (listed .none) 3 (.void h41 .dns) ∧ TakesFrom (listed (.ok 1300 41 0)) 3 (.void h41 .dsq) ∧
      TakesFrom (listed (.ok 1300 40 0)) 3 (.void h41 .withdrawn) ∧
      TakesFrom (listed .none) 3 (.void h41 .repeatJump)) ∧
    (TakesFrom boardStation 7 (.result { result41 with hdr := ⟨41, 0, 1⟩ }) ∧
      TakesFrom boardStation 7 (.result { result41 with flags := { trial := true } })) := by
  refine ⟨⟨rfl, ?_, ?_, ?_, ?_⟩, by decide, ⟨?_, ?_, ?_, ?_⟩, ?_, ?_⟩ <;> exact takes_of_test (by decide)

/-- The jury's own RESULT and VOID at their echo. -/
theorem witness_ResultsListFollowsTheFrames_own :
    (sendingOf (listed .none) (.result result41)).Delivers (lineOf 7) (.result result41) ∧
    (sendingOf (listed (.ok 1300 41 0)) (.void h41 .dsq)).Delivers (lineOf 7) (.void h41 .dsq) ∧
    (sendingOf (listed .none) (.void h41 .repeatJump)).Delivers (lineOf 7) (.void h41 .repeatJump) ∧
    (sendingOf (listed .none) (.result { result41 with flags := { trial := true } })).Delivers (lineOf 7)
      (.result { result41 with flags := { trial := true } }) ∧
    (listed .none).loader.roles.jury = true :=
  ⟨.inr (echoes_of_test (by decide)), .inr (echoes_of_test (by decide)), .inr (echoes_of_test (by decide)),
    .inr (echoes_of_test (by decide)), rfl⟩

/-- The board with a full results list, on which bib 17 does not stand. -/
def fullList : State :=
  { boardStation with standings := { results := (List.range 80).map (fun i => ⟨i + 100, {}⟩) } }

theorem witness_ResultsListFollowsTheFrames_ends :
    (TakesFrom fullList 7 (.result result41) ∧ TakesFrom fullList 7 (.void h41 .dsq) ∧
      (∀ e ∈ fullList.standings.results, e.bib ≠ 17) ∧ 80 ≤ fullList.standings.results.length) ∧
    (TakesFrom (listed (.ok 1300 41 0)) 3 (.result result41) ∧ result41.revision ≤ 0 ∧
      TakesFrom (listed (.ok 1300 40 3)) 3 (.result result41) ∧
      (listed (.ok 1300 41 0)).standings.results.find? (fun e => e.bib == 17) =
        some ⟨17, { r1 := .ok 1300 41 0 }⟩) ∧
    (TakesFrom boardStation 7 (.void h41 .dns) ∧ TakesFrom boardStation 7 (.void h41 .withdrawn) ∧
      TakesFrom boardStation 7 (.void ⟨41, 0, 1⟩ .dsq) ∧ boardStation.standings.results = []) ∧
    (∃ f : RoundStatus → RoundStatus, f = fun held => match held with
      | .ok total a v => .ok total a v
      | .dsq a => .dsq a
      | _ => .dns 41) := by
  refine ⟨⟨?_, ?_, by decide⟩, ⟨?_, by decide, ?_, by decide⟩, ⟨?_, ?_, ?_, rfl⟩, ⟨_, rfl⟩⟩ <;>
    exact takes_of_test (by decide)

/-- A station that heard station 7 a number of ticks ago. -/
def heardAgo (s : State) (n : Nat) : State :=
  { s with roster := List.replicate 16 { presence := .present, lastHeard := some (s.clock - ticks n) } }

theorem witness_StationSilence :
    ((heardAgo startStation 10000).RosterSound ∧ ((heardAgo startStation 10000).rosterAt 7).presence = .present ∧
      ((heardAgo startStation 10000).rosterAt 7).lastHeard = some 90000 ∧
      10000 ≤ since (heardAgo startStation 10000).clock 90000 ∧
      7 ∈ (heardAgo startStation 10000).loader.consts.required ∧ (heardAgo startStation 10000).HoldsSound ∧
      (heardAgo juryStation 10000).loader.roles.jury = true) ∧
    ((heardAgo startStation 9999).rosterAt 7).silentDue (heardAgo startStation 9999).clock = false := by
  unfold State.RosterSound State.HoldsSound; decide

/-! ### The start sequencer's own events -/

/-- The start station in a phase, with every timer of the sequencer at an expiry. -/
def timed (p : Phase) (e : Tick) : State :=
  { inPhase p [] with start := { (inPhase p []).start with
      readyAt := some e, windowAt := some e, graceAt := some e, settleAt := some e, rejectUntil := some e
      shown := 10 } }

/-- The start station with one entry of the corridor table, heard 30,000 ticks ago. -/
def aging : State := { startStation with start := { corridor := [{ outOfBand with arrival := 70000 }] } }

/-- The start station with the entries of masts 1 and 2, both heard 30,000 ticks ago, with flags of the first; only
mast 1 is counted on the small hill. -/
def agingTwo (f : CorridorFlags) : State :=
  { startStation with start := { corridor := [{ outOfBand with arrival := 70000, flags := f },
      { outOfBand with mast := 2, sender := 3, arrival := 70000 }] } }

/-- An entry of a table of two ages; a STALE or SERVICE one counts no more than before. -/
theorem witness_StartAndWindTimers_table :
    (∃ x ∈ (agingTwo {}).start.corridor, x.mast = 1 ∧ x.aged = false ∧
      30000 ≤ since (agingTwo {}).clock x.arrival) ∧
    (∀ y ∈ (agingTwo {}).start.corridor, y.mast = 1 → y.aged = false → 30000 ≤ since (agingTwo {}).clock y.arrival →
      y.flags.stale = false ∧ y.flags.service = false) ∧
    (∀ f ∈ [({ stale := true } : CorridorFlags), { service := true }],
      (∃ x ∈ (agingTwo f).start.corridor, x.mast = 1 ∧ x.aged = false ∧ 30000 ≤ since (agingTwo f).clock x.arrival) ∧
      ∀ y ∈ (agingTwo f).start.corridor, y.mast = 1 → y.aged = false → 30000 ≤ since (agingTwo f).clock y.arrival →
        y.flags.stale = true ∨ y.flags.service = true) := by decide

theorem witness_StartAndWindTimers :
    ((timed .amber 100000).start.readyAt = some 100000 ∧ reached (timed .amber 100000).clock 100000 = true ∧
      (timed .amber 100000).start.phase = .amber ∧ (timed .green 100000).start.phase = .green ∧
      (timed .green 100000).start.current = some h41 ∧ (timed .green 100000).start.windowAt = some 100000 ∧
      (timed .green 100000).start.graceAt = some 100000 ∧
      secondsLeft (timed .green 190000).clock (timed .green 190000).start.windowAt = 9 ∧
      (timed .green 190000).start.shown = 10 ∧ (timed .green 100000).start.rejectUntil = some 100000) ∧
    (expired (timed .red 100001).clock (timed .red 100001).start.readyAt = false ∧
      (timed .red 100001).start.phase ≠ .green ∧ (timed .red 100000).start.settleAt = some 100000 ∧
      expired (timed .red 100001).clock (timed .red 100001).start.settleAt = false) ∧
    (aging.start.corridor = [{ outOfBand with arrival := 70000 }] ∧ 30000 ≤ since aging.clock 70000 ∧
      aging.HoldsSound ∧ 1 ≤ aging.loader.consts.corridor.minMasts) := by
  unfold State.HoldsSound; decide

theorem witness_LeaveBreakByPhase :
    ((inPhase .green []).loader.roles.start = true ∧ (inPhase .green []).loader.state = .run ∧
      (inPhase .green []).start.barrier = .clear ∧ (inPhase .green []).start.current = some h41 ∧
      (99990 : Tick) = (inPhase .green []).clock - 10) ∧
    ((timed .red 100001).start.phase = .red ∧ (timed .red 100001).start.graceAt.isSome = true) ∧
    ((inPhase .red []).start.graceAt = none ∧ (inPhase .amber []).start.phase = .amber ∧
      (inPhase .gone []).start.phase = .gone) ∧
    (startStation.start.phase = .idle ∧ startStation.start.barrier = .clear) ∧
    juryStation.loader.roles.start = false := by decide

/-- The start station in a phase with a request, COACH and WIND standing, and its PHASE, LEAVE and VOID kept. -/
def cycling (p : Phase) : State :=
  { inPhase p [] with start := { (inPhase p []).start with
      coach := .pending, requested := some 9, goMark := true
      holds := held .coach ++ [⟨.wind, 95000, 0, 0⟩]
      keptPhase := some ⟨.phase h41 p 10 0 1, none⟩
      keptLeave := some ⟨.leave h41 false, some 99000⟩
      keptVoid := some ⟨.void h41 .late, none⟩ } }

/-- The ends of a cycle: a VOID of the jury in RED and GREEN, and an own one; LANDING, MASTMEAN and RESULT in GONE; an
EVENT. What ends none: a VOID of another station or for another attempt, a LANDING in RED, frames in IDLE. -/
theorem witness_LeaveBreakByPhase_ends :
    (DeliversFrom (cycling .red) 7 (.void h41 .dsq) ∧ DeliversFrom (cycling .green) 7 (.void h41 .dns) ∧
      DeliversOwn (cycling .red) (.void h41 .late) ∧ DeliversFrom (cycling .red) 1 (.void h41 .dsq) ∧
      DeliversFrom (cycling .red) 7 (.void ⟨42, 18, 1⟩ .dsq) ∧
      DeliversFrom (withRoster startStation) 7 (.void h41 .dsq)) ∧
    (DeliversFrom (cycling .gone) 7 (.landing h41 268 .both false false) ∧
      DeliversFrom (cycling .gone) 2 (.mastMean h41 1 (some 5) 20 false) ∧
      DeliversFrom (cycling .gone) 7 (.result result41) ∧
      DeliversFrom (cycling .red) 7 (.landing h41 268 .both false false) ∧
      DeliversFrom (cycling .gone) 7 (.landing ⟨42, 18, 1⟩ 268 .both false false)) ∧
    (DeliversFrom (cycling .gone) 7 (.event 2 .competition 2) ∧
      DeliversFrom (withRoster startStation) 7 (.event 2 .competition 2)) ∧
    ((cycling .red).start.current.map (·.attempt) = some h41.attempt ∧
      (cycling .red).loader.consts.stationWith (·.jury) = some 7 ∧ (cycling .red).start.phase ≠ .idle ∧
      ((cycling .red).rosterAt 7).presence = .present ∧ ((cycling .red).rosterAt 1).presence = .present ∧
      (sendingOf (cycling .red) (.void h41 .late)).start.keptVoid.map (·.body) = some (.void h41 .late) ∧
      (cycling .gone).start.phase = .gone ∧ (withRoster startStation).start.phase = .idle) ∧
    (∀ s ∈ [cycling .red, cycling .gone], (after (.voidFrame (rxOf 1) h41 .dsq) s).start.backlog = s.start.backlog) := by
  refine ⟨⟨?_, ?_, ?_, ?_, ?_, ?_⟩, ⟨?_, ?_, ?_, ?_, ?_⟩, ⟨?_, ?_⟩, by decide, by decide⟩ <;>
    first | exact .inl (takes_of_test (by decide)) | exact .inr (echoes_of_test (by decide))

/-- R68, R69: a VOID of the jury in RED and a LANDING in GONE leave IDLE with WIND alone standing, and the copy of an own
VOID kept until its echo. -/
theorem test_cycle_ends :
    ∀ t ∈ [after (.voidFrame (rxOf 7) h41 .dsq) (cycling .red),
        after (.landingFrame (rxOf 7) h41 268 .both false false) (cycling .gone)],
      t.start.phase = .idle ∧ t.start.current = none ∧ t.start.keptPhase = none ∧ t.start.keptLeave = none ∧
      t.start.keptVoid = some ⟨.void h41 .late, none⟩ ∧ t.start.holds = [⟨.wind, 95000, 0, 0⟩] := by decide

/-- The start station and the edge station with barriers BROKEN for a number of ticks. -/
def brokenFor (n : Nat) : State :=
  { station 1 { start := true, edge := true } with
    start := { barrier := .broken (100000 - ticks n) }, edge := { b := .broken (100000 - ticks n) } }

theorem witness_BarriersClearAndStick :
    ((brokenFor 20000).loader.roles.start = true ∧ (brokenFor 20000).loader.roles.edge = true ∧
      (brokenFor 20000).start.barrier = .broken 80000 ∧ 20000 ≤ since (brokenFor 20000).clock 80000 ∧
      (brokenFor 20000).edge.barrier .b = .broken 80000) ∧
    ((brokenFor 19999).start.barrier = .broken 80001 ∧ since (brokenFor 19999).clock 80001 < 20000 ∧
      (brokenFor 19999).edge.barrier .b = .broken 80001) ∧
    (juryStation.loader.roles.start = false ∧ juryStation.loader.roles.edge = false) := by decide

/-- The start station with a lamp that has failed. -/
def lampFailed : State := { startStation with start := { failed := { green := true } } }

theorem witness_PanelsAndLamps :
    ((inPhase .red []).HoldsSound ∧ (inPhase .red []).loader.roles.start = true ∧
      (inPhase .red []).loader.state = .run ∧ (inPhase .red []).start.current = some h41 ∧
      (inPhase .red []).start.coach = .none ∧ (4 : Nat) < (inPhase .red []).start.juryGate ∧
      (inPhase .red []).line.urgent.length < 7) ∧
    ((coached .pending).start.coach = .pending ∧ startStation.start.phase = .idle) ∧
    ((4 : Nat) = (if (8 : BitVec 4) = 1 then 1 else if (8 : BitVec 4) = 2 then 2 else if (8 : BitVec 4) = 4 then 3
      else if (8 : BitVec 4) = 8 then 4 else 0)) ∧
    (startStation.lampOutputs.has .red = true ∧ startStation.start.failed.has .red = false ∧
      startStation.latch.record = none ∧ startStation.lampOutputs.has .green = false) ∧
    (startStation.TakesRecord ∧ lampFailed.TakesRecord ∧ startStation.start.failed = {} ∧
      lampFailed.start.failed ≠ {}) :=
  ⟨by unfold State.HoldsSound; decide, by decide, by decide, by decide, record_of_test (by decide),
    record_of_test (by decide), by decide, by decide⟩

/-! ### The edge timer -/

/-- The edge station with attempt 41 on its inrun, and its run record. -/
def running (a : Option (Tick × Micros)) (b t : Bool) : State :=
  { holding edgeStation (rec41 .onInrun) with
    edge := { micros := 1001000, run := some ⟨h41, a, b, t, false⟩ } }

/-- The same with the complete run record of attempt 40. -/
def edgeOther : State :=
  { running none false false with
    edge := { micros := 1001000, run := some ⟨⟨40, 9, 1⟩, some (1, 2), true, true, false⟩ } }

theorem witness_BarrierBreaks :
    (edgeStation.loader.roles.edge = true ∧ (∀ x, edgeStation.edge.barrier x = .clear) ∧
      ∀ r ∈ edgeStation.table, r.state ≠ .onInrun) ∧
    ((running none false false).table.find? (fun r => r.state == .onInrun) = some (rec41 .onInrun) ∧
      (running none false false).edge.run = some ⟨h41, none, false, false, false⟩ ∧
      (running none false false).edge.a = .clear ∧ (running none false false).edge.t = .clear) ∧
    ((running none true false).edge.run = some ⟨h41, none, true, false, false⟩ ∧
      (running none false true).edge.run = some ⟨h41, none, false, true, false⟩) ∧
    ((holding edgeStation (rec41 .onInrun)).edge.run = none ∧
      (holding edgeStation (rec41 .onInrun)).table.find? (fun r => r.state == .onInrun) =
        some (rec41 .onInrun)) ∧
    (edgeOther.table.find? (fun r => r.state == .onInrun) = some (rec41 .onInrun) ∧
      edgeOther.edge.run = some ⟨⟨40, 9, 1⟩, some (1, 2), true, true, false⟩ ∧ (40 : Nat) ≠ 41 ∧
      edgeOther.edge.a = .clear ∧ edgeOther.edge.b = .clear ∧ edgeOther.edge.t = .clear) ∧
    juryStation.loader.roles.edge = false :=
  ⟨⟨rfl, fun x => by cases x <;> rfl, by decide⟩, by decide, by decide, by decide, by decide, rfl⟩

/-- R84: a break for the attempt on the inrun takes the place of the run record of another attempt. -/
theorem test_run_record_replaced :
    (after .barrierTBreak edgeOther).edge.run = some ⟨h41, none, false, true, false⟩ ∧
    (after .barrierTBreak edgeOther).edge.keptTakeoff = some ⟨.takeoff h41 true, some 99990⟩ := by decide

/-- The small hill's spacing of 5000 mm, and intervals at the four bounds of R87's worked example. -/
theorem witness_SpeedFromTwoBreaks :
    ((running none false false).edge.b = .clear ∧
      (running none false false).table.find? (fun r => r.state == .onInrun) = some (rec41 .onInrun)) ∧
    ((running (some (79989, 0)) false false).edge.run = some ⟨h41, some (79989, 0), false, false, false⟩ ∧
      20000 < since ((running none false false).clock - 10) 79989 ∧
      since ((running none false false).clock - 10) 79990 ≤ 20000) ∧
    ((1000000 - 861538 : Nat) = 138462 ∧
      ((running none false false).edge.micros - 1000 - 861538).toNat = 138462 ∧
      5000 * 36000 ≤ 1300 * 138462 ∧ 400 * 138462 ≤ 5000 * 36000 ∧ 1300 * 138461 < 5000 * 36000 ∧
      400 * 450000 ≤ 5000 * 36000 ∧ 5000 * 36000 < 400 * 450001) ∧
    ((running none true false).edge.run = some ⟨h41, none, true, false, false⟩) := by decide

/-! ### The wind unit -/

/-- The mast station with a wind state. -/
def windy (w : WindState) : State := { mastStation with wind := w }

theorem witness_PollTimesAndHangs :
    ((windy { nextPoll := some 100000 }).wind.nextPoll = some 100000 ∧
      reached (windy {}).clock 100000 = true ∧ reached (windy {}).clock 100001 = false ∧
      (windy {}).wind.master = .auto ∧ (windy {}).wind.bus = .free ∧
      (windy { master := .console }).wind.master = .console ∧
      (windy { bus := .hung, lastGood := some (5, -4000), heldCount := 9 }).wind.bus ≠ .free ∧
      (windy { bus := .hung, lastGood := some (5, -4000), heldCount := 9 }).wind.lastGood = some (5, -4000) ∧
      (windy { bus := .hung, lastGood := some (5, -4000), heldCount := 9 }).wind.heldCount < 10) ∧
    (windy { bus := .busyPoll }).wind.bus = .busyPoll ∧
    ((windy { bus := .busyTransfer, pendingOp := some (.transfer 8 32 []) }).wind.bus = .busyTransfer ∧
      (windy { bus := .busyTransfer, pendingOp := some (.transfer 8 32 []) }).wind.pendingOp =
        some (.transfer 8 32 []) ∧
      (windy {}).console.replies.length < 8) ∧
    ((windy { bus := .releasing true true, pendingOp := some .release }).wind.bus = .releasing true true ∧
      (windy { bus := .releasing false false }).wind.bus = .releasing false false ∧
      (windy { bus := .releasing false false }).wind.pendingOp = none) ∧
    ((windy { bus := .releasing false false, pendingOp := some (.mode .console) }).wind.pendingOp =
        some (.mode .console) ∧
      (windy { bus := .releasing false false, pendingOp := some (.mode .console) }).console.replies.length < 8) := by
  decide

/-- R97: a command taken while the bus is BUSY waits, and the end of the poll carries it out and answers it. -/
theorem test_waiting_operation :
    (after (.sensorMode 1) (windy { bus := .busyPoll })).wind.pendingOp = some (.mode .console) ∧
    (after (.sensorMode 1) (windy { bus := .busyPoll })).console.replies = [] ∧
    (after (.pollComplete (.noAck 2)) (windy { bus := .busyPoll, pendingOp := some (.mode .console) })).wind.master =
      .console ∧
    (after (.pollComplete (.noAck 2)) (windy { bus := .busyPoll, pendingOp := some (.mode .console) })).console.replies
      = [{ command := 0x20, code := .ok }] ∧
    (after (.releaseBurstEnd true)
      (windy { bus := .releasing false false, pendingOp := some .release })).wind.bus = .releasing true false := by decide

theorem witness_PollResults_waiting :
    (windy { bus := .busyPoll }).console.replies.length < 8 ∧
    (windy { bus := .busyPoll }).wind.bus = .busyPoll ∧ (windy { bus := .busyPoll }).WindSound ∧
    exec (.pollComplete (.arbLost 2)) (windy { bus := .busyPoll }) =
      .next (after (.pollComplete (.arbLost 2)) (windy { bus := .busyPoll })) :=
  ⟨by decide, rfl, by unfold State.WindSound; decide, rfl⟩

theorem witness_PollResults :
    ((windy { bus := .busyPoll, goodCount := 9 }).wind.bus = .busyPoll ∧
      (windy { bus := .busyPoll, goodCount := 9 }).wind.pendingOp = none ∧
      (windy { bus := .busyPoll, goodCount := 9 }).WindSound ∧ (1 : Byte).getLsbD 0 = true ∧
      (windy { bus := .busyPoll }).wind.lastSequence ≠ some 0 ∧
      (⟨100000, -4000, 4000, false⟩ : Sample) = ⟨(windy {}).clock, max (-4000) (min 4000 (0x8000 : Word16).toInt),
        max (-4000) (min 4000 (0x7FFF : Word16).toInt), false⟩) ∧
    ((windy { bus := .busyPoll, lastGood := some (1, 2), heldCount := 10, noAnswer := 9 }).wind.heldCount = 10 ∧
      (windy { bus := .busyPoll, lastGood := some (1, 2), heldCount := 10, noAnswer := 9 }).WindSound ∧
      (windy { bus := .busyPoll, lastGood := some (1, 2), heldCount := 10, noAnswer := 9 }).wind.noAnswer = 9 ∧
      (windy { bus := .busyPoll, lastSequence := some 7 }).wind.lastSequence = some 7 ∧
      (0xFE : Byte).getLsbD 0 = false) ∧
    ((windy { bus := .busyPoll, noAnswer := 9 }).wind.missingReported = false ∧
      (windy { bus := .busyPoll, noAnswer := 9, missingReported := true }).wind.missingReported = true ∧
      (windy { bus := .busyPoll, noAnswer := 9, missingReported := true }).WindSound) := by
  unfold State.WindSound; decide

/-- R93: SENSOR_MISSING is not reported again, after a change of the master select has set the count to 0, until a
poll outcome has. -/
theorem test_sensor_missing_once :
    (after (.pollComplete (.noAck 2)) (windy { bus := .busyPoll, noAnswer := 9 })).latch.record =
      some ⟨.sensorMissing, 100000, 0x40⟩ ∧
    (after (.pollComplete (.noAck 2)) (windy { bus := .busyPoll, noAnswer := 9 })).wind.missingReported = true ∧
    (after (.pollComplete (.noAck 2))
      (windy { bus := .busyPoll, noAnswer := 9, missingReported := true })).latch.record = none ∧
    (after (.pollComplete (.data 0 0 1 5))
      (windy { bus := .busyPoll, missingReported := true })).wind.missingReported = false := by decide

theorem witness_SensorCommands_waiting :
    ((windy { bus := .busyPoll }).TakesRecord ∧ (windy { bus := .busyPoll }).wind.pendingOp = none ∧
      (windy { bus := .busyPoll }).wind.bus ≠ .free ∧ (windy { bus := .busyPoll }).wind.bus ≠ .hung) ∧
    ((windy { bus := .releasing true false }).TakesRecord ∧
      (windy { bus := .releasing true false }).wind.pendingOp = none) ∧
    ((windy { bus := .hung }).TakesRecord ∧ (windy { bus := .hung }).wind.pendingOp = none ∧
      (windy { bus := .hung }).wind.bus = .hung) :=
  ⟨⟨record_of_test (by decide), by decide⟩, ⟨record_of_test (by decide), by decide⟩,
    record_of_test (by decide), by decide⟩

theorem witness_SensorCommands :
    (mastStation.TakesRecord ∧ mastStation.loader.roles.mast = true ∧ mastStation.wind.pendingOp = none ∧
      mastStation.wind.bus = .free ∧ mastStation.wind.master = .auto) ∧
    ((windy { master := .console }).TakesRecord ∧ (windy { master := .console }).wind.master = .console ∧
      (windy { bus := .hung }).wind.bus = .hung ∧ (windy { bus := .hung }).TakesRecord) ∧
    (([] : List Byte).length ≤ 8 ∧ (List.replicate 8 (0 : Byte)).length ≤ 8 ∧ (0x07 < 0x08 ∧ 0x77 < 0x78) ∧
      32 < 33) ∧
    ((windy { bus := .busyTransfer, pendingOp := some (.transfer 8 32 []) }).TakesRecord ∧
      (windy { bus := .busyTransfer, pendingOp := some (.transfer 8 32 []) }).wind.pendingOp =
        some (.transfer 8 32 []) ∧
      (windy { bus := .busyTransfer, pendingOp := some (.transfer 8 32 []) }).wind.bus = .busyTransfer) ∧
    ((List.replicate 32 (0 : Byte)).length = 32 ∧ (List.replicate 31 (0 : Byte)).length ≠ 32 ∧
      (([] : List Byte).length = ((transactionSends 8 32 []).dropLast.take 2 ++ [BusItem.stop]).count .receive ∧
        ([0] : List Byte).length = ((transactionSends 8 32 []).take 3).count .receive)) :=
  ⟨⟨record_of_test (by decide), by decide⟩,
    ⟨record_of_test (by decide), by decide, by decide, record_of_test (by decide)⟩, by decide,
    ⟨record_of_test (by decide), by decide⟩, by decide⟩

/-- R99: what a transfer sends, with bytes written and read, with either alone, and as an address test. -/
theorem test_transfer_sends :
    transactionSends 0x40 2 [7] = [.start, .address 0x40 false, .send 7, .repeatedStart, .address 0x40 true,
      .receive, .receive, .stop] ∧
    transactionSends 0x40 0 [7] = [.start, .address 0x40 false, .send 7, .stop] ∧
    transactionSends 0x40 1 [] = [.start, .address 0x40 true, .receive, .stop] ∧
    transactionSends 0x40 0 [] = [.start, .address 0x40 false, .stop] := by decide

/-- R93, R99: a target that does not acknowledge the read address gets a stop after it, and no byte is read; an OK end
with a byte too few is none of this transfer. -/
theorem test_transfer_ends :
    (after (.sensorTransferEnd (.noAck 5) [])
      (windy { bus := .busyTransfer, pendingOp := some (.transfer 0x40 2 [7]) })).wind.sends =
        [.start, .address 0x40 false, .send 7, .repeatedStart, .address 0x40 true, .stop] ∧
    (after (.sensorTransferEnd .ok [1])
      (windy { bus := .busyTransfer, pendingOp := some (.transfer 0x40 2 [7]) })).wind.bus = .busyTransfer := by
  decide

/-! ### The span unit -/

/-- The span station with a span state. -/
def spanning (sp : SpanState) : State := { mastStation with span := sp }

/-- A flight record in a claim state, opened at the station clock's instant. -/
def flightOf (c : ClaimState) : FlightRecord := { attempt := 41, created := 99000, claim := c, viewLimitAt := 100000 }

theorem witness_HeadLinkAndPresence_takeoff :
    ((spanning {}).loader.roles.span = true ∧ (20 < 21 ∧ 20 ≤ 20) ∧ readHeadRecord [0xA5, 1, 0xA7] = none ∧
      readHeadRecord [0xA5, 1, 0xA6] ≠ none) ∧
    (TakesFrom (holding (spanning {}) (rec41 .onInrun)) 1 (.takeoff h41 false) ∧
      (holding (spanning {}) (rec41 .onInrun)).span.presence = false) ∧
    (TakesFrom (holding (spanning { presence := true, presenceChanged := 99000 }) (rec41 .onInrun)) 1
        (.takeoff h41 false) ∧
      before 99000 (100000 : Tick) = true ∧ before 100000 (100000 : Tick) = false ∧
      (holding (spanning { presence := true, presenceChanged := 99000 }) (rec41 .onInrun)).attempt? 41 =
        some (rec41 .onInrun)) :=
  ⟨by decide, ⟨takes_of_test (by decide), rfl⟩, takes_of_test (by decide), by decide⟩

theorem witness_HeadLinkAndPresence :
    ((spanning {}).loader.roles.span = true ∧ (spanning {}).span.heard = true ∧
      (spanning { heard := false }).span.heard = false ∧ readHeadRecord [] = none ∧
      5000 < since (spanning { lastRecord := 94999 }).clock 94999 ∧
      since (spanning { lastRecord := 95000 }).clock 95000 ≤ 5000 ∧ (spanning {}).latch.record = none ∧
      (spanning { flight := some (flightOf .opened) }).span.flight = some (flightOf .opened)) ∧
    juryStation.loader.roles.span = false ∧
    ((spanning { presence := true }).span.presence = true ∧ (spanning {}).span.presence = false ∧
      (flightOf .none).claim = .none ∧ ((flightOf .none).left && (flightOf .none).right) = false ∧
      before 98999 (flightOf .none).created = true ∧ before 99000 (flightOf .none).created = false ∧
      (flightOf .opened).claim = .opened ∧ (spanning {}).span.flight = none) ∧
    (reached (spanning {}).clock (flightOf .opened).viewLimitAt = true ∧
      reached (spanning {}).clock 100001 = false ∧ (flightOf .ended).claim ≠ .opened) := by decide

theorem witness_HeadContacts :
    ((spanning {}).loader.roles.span = true ∧ (spanning {}).span.heard = true ∧ 2001 ≤ 30000 ∧
      (spanning {}).loader.consts.spanEntry (spanning {}).loader.span = some ⟨3, 12000, 14000⟩ ∧
      (spanning {}).span.flight = none) ∧
    (14000 - 12000 < 2001 ∧ 2000 ≤ 14000 - 12000) ∧
    ((spanning { flight := some (flightOf .none) }).span.flight = some (flightOf .none) ∧
      ({ flightOf .none with left := true } : FlightRecord).reported .left = true ∧
      (flightOf .none).reported .left = false ∧
      ¬((flightOf .none).claim = .opened ∧ ((flightOf .none).report .left).bothTracks = true) ∧
      ({ flightOf .opened with right := true } : FlightRecord).reported .left = false ∧
      (({ flightOf .opened with right := true } : FlightRecord).report .left).bothTracks = true) := by decide

/-! ### The landing resolver -/

/-- The contacts of section 7's first worked example, beside one at a tick past the pairing window. -/
def pairing : LandingContext :=
  { attempt := 41, phase := .pairing, anchor := 500119, resolveAt := 503619
    contacts := contacts41 ++ [⟨3, .left, 13400, 503120⟩] }

/-- The jury with attempt 41 in a state and its context. -/
def contextOf (c : LandingContext) (st : AttemptState) : State := { scoring st {} with contexts := [c] }

/-- The jury at the resolution time of that context. -/
def atResolution : State := { resolving pairing with clock := 503619 }

/-- The clauses on the contexts at delivered frames, and on the choice of a track's report. -/
theorem witness_ResolverTimersAndResolution_contexts :
    (TakesFrom (scoring .called {}) 0 (.leave h41 false) ∧ TakesFrom (scoring .green {}) 1 (.speed h41 924) ∧
      TakesFrom (scoring .onInrun {}) 1 (.takeoff h41 false) ∧
      TakesFrom (contextOf { attempt := 41 } .onInrun) 1 (.takeoff h41 false) ∧
      (scoring .called {}).context? 41 = none ∧
      (contextOf { attempt := 41 } .onInrun).context? 41 = some { attempt := 41 } ∧
      (scoring .called {}).attempt? 41 = some { rec41 .called with scoring := some {} } ∧
      reached (100000 : Tick) ((heard (scoring .called {}) 0 (.leave h41 false)).eventTime + secondsT 10) = false ∧
      reached (100000 : Tick)
        ((heard (scoring .onInrun {}) 1 (.takeoff h41 false)).eventTime + secondsT 5) = false) ∧
    (TakesFrom (scoring .landed {}) 2 (.contact h41 3 .left 13000) ∧
      TakesFrom (contextOf pairing .airborne) 2 (.contact h41 3 .left 13000) ∧
      TakesFrom (contextOf { pairing with contacts := contacts41.take 1, anchor := 110000 } .airborne) 2
        (.contact h41 3 .left 13000) ∧
      TakesFrom (contextOf { attempt := 41, phase := .closing } .airborne) 2 (.contact h41 3 .left 13000) ∧
      TakesFrom (contextOf { attempt := 41, phase := .sent } .published) 2 (.contact h41 3 .left 13000) ∧
      (∃ q ∈ pairing.contacts, q.span = 3 ∧ q.track = .left) ∧
      (∀ q ∈ contacts41.take 1, ¬(q.span = 3 ∧ q.track = .left)) ∧
      (scoring .landed {}).loader.consts.spanStation 3 = some 2) ∧
    ((∀ q ∈ contacts41, (q.time - 500119).toNat < 2147483647) ∧
      chooseTrack contacts41 .right = some ⟨3, .right, 13437, 500310⟩ ∧
      chooseTrack [⟨4, .left, 13412, 500120⟩, ⟨3, .left, 13412, 500120⟩, ⟨5, .left, 13413, 500119⟩,
        ⟨6, .left, 13000, 500121⟩] .left = some ⟨3, .left, 13412, 500120⟩) := by
  refine ⟨⟨?_, ?_, ?_, ?_, by decide⟩, ⟨?_, ?_, ?_, ?_, ?_, by decide⟩, by decide⟩ <;>
    exact takes_of_test (by decide)

theorem witness_ResolverTimersAndResolution :
    ((resolving { attempt := 41, inrunAt := 100000 }).context? 41 =
        some { attempt := 41, inrunAt := 100000 } ∧
      reached (resolving { attempt := 41 }).clock 100000 = true ∧
      reached (resolving { attempt := 41 }).clock 100001 = false ∧
      (resolving { inFlight with timer := .running 100000 }).context? 41 =
        some { inFlight with timer := .running 100000 } ∧
      (resolving { inFlight with timer := .suspended 9, claims := [⟨2, 3, 100000⟩] }).context? 41 =
        some { inFlight with timer := .suspended 9, claims := [⟨2, 3, 100000⟩] } ∧
      (resolving { attempt := 41, phase := .closing, resolveAt := 100000, manual := some 268 }).context? 41 =
        some { attempt := 41, phase := .closing, resolveAt := 100000, manual := some 268 }) ∧
    (atResolution.context? 41 = some pairing ∧ pairing.phase = .pairing ∧
      reached atResolution.clock pairing.resolveAt = true ∧
      contacts41 = pairing.contacts.filter (fun r =>
        reached (pairing.anchor + millisT atResolution.loader.consts.flight.pairingMs) r.time) ∧
      ((268, .both, 500119) : Nat × Quality × Tick) =
        landingOf (chooseTrack contacts41 .left) (chooseTrack contacts41 .right) pairing.anchor ∧
      reached 503618 pairing.resolveAt = false) ∧
    (chooseTrack contacts41 .left = some ⟨3, .left, 13412, 500119⟩) := by decide

/-! ### Scoring, keypads and the jury's commands -/

/-- The jury with attempt 41 LANDED, its part complete but for what a field gives, in COMPETITION. -/
def complete (p : ScoringPart) : State :=
  { scoring .landed p with scoring := { mode := some .competition } }

/-- A part with a distance, a closed gather and three marks. -/
def threeMarks : ScoringPart :=
  { distance := some (268, .both), gather := .done, marks := ⟨some 0, some 40, some 37, none, none⟩ }

/-- The jury with a context of attempt 41 in a phase. -/
def contextIn (p : ContextPhase) : State := { scoring .landed {} with contexts := [{ attempt := 41, phase := p }] }

theorem witness_ManualAndForcedScores :
    (juryStation.JuryTakes ∧ (contextIn .inrunWait).JuryTakes ∧ (contextIn .pairing).JuryTakes ∧
      (complete threeMarks).JuryTakes ∧ (scoring .airborne {}).JuryTakes) ∧
    (600 < 601 ∧ juryStation.attempt? 41 = none ∧
      (contextIn .inrunWait).context? 41 = some { attempt := 41, phase := .inrunWait } ∧
      (contextIn .pairing).context? 41 = some { attempt := 41, phase := .pairing } ∧
      (contextIn .pairing).attempt? 41 = some { rec41 .landed with scoring := some {} } ∧
      (scoring .airborne {}).context? 41 = none ∧ (complete {}).context? 41 = none) ∧
    ((complete threeMarks).attempt? 41 = some { rec41 .landed with scoring := some threeMarks } ∧
      threeMarks.stage = .waiting ∧ threeMarks.distance ≠ none ∧ 3 ≤ threeMarks.marks.held.length ∧
      (complete threeMarks).scoring.voidCopies = [] ∧ (rec41 .landed).hdr.bib ≠ 0 ∧
      (complete threeMarks).scoring.mode ≠ some .training ∧ (rec41 .landed).scoring = none) ∧
    (({ gather := .opened, deadline := some 100000 } : ScoringPart).gather = .opened ∧
      reached (complete {}).clock 100000 = true ∧ expired (complete {}).clock (some 100001) = false) :=
  ⟨⟨jury_of_test (by decide) rfl (by decide), jury_of_test (by decide) rfl (by decide),
      jury_of_test (by decide) rfl (by decide), jury_of_test (by decide) rfl (by decide),
      jury_of_test (by decide) rfl (by decide)⟩, by decide, by decide, by decide⟩

/-- The jury at a gather's deadline, and with a part whose manual distance completes it. -/
theorem witness_ManualAndForcedScores_publish :
    ((complete { allMarks with gather := .opened, deadline := some 100000, distance := some (268, .one) }).Publishes
        (rec41 .landed)
        { allMarks with gather := .opened, deadline := some 100000, distance := some (268, .one) } ∧
      reached (complete {}).clock 100000 = true ∧ (rec41 .landed).state ≠ .published) ∧
    (¬(complete threeMarks).Publishes (rec41 .landed) threeMarks ∧
      (complete { threeMarks with force := true }).Publishes (rec41 .landed) { threeMarks with force := true }) ∧
    ((complete { allMarks with gather := .done }).JuryTakes ∧
      (complete { allMarks with gather := .done }).context? 41 = none ∧
      (complete { allMarks with gather := .done }).attempt? 41 =
        some { rec41 .landed with scoring := some { allMarks with gather := .done } }) :=
  ⟨by unfold State.Publishes; decide, by unfold State.Publishes; decide,
    jury_of_test (by decide) rfl (by decide), by decide⟩

/-- A published part at a revision. -/
def publishedPart (v : Nat) : ScoringPart :=
  { threeMarks with stage := .published, revision := some v, refGateUsed := some 12 }

/-- The jury with attempt 41 PUBLISHED at a revision, in a round. -/
def published (v : Nat) (round : RoundRecord) : State :=
  { scoring .published (publishedPart v) with
    scoring := { mode := some .competition }, standings := { round := round } }

theorem witness_CorrectionsPublishARevision :
    (juryStation.JuryTakes ∧ (published 14 ⟨1, .opened, none⟩).JuryTakes ∧
      (published 15 ⟨1, .closing, none⟩).JuryTakes) ∧
    (600 < 601 ∧ 0 < 1 ∧ 5 < 6 ∧ 40 < 41 ∧ juryStation.attempt? 41 = none) ∧
    ((published 14 ⟨1, .opened, none⟩).attempt? 41 =
        some { rec41 .published with scoring := some (publishedPart 14) } ∧
      (publishedPart 14).revision = some 14 ∧ (publishedPart 14).refGateUsed = some 12 ∧
      (published 14 ⟨1, .opened, none⟩).standings.round.number = (rec41 .published).hdr.round ∧
      (published 15 ⟨1, .closed, none⟩).standings.round.state = .closed ∧
      (publishedPart 15).revision = some 15 ∧
      (published 14 ⟨2, .opened, none⟩).standings.round.number ≠ (rec41 .published).hdr.round) :=
  ⟨⟨jury_of_test (by decide) rfl (by decide), jury_of_test (by decide) rfl (by decide),
      jury_of_test (by decide) rfl (by decide)⟩, by decide, by decide⟩

theorem witness_PointsOfAResult :
    (threeMarks.distance = some (268, .both) ∧ (rec41 .landed).juryGate = some 10 ∧
      (rec41 .landed).gateUsed = some 10 ∧ threeMarks.marks.held = [0, 40, 37] ∧ (∀ m ∈ [0, 40, 37], m ≤ 40) ∧
      (complete threeMarks).loader.consts.hill.meterValue % 2 = 0 ∧
      (complete threeMarks).scoring.mode ≠ some .training ∧ (rec41 .landed).hdr.bib ≠ 0) ∧
    (((complete threeMarks).computeResult (rec41 .landed) threeMarks 10 0).wind = none ∧
      ((complete threeMarks).computeResult (rec41 .landed)
        { threeMarks with means := [⟨1, some 6, 20, false⟩] } 10 0).wind = some 6) ∧
    (600 ≤ 600 ∧ 1200 ≤ 1200 ∧ (60 : Nat) % 2 = 0 ∧ (-4000 : Int) ≤ -4000 ∧ (-39 : Int) ≤ -39 ∧ 150 ≤ 150) ∧
    (windValue hill [⟨1, some (-4000), 20, true⟩] = some (-4000) ∧ windValue hill [⟨1, none, 20, true⟩] = none ∧
      windValue hill [⟨1, some 6, 19, false⟩] = none ∧ 1 ≤ hill.wind.minMasts ∧ 0 < hill.weight 1 ∧
      hill.weight 2 = 0) := by decide

/-- The jury with attempt 41 LANDED and unmarked, in COMPETITION. -/
def unmarked : State := complete {}

/-- The same with seat 5 marked, last for attempt 41. -/
def marked : State :=
  { complete { marks := ⟨none, none, none, none, some 40⟩ } with
    scoring := { mode := some .competition, lastMarked := ⟨none, none, none, none, some 41⟩ } }

theorem witness_KeypadMarksAndLamps :
    (unmarked.loader.roles.jury = true ∧ (214 : Byte) = 255 - (1 + 40) ∧ (0 : Byte) ≠ 255 - (1 + 40) ∧
      decide ((1 : Byte).toNat ≠ 1 ∨ unmarked.line.eventNumber = 0 ∨ 40 < (40 : Byte).toNat) = false ∧
      decide ((1 : Byte).toNat ≠ 1 ∨ unmarked.line.eventNumber = 0 ∨ 40 < (41 : Byte).toNat) = true) ∧
    (juryStation.table.filter (fun r => juryStation.takesMarks r && markMissing 1 r) = [] ∧
      juryStation.replaceable 1 = none) ∧
    (unmarked.TableSound ∧ { rec41 .landed with scoring := some {} } ∈ unmarked.table ∧
      unmarked.takesMarks { rec41 .landed with scoring := some {} } = true ∧
      ({} : ScoringPart).marks.get 1 = none ∧ unmarked.table.length = 1) ∧
    (marked.TableSound ∧ (∀ q ∈ marked.table, marked.takesMarks q = true ∧ markMissing 5 q = false) ∧
      marked.scoring.lastMarked.get 5 = some 41) ∧
    ((complete { threeMarks with marks := ⟨some 37, none, some 37, some 38, some 35⟩ }).Publishes (rec41 .landed)
        { allMarks with gather := .done, distance := some (268, .one) }) ∧
    (200 < 201 ∧ startStation.loader.roles.jury = false ∧
      reached juryStation.clock 100000 = true ∧ reached juryStation.clock 100001 = false ∧
      (juryStation.judge.seats.get 5).answer = .off) := by
  unfold State.TableSound State.Publishes; decide

/-- R188: a character with its stop bit low drops the record of its channel, and a gap of 20 ms does not. -/
theorem test_keypad_low_stop :
    let s := juryStation.modSeat 2 (fun c => { c with gathered := [2, 36] })
    ((after (.keypadGapTimeout 2 .lowStop) s).judge.seats.get 2).gathered = [] ∧
    ((after (.keypadGapTimeout 2 (.gap 201)) s).judge.seats.get 2).gathered = [] ∧
    (after (.keypadGapTimeout 2 (.gap 200)) s) = s := by decide

/-- The jury with attempt 41 CALLED, a request PENDING for gate 9. -/
def calledAtJury : State := holding juryStation { rec41 .called with coach := .pending, requested := some 9 }

/-- The jury with a call pending for attempt 41. -/
def callPending : State :=
  { calledAtJury with standings := { pendingCall := some ⟨41, 17, false, 100000⟩ } }

/-- The jury with a VOID record of attempt 41 and a kept VOID frame. -/
def voidKept : State :=
  { holding juryStation (rec41 .void) with scoring := { voidCopies := [⟨h41, .late⟩] } }

theorem witness_JuryCommandsOfferFrames :
    (juryStation.JuryTakes ∧ calledAtJury.JuryTakes ∧ callPending.JuryTakes ∧ voidKept.JuryTakes ∧
      (published 0 ⟨1, .opened, none⟩).JuryTakes ∧
      ({ juryStation with line := {} } : State).TakesRecord) ∧
    ((List.replicate 32 (0x7E : Byte)).length ≤ 32 ∧ 32 < 33 ∧
      (∀ c ∈ List.replicate 32 (0x7E : Byte), 0x20 ≤ c.toNat ∧ c.toNat ≤ 0x7E) ∧ (0x1F : Byte).toNat < 0x20 ∧
      0x7E < (0x7F : Byte).toNat) ∧
    (1 ≤ juryStation.loader.consts.gates.count ∧ juryStation.loader.consts.gates.count < 21 ∧
      juryStation.attempt? 41 = none ∧
      calledAtJury.attempt? 41 = some { rec41 .called with coach := .pending, requested := some 9 } ∧
      calledAtJury.standings.pendingCall = none ∧
      callPending.standings.pendingCall = some ⟨41, 17, false, 100000⟩) ∧
    (2 < 3 ∧ 6 < 7 ∧ 3 = VoidReason.code .dns ∧ 6 = VoidReason.code .repeatJump ∧
      voidKept.attempt? 41 = some (rec41 .void) ∧ (∃ v ∈ voidKept.scoring.voidCopies, v.hdr.attempt = 41) ∧
      (published 0 ⟨1, .opened, none⟩).scoring.voidCopies = [] ∧
      (published 0 ⟨1, .opened, none⟩).standings.round.state ≠ .closed) ∧
    (juryStation.standings.pendingCall = none ∧ juryStation.standings.eventCopy = none ∧
      (0 = EventMode.code .competition ∨ 1 = EventMode.code .competition)) :=
  ⟨⟨jury_of_test (by decide) rfl (by decide), jury_of_test (by decide) rfl (by decide),
      jury_of_test (by decide) rfl (by decide), jury_of_test (by decide) rfl (by decide),
      jury_of_test (by decide) rfl (by decide), record_of_test (by decide)⟩,
    by decide, by decide, by decide, by decide⟩

/-- A STATUS of the start station in IDLE. -/
def statusIdle : StatusPayload := { status0 with roles := { start := true }, start := some ⟨.idle, none, {}, 0⟩ }

/-- The jury in an open round with a start list, its start station heard IDLE. -/
def ready : State :=
  { juryStation with
    roster := List.replicate 16 { presence := .present, lastHeard := some 99000, status := some ⟨statusIdle, 1⟩ }
    standings := { startList := [17], lastAttempt := some 65535, round := ⟨1, .opened, none⟩ } }

theorem witness_StartListAndCalls :
    (juryStation.JuryTakes ∧ ready.JuryTakes ∧ callPending.JuryTakes) ∧
    ([1, 199].Nodup ∧ (∀ b ∈ [1, 199], 1 ≤ b ∧ b ≤ 199) ∧ (∀ b ∈ [1, 199], b ∉ ready.standings.startList) ∧
      ready.standings.startList.length + [1, 199].length ≤ 80 ∧ (List.range 60).length ≤ 60 ∧ (0 < 1 ∧ 199 < 200) ∧
      80 < (List.range 21).length + (List.range 60).length) ∧
    (17 ∈ ready.standings.startList ∧ 18 ∉ ready.standings.startList ∧
      callPending.standings.pendingCall = some ⟨41, 17, false, 100000⟩) ∧
    (20 ≤ ready.loader.consts.gates.count ∧ ready.standings.pendingCall = none ∧
      (∀ r ∈ ready.table, r.state = .landed ∨ r.state = .published ∨ r.state = .void) ∧
      ready.loader.consts.stationWith (·.start) = some 0 ∧ (ready.rosterAt 0).presence = .present ∧
      (ready.rosterAt 0).status = some ⟨statusIdle, 1⟩ ∧ statusIdle.start = some ⟨.idle, none, {}, 0⟩ ∧
      ready.standings.round.state = .opened ∧ ready.table.length < 8 ∧
      ready.standings.lastAttempt = some 65535 ∧ ready.standings.startList.head? = some 17) ∧
    (ready.loader.consts.gates.count < 21 ∧ juryStation.standings.round.state ≠ .opened ∧
      reached callPending.clock 100000 = true ∧ reached callPending.clock 100001 = false ∧
      callPending.attempt? 41 = some { rec41 .called with coach := .pending, requested := some 9 }) :=
  ⟨⟨jury_of_test (by decide) rfl (by decide), jury_of_test (by decide) rfl (by decide),
      jury_of_test (by decide) rfl (by decide)⟩, by decide, by decide, by decide, by decide⟩

/-- The same with the START station in another phase, and with it not PRESENT. -/
def readyIn (p : Phase) (presence : Presence) : State :=
  { ready with
    roster := List.replicate 16 {
      presence := presence, lastHeard := some 99000
      status := some ⟨{ statusIdle with start := some ⟨p, none, {}, 0⟩ }, 1⟩ } }

/-- R157: CALL answers STATE, NOT_FOUND and FULL. -/
theorem test_call_turned_away :
    (after (.call 10 0) (readyIn .red .present)).console.replies = [{ command := 0x33, code := .state }] ∧
    (after (.call 10 0) (readyIn .idle .silent)).console.replies = [{ command := 0x33, code := .state }] ∧
    (after (.call 10 0) { ready with standings := { ready.standings with startList := [] } }).console.replies =
      [{ command := 0x33, code := .notFound }] ∧
    (after (.call 10 0) { ready with table := List.replicate 8 (rec41 .landed) }).console.replies =
      [{ command := 0x33, code := .full }] := by decide

theorem witness_StartListAndCalls_turned_away :
    ((readyIn .red .present).JuryTakes ∧ (readyIn .red .present).standings.pendingCall = none ∧
      ∀ start h part, (readyIn .red .present).loader.consts.stationWith (·.start) = some start →
        ((readyIn .red .present).rosterAt start).presence = .present →
        ((readyIn .red .present).rosterAt start).status = some h → h.payload.start = some part → part.phase ≠ .idle) ∧
    ((readyIn .idle .silent).JuryTakes ∧
      ((readyIn .idle .silent).rosterAt 0).presence ≠ .present) ∧
    (({ ready with standings := { ready.standings with startList := [] } } : State).JuryTakes ∧
      ({ ready with standings := { ready.standings with startList := [] } } : State).standings.startList = []) ∧
    (({ ready with table := List.replicate 8 (rec41 .landed) } : State).JuryTakes ∧
      8 ≤ (List.replicate 8 (rec41 .landed)).length ∧
      ∀ r ∈ List.replicate 8 (rec41 .landed), r.state = .landed) := by
  refine ⟨⟨jury_of_test (by decide) rfl (by decide), rfl, ?_⟩, ⟨jury_of_test (by decide) rfl (by decide), by decide⟩,
    ⟨jury_of_test (by decide) rfl (by decide), rfl⟩, jury_of_test (by decide) rfl (by decide), by decide, by decide⟩
  intro start h part hs _ hh hp
  rw [show (readyIn .red .present).loader.consts.stationWith (·.start) = some 0 by decide, Option.some.injEq] at hs
  subst hs
  rw [show ((readyIn .red .present).rosterAt 0).status =
    some ⟨{ statusIdle with start := some ⟨.red, none, {}, 0⟩ }, 1⟩ by decide, Option.some.injEq] at hh
  subst hh
  rw [← Option.some.inj hp]
  decide

/-- The same with attempt 41 CALLED in the open round 1. -/
def calledInRound (bib : Nat) : State :=
  { ready with
    table := [{ rec41 .called with hdr := ⟨41, bib, 1⟩ }]
    standings := { ready.standings with pendingCall := some ⟨41, bib, decide (bib = 0), 100000⟩ } }

theorem witness_StartListAndCalls_frames :
    (TakesFrom (calledInRound 17) 0 (.phase h41 .red 9 0 0) ∧ TakesFrom (calledInRound 17) 0 (.void h41 .late) ∧
      TakesFrom (calledInRound 0) 0 (.phase ⟨41, 0, 1⟩ .red 9 0 0) ∧
      TakesFrom (calledInRound 17) 0 (.phase ⟨40, 16, 1⟩ .red 9 0 0) ∧
      (calledInRound 17).standings.round.state ≠ .closing ∧
      (calledInRound 17).standings.pendingCall = some ⟨41, 17, false, 100000⟩) ∧
    (TakesFrom (calledInRound 17) 0 (.phase h41 .green 9 10 1) ∧
      TakesFrom (calledInRound 0) 0 (.phase ⟨41, 0, 1⟩ .green 9 10 1) ∧
      (calledInRound 17).standings.round = ⟨1, .opened, none⟩ ∧
      (calledInRound 17).attempt? 41 = some (rec41 .called)) ∧
    (EchoesOf ready (.void h41 .repeatJump) ∧
      EchoesOf { ready with standings := { ready.standings with startList := (List.range 80).map (· + 100) } }
        (.void h41 .repeatJump) ∧
      ready.standings.pendingCall = none ∧ h41.bib ≠ 0 ∧ 17 ∈ ready.standings.startList ∧
      h41.bib ∉ (List.range 80).map (· + 100)) := by
  refine ⟨⟨?_, ?_, ?_, ?_, by decide⟩, ⟨?_, ?_, by decide⟩, ?_, ?_, by decide⟩ <;>
    first | exact takes_of_test (by decide) | exact echoes_of_test (by decide)

/-- The jury in an open round with an attempt of it. -/
def inRound (r : AttemptRecord) : State :=
  { holding juryStation r with standings := { round := ⟨1, .opened, some 12⟩, roundsPlanned := some 2 } }

theorem witness_CloseRound :
    (juryStation.JuryTakes ∧ (inRound (rec41 .landed)).JuryTakes ∧ (inRound (rec41 .published)).JuryTakes) ∧
    (juryStation.standings.round.state ≠ .opened ∧ (inRound (rec41 .landed)).standings.round.state = .opened ∧
      (∃ r ∈ (inRound (rec41 .landed)).table, r.hdr.round = 1 ∧ r.state ≠ .published ∧ r.state ≠ .void) ∧
      (∀ r ∈ (inRound (rec41 .published)).table, r.hdr.round = 1 → r.state = .published ∨ r.state = .void) ∧
      (inRound (rec41 .published)).standings.roundsPlanned = some 2 ∧ (1 < 2 ∧ 1 ≤ 1) ∧
      (inRound (rec41 .published)).line.routine.length < 8 ∧
      (inRound (rec41 .published)).loader.state.isMuted = false) :=
  ⟨⟨jury_of_test (by decide) rfl (by decide), jury_of_test (by decide) rfl (by decide),
      jury_of_test (by decide) rfl (by decide)⟩, by decide⟩

/-- The jury in a CLOSING round with attempt 41 live, its call pending, and attempt 40 in a state. -/
def closing (st other : AttemptState) : State :=
  { holding juryStation (rec41 st) with
    table := [rec41 st, { rec41 other with hdr := ⟨40, 16, 1⟩ }]
    standings := {
      round := ⟨1, .closing, some 12⟩, roundsPlanned := some 2, startList := [31]
      pendingCall := some ⟨41, 17, false, 100000⟩ }
    console := { mask := { cycle := true } } }

/-- The last live attempt of a CLOSING round ends by a RESULT, a VOID or a lapsed call, of the own sending or another's,
and one that ends while another is live. -/
theorem witness_CloseRound_closing :
    (DeliversOwn (closing .landed .published) (.result result41) ∧ DeliversOwn (closing .called .void) (.void h41 .dns) ∧
      DeliversFrom (closing .green .void) 0 (.void h41 .late) ∧
      DeliversFrom (closing .landed .published) 3 (.result result41) ∧
      DeliversOwn (closing .landed .airborne) (.result result41) ∧
      DeliversOwn (closing .landed .airborne) (.void h41 .dsq)) ∧
    ((closing .landed .published).attempt? 41 = some (rec41 .landed) ∧
      (closing .landed .published).standings.round.state = .closing ∧ result41.hdr = h41 ∧
      (closing .landed .published).loader.roles.jury = true ∧
      (closing .landed .published).loader.roles.start = false ∧
      (∀ q ∈ (closing .landed .published).table, q.hdr.attempt ≠ 41 → q.hdr.round = 1 →
        q.state = .published ∨ q.state = .void) ∧
      ∃ q ∈ (closing .landed .airborne).table, q.hdr.attempt ≠ 41 ∧ q.hdr.round = 1 ∧ q.state ≠ .published ∧
        q.state ≠ .void) ∧
    ((closing .called .void).standings.pendingCall = some ⟨41, 17, false, 100000⟩ ∧
      reached (closing .called .void).clock 100000 = true ∧
      (closing .called .void).attempt? 41 = some (rec41 .called) ∧ (rec41 .called).state ≠ .void ∧
      (closing .called .void).loader.state.isMuted = false ∧ (closing .called .void).loader.state ≠ .loading ∧
      (closing .called .void).console.mask.cycle = true ∧ 1 < 2 ∧ (2 : Nat) ≤ 2) := by
  refine ⟨⟨?_, ?_, ?_, ?_, ?_, ?_⟩, by decide, by decide⟩ <;>
    first | exact .inl (takes_of_test (by decide)) | exact .inr (echoes_of_test (by decide))

/-- R163, R164: each of the three ends the CLOSING round 1 of 2 planned, and opens round 2; with attempt 40 in the air
it stays CLOSING. -/
theorem test_closing_round_closes :
    (∀ t ∈ [after (.resultFrame (rxOf 3) result41) (closing .landed .published),
        after (.voidFrame (rxOf 0) h41 .late) (closing .green .void), after .callLapsed (closing .called .void)],
      t.standings.round = ⟨2, .opened, none⟩ ∧
      t.standings.roundCopies = [.round 1 .closed 12, .round 2 .opened 0]) ∧
    (after (.resultFrame (rxOf 3) result41) (closing .landed .airborne)).standings.round = ⟨1, .closing, some 12⟩ := by
  decide

/-! ### The board and the console -/

/-- The board with the LIVE page of attempt 41 in GREEN. -/
def liveBoard (st : AttemptState) (seconds : Nat) : State :=
  { holding boardStation (rec41 st) with board := {
      current := some ⟨⟨.live 41 .green (some (10, 80000)), none⟩, none⟩
      shownSeconds := some seconds, nextRow := some 100000, ready := true } }

/-- The board with attempt 41 in a state and a page shown. -/
def boardOf (st : AttemptState) (p : PageEntry) (holds : CauseSet) : State :=
  { holding boardStation (rec41 st) with board := { current := some ⟨p, none⟩, knownHolds := holds } }

/-- A STATUS of the start station with a cause, and one without. -/
def statusHolds (c : CauseSet) : StatusPayload :=
  { status0 with roles := { start := true }, start := some ⟨.red, some 41, c, 0⟩ }

theorem witness_BoardTimers_frames :
    (TakesFrom (boardOf .called ⟨.standings 0, none⟩ {}) 0 (.phase h41 .green 9 10 1) ∧
      (∀ q ∈ (boardOf .called ⟨.standings 0, none⟩ {}).pages, q.isLive = false) ∧
      (Page.standings 0).priority ≠ 1 ∧ boardStation.loader.consts.stationWith (·.start) = some 0) ∧
    (TakesFrom (boardOf .green ⟨.live 41 .green (some (10, 80000)), none⟩ {}) 0 (.phase h41 .gone 9 0 1) ∧
      TakesFrom (boardOf .onInrun ⟨.live 41 .gone none, none⟩ {}) 1 (.speed h41 924) ∧
      TakesFrom (boardOf .airborne ⟨.live 41 .gone none, none⟩ {}) 7 (.landing h41 268 .both false false)) ∧
    (TakesFrom (boardOf .landed ⟨.standings 0, none⟩ {}) 7 (.result result41) ∧
      TakesFrom (boardOf .published ⟨.result result41, none⟩ {}) 7 (.result result41) ∧
      (∀ q ∈ (boardOf .landed ⟨.standings 0, none⟩ {}).pages, q.isLiveOf 41 = false) ∧
      (∀ f ∈ (boardOf .landed ⟨.standings 0, none⟩ {}).board.queue, f.page.isResult 41 (fun _ => true) = false)) ∧
    (TakesFrom (boardOf .landed ⟨.standings 0, none⟩ {}) 0 (.status (statusHolds { wind := true })) ∧
      TakesFrom (boardOf .landed ⟨.hold, none⟩ { wind := true }) 0 (.status (statusHolds {})) ∧
      ({ wind := true } : CauseSet).isEmpty = false ∧ ({} : CauseSet).isEmpty = true) := by
  refine ⟨⟨?_, by decide⟩, ⟨?_, ?_, ?_⟩, ⟨?_, ?_, by decide⟩, ?_, ?_, by decide⟩ <;>
    exact takes_of_test (by decide)

theorem witness_BoardTimers :
    ((showing .hold).board.current = some ⟨⟨.hold, some 50000⟩, some 120000⟩ ∧
      reached (showing .hold).clock 120000 = false ∧
      reached ({ showing .hold with clock := 120000 } : State).clock 120000 = true ∧
      ([] : List PageEntry) = (showing .hold).board.queue.dropWhile (fun f => match f.page with
        | .standings i => pageCount (showing .hold).standings.results.length ≤ i
        | _ => false)) ∧
    ((liveBoard .green 9).board.current = some ⟨⟨.live 41 .green (some (10, 80000)), none⟩, none⟩ ∧
      (liveBoard .green 9).attempt? 41 = some (rec41 .green) ∧
      8 = 10 - (since (liveBoard .green 9).clock 80000).toNat / 10000 ∧
      (liveBoard .green 9).board.shownSeconds ≠ some 8 ∧ (liveBoard .green 8).board.shownSeconds = some 8 ∧
      (liveBoard .airborne 9).attempt? 41 = some (rec41 .airborne)) ∧
    ((liveBoard .green 9).board.nextRow = some 100000 ∧ reached (liveBoard .green 9).clock 100000 = true ∧
      reached 99999 100000 = false ∧ true = (decide ((liveBoard .green 9).board.row = 0) &&
        (liveBoard .green 9).board.ready)) ∧
    (boardStation.board.current = none ∧ boardStation.board.nextRow = none) ∧
    (1 ≤ 1 ∧ 1 ≤ ([true, false] : List Bool).length + 4 ∧ 1 ≤ 6 ∧ 6 ≤ ([true, false] : List Bool).length + 4) := by
  decide

/-- R181: the five parts of a row period in their order, and the panel scan outputs after it and before its last part. -/
theorem test_row_period :
    rowItems [true, false] 3 =
      [.blank true, .column true, .column false, .latch true, .latch false, .rowSelect 3, .blank false] ∧
    (rowItems [true, false] 3).foldl PanelOutputs.drive {} = ⟨3, [true, false], false, false⟩ ∧
    ((rowItems [true, false] 3).take 6).foldl PanelOutputs.drive ⟨2, [true], false, false⟩ =
      ⟨3, [true, false], false, true⟩ := by decide

/-- A jury station whose console holds a number of replies. -/
def replying (n : Nat) : State :=
  { juryStation with console := { replies := List.replicate n { command := 1, code := .ok } } }

theorem witness_ConsoleRecordsAreGated :
    (consoleKind .hold = some 0x37 ∧ Instr.hold.wf = true ∧ consoleKind .statusQuery = some 0x01) ∧
    (({ resetAsserted := true } : State).resetAsserted = true ∧
      ({ console := { skipping := true } } : State).console.skipping = true) ∧
    (8 ≤ (replying 8).console.replies.length ∧ (replying 7).console.replies.length < 8 ∧
      (replying 7).resetAsserted = false ∧ (replying 7).console.skipping = false) ∧
    (State.reset.loader.state = .loading ∧ startStation.loader.state ≠ .loading ∧
      consoleRole 0x37 startStation.loader.roles = false ∧ consoleRole 0x37 juryStation.loader.roles = true ∧
      needsEvent 0x37 = true ∧ needsEvent 0x30 = false ∧
      ({ juryStation with line := {} } : State).line.eventNumber = 0) := by decide

theorem witness_ConsolePort :
    ((replying 7).resetAsserted = false ∧ (replying 7).console.replies.length < 8 ∧
      State.reset.loader.state = .loading ∧ (replying 7).loader.state ≠ .loading) ∧
    ((replying 7).TakesRecord ∧ (63 < 64 ∧ 64 ≤ 64 ∧ 255 < 256) ∧
      (List.replicate 60 (0 : Byte)).length ≤ 60 ∧ 60 < (List.replicate 61 (0 : Byte)).length ∧
      knownCommand 0x37 1 = false ∧ (100 ≤ 100 ∧ 100 < 101 ∧ 99 < 100)) ∧
    (({ unit := [⟨0x83, []⟩] } : ConsoleState).unit = ⟨0x83, []⟩ :: [] ∧
      (replying 1).console.replies = { command := 1, code := .ok } :: [] ∧ (replying 1).console.unit = [] ∧
      ({ notices := [⟨0, .goIgnored⟩] } : ConsoleState).notices = ⟨0, .goIgnored⟩ :: []) ∧
    (juryStation.console.mask.has (NoticeBody.stationSilent 3).number.1 = true ∧
      juryStation.console.notices.length < 32 ∧ 32 ≤ (List.replicate 32 (⟨0, .goIgnored⟩ : Notice)).length ∧
      juryStation.console.mask.has (NoticeBody.goIgnored).number.1 = false) :=
  ⟨by decide, ⟨record_of_test (by decide), by decide⟩, by decide, by decide⟩

theorem witness_RestartEmptiesTheCompetition :
    (inPhase .green []).TakesRecord ∧ (running none false false).TakesRecord ∧ mastStation.TakesRecord ∧
    (published 0 ⟨1, .opened, none⟩).TakesRecord ∧ lampFailed.TakesRecord ∧
    lampFailed.start.failed ≠ {} ∧ lampFailed.line.eventNumber ≠ 0 :=
  ⟨record_of_test (by decide), record_of_test (by decide), record_of_test (by decide),
    record_of_test (by decide), record_of_test (by decide), by decide, by decide⟩

/-! ### Frames as bytes, and the invariants -/

theorem witness_FramesRoundTrip :
    (0 ≤ 15 ∧ 255 ≤ 255 ∧ (Body.result result41).inRange = true ∧ (Body.status statusStart).inRange = true ∧
      (Body.text (List.replicate 32 0x7E)).inRange = true ∧ (Body.landing h41 0 .none true true).inRange = true) ∧
    decodeFrame (frameBytes 15 255 65535 (.landing h41 600 .manual true true)) =
      some (15, 255, 65535, .landing h41 600 .manual true true) := by decide +kernel

/-- The invariants hold of a station in the middle of an event, and a step from it answers a next state. -/
theorem witness_EveryStepKeeps :
    (published 3 ⟨1, .opened, none⟩).QueuesSound ∧ (published 3 ⟨1, .opened, none⟩).MutedQuiet ∧
    (published 3 ⟨1, .opened, none⟩).ConsoleSound ∧ (published 3 ⟨1, .opened, none⟩).RosterSound ∧
    (windy { heldCount := 10, goodCount := 10, noAnswer := 10 }).WindSound ∧
    (published 3 ⟨1, .opened, none⟩).TableSound ∧ (inPhase .red (held .jury)).HoldsSound ∧
    (inPhase .green []).HoldsSound ∧ (inPhase .green []).CycleSound ∧ (listed (.ok 1300 41 0)).StandingsSound ∧
    (showing (.standings 0)).BoardSound ∧ (∀ s : State, s.pending = [.hold] → ∃ t, step s = .next t) := by
  unfold State.QueuesSound State.MutedQuiet State.ConsoleSound State.RosterSound State.WindSound
    State.TableSound State.HoldsSound State.CycleSound State.StandingsSound State.BoardSound State.pages
  refine ⟨by decide, by decide, by decide, by decide, by decide, by decide, by decide, by decide, by decide,
    by decide, by decide, fun s h => ?_⟩
  simp only [step, h, exec, execHold]
  exact ⟨_, rfl⟩

/-- A delivered EVENT changes the event number. -/
theorem witness_EventNumberChangesOnlyBy :
    (after (.eventFrame ⟨7, 9, 0⟩ 2 .competition 4) boardStation).line.eventNumber = 2 ∧
    boardStation.line.eventNumber = 1 ∧
    (after (.statusFrame (rxOf 7) status0) { boardStation with line := {} }).line.eventNumber = 1 ∧
    (after (.statusFrame (rxOf 0) status0) { boardStation with line := {} }).line.eventNumber = 0 ∧
    (after .restart juryStation).line.eventNumber = 0 := by decide

end Sys2Proof.Machine.Tests
end

section
/-! SUPPORT. What a step keeps: the bounds of the queues and lists, the command queue, the clock, the reset pin, and,
but for frames, RESTART and a reset, the current event number. One lemma a command, from the laws of its block. -/

namespace Sys2Proof.Machine

open Sys2Proof

/-! ## What is kept -/

/-- The bounds of the queues, the console, the roster and the wind unit are kept. -/
structure Bounds (s t : State) : Prop extends OutKeeps s t where
  roster : s.RosterSound → t.RosterSound
  wind : s.WindSound → t.WindSound

namespace Bounds

variable {s t u : State}

theorem refl (s : State) : Bounds s s := ⟨.refl s, id, id⟩

theorem trans (h : Bounds s t) (k : Bounds t u) : Bounds s u :=
  ⟨h.toOutKeeps.trans k.toOutKeeps, k.roster ∘ h.roster, k.wind ∘ h.wind⟩

/-- A change outside the roster and the wind unit keeps the bounds where it keeps those of the outbox. -/
theorem of_out (h : OutKeeps s t) (r : t.roster = s.roster) (w : t.wind = s.wind) : Bounds s t :=
  ⟨h, fun k => by unfold State.RosterSound; rwa [r], fun k => by unfold State.WindSound; rwa [w]⟩

end Bounds

/-- A command takes no time: the command queue, the clock and the reset pin are as before. -/
structure Timeless (s t : State) : Prop where
  pending : t.pending = s.pending
  clock : t.clock = s.clock
  subTick : t.subTick = s.subTick
  resetAsserted : t.resetAsserted = s.resetAsserted

theorem Timeless.refl (s : State) : Timeless s s := ⟨rfl, rfl, rfl, rfl⟩

theorem Timeless.trans {s t u : State} (h : Timeless s t) (k : Timeless t u) : Timeless s u :=
  ⟨k.pending.trans h.pending, k.clock.trans h.clock, k.subTick.trans h.subTick,
    k.resetAsserted.trans h.resetAsserted⟩

/-- What every command but the two resets keeps. -/
structure Keeps (s t : State) : Prop extends Bounds s t, Timeless s t

theorem Keeps.refl (s : State) : Keeps s s := ⟨.refl s, .refl s⟩

theorem Keeps.trans {s t u : State} (h : Keeps s t) (k : Keeps t u) : Keeps s u :=
  ⟨h.toBounds.trans k.toBounds, h.toTimeless.trans k.toTimeless⟩

/-- What every command keeps but a frame, RESTART and the two resets: the event number too. -/
structure KeepsEvent (s t : State) : Prop extends Keeps s t where
  event : t.line.eventNumber = s.line.eventNumber

/-- `t` with the outbox, the table and the blocks but the wind unit of `s`. -/
def restoreCalm (s t : State) : State := { restoreBlocks s t with wind := t.wind }

/-- `t` with the outbox, the table and the blocks of `s`, but of the wind unit with the mean records alone. -/
def restoreTracked (s t : State) : State :=
  { restoreBlocks s t with wind := { t.wind with means := s.wind.means } }

theorem blockTracked : BlockRestore restoreTracked := ⟨fun _ => rfl, fun _ _ _ => rfl, fun _ _ _ => rfl⟩

/-- From `s` to `t` nothing changes but the table, the blocks, of the wind unit its mean records alone, and the outbox. -/
abbrev OnlyTracked := Only restoreTracked

namespace KeepsEvent

variable {s t u : State}

theorem refl (s : State) : KeepsEvent s s := ⟨.refl s, rfl⟩

theorem trans (h : KeepsEvent s t) (k : KeepsEvent t u) : KeepsEvent s u :=
  ⟨h.toKeeps.trans k.toKeeps, k.event.trans h.event⟩

/-- A change of the blocks but the wind unit, and of the outbox. -/
theorem of_calm (e : restoreCalm s t = s) (k : OutKeeps s t) : KeepsEvent s t where
  toBounds := .of_out k (congrArg State.roster e :) (congrArg State.wind e :)
  pending := (congrArg State.pending e :)
  clock := (congrArg State.clock e :)
  subTick := (congrArg State.subTick e :)
  resetAsserted := (congrArg State.resetAsserted e :)
  event := (congrArg (·.line.eventNumber) e :)

/-- A change of one block but the wind unit, and of its outbox. -/
theorem of_only {R : State → State → State} (h : Only R s t)
    (w : ∀ u v, restoreCalm s (R u v) = restoreCalm s v := by exact fun _ _ => rfl) : KeepsEvent s t :=
  of_calm (by rw [← w s t, h.same]; rfl) h.keeps

/-- A change of the wind unit and its outbox. -/
theorem of_wind (h : OnlyWind s t) (w : s.WindSound → t.WindSound) : KeepsEvent s t where
  toOutKeeps := h.keeps
  roster := fun k => by
    have r : t.roster = s.roster := (congrArg State.roster h.same :)
    unfold State.RosterSound; rwa [r]
  wind := w
  pending := (congrArg State.pending h.same :)
  clock := (congrArg State.clock h.same :)
  subTick := (congrArg State.subTick h.same :)
  resetAsserted := (congrArg State.resetAsserted h.same :)
  event := (congrArg (·.line.eventNumber) h.same :)

theorem of_tracked (h : OnlyTracked s t) : KeepsEvent s t where
  toOutKeeps := h.keeps
  roster := fun k => by
    have r : t.roster = s.roster := (congrArg State.roster h.same :)
    unfold State.RosterSound; rwa [r]
  wind := fun ⟨h1, h2, h3, h4⟩ => by
    have r : t.wind.ring = s.wind.ring := (congrArg (·.wind.ring) h.same :)
    have n : t.wind.heldCount = s.wind.heldCount := (congrArg (·.wind.heldCount) h.same :)
    have g : t.wind.goodCount = s.wind.goodCount := (congrArg (·.wind.goodCount) h.same :)
    have a : t.wind.noAnswer = s.wind.noAnswer := (congrArg (·.wind.noAnswer) h.same :)
    exact ⟨by rwa [r], by rwa [n], by rwa [g], by rwa [a]⟩
  pending := (congrArg State.pending h.same :)
  clock := (congrArg State.clock h.same :)
  subTick := (congrArg State.subTick h.same :)
  resetAsserted := (congrArg State.resetAsserted h.same :)
  event := (congrArg (·.line.eventNumber) h.same :)

/-- A change of the line interface that leaves the queues and the event number. -/
theorem of_line (s : State) (l : LineState) (u : l.urgent = s.line.urgent) (r : l.routine = s.line.routine)
    (e : l.eventNumber = s.line.eventNumber) : KeepsEvent s { s with line := l } where
  queues := fun h => by unfold State.QueuesSound; rwa [u, r]
  muted := fun h m => by rw [u, r]; exact h m
  console := id
  roster := id
  wind := id
  pending := rfl
  clock := rfl
  subTick := rfl
  resetAsserted := rfl
  event := e

/-- A change of the console that keeps its bounds. -/
theorem of_console (s : State) (c : ConsoleState) (r : c.replies.length ≤ s.console.replies.length)
    (n : c.notices.length ≤ s.console.notices.length) : KeepsEvent s { s with console := c } where
  queues := id
  muted := id
  console := fun h => ⟨r.trans h.1, n.trans h.2⟩
  roster := id
  wind := id
  pending := rfl
  clock := rfl
  subTick := rfl
  resetAsserted := rfl
  event := rfl

/-- A change of the fault latch alone. -/
theorem of_latch (s : State) (l : FaultLatch) : KeepsEvent s { s with latch := l } where
  queues := id
  muted := id
  console := id
  roster := id
  wind := id
  pending := rfl
  clock := rfl
  subTick := rfl
  resetAsserted := rfl
  event := rfl

/-- A change of the judge port alone. -/
theorem of_judge (s : State) (j : JudgeState) : KeepsEvent s { s with judge := j } where
  queues := id
  muted := id
  console := id
  roster := id
  wind := id
  pending := rfl
  clock := rfl
  subTick := rfl
  resetAsserted := rfl
  event := rfl

theorem raise (h : KeepsEvent s t) (n : NoticeBody) : KeepsEvent s (t.raise n) :=
  h.trans (of_only ((Only.refl blockOut t).raise n))

theorem report (h : KeepsEvent s t) (k : FaultKind) (d : Nat) : KeepsEvent s (t.report k d) :=
  h.trans (of_only ((Only.refl blockOut t).report k d))

theorem reply (h : KeepsEvent s t) (r : Reply) : KeepsEvent s (t.reply r) :=
  h.trans (of_only ((Only.refl blockOut t).reply r))

theorem answer (h : KeepsEvent s t) (k : Nat) (c : ReplyCode) : KeepsEvent s (t.answer k c) := h.reply _

theorem offer (h : KeepsEvent s t) (b : Body) (e : Option Tick) : KeepsEvent s (t.offer b e) :=
  h.trans (of_only ((Only.refl blockOut t).offer b e))

theorem ite {c : Prop} [Decidable c] {a b : State} (h : KeepsEvent s a) (k : KeepsEvent s b) :
    KeepsEvent s (if c then a else b) := by split <;> assumption

theorem ifRole (h : KeepsEvent s t) (role : RoleSet → Bool) {act : State → State}
    (k : ∀ t, KeepsEvent t (act t)) : KeepsEvent s (t.ifRole role act) := by
  unfold State.ifRole; split
  · exact h.trans (k t)
  · exact h

theorem clearAssembler (s : State) : KeepsEvent s s.clearAssembler := of_console _ _ le_rfl le_rfl

end KeepsEvent

/-- A console command comes to its act on a cleared assembler, or keeps everything. -/
theorem KeepsEvent.command_or (s : State) (kind : Nat) (ok : Bool) (role : RoleSet → Bool) (act : State → State) :
    KeepsEvent s (s.command kind ok role act) ∨ s.command kind ok role act = act s.clearAssembler := by
  rcases s.command_cases kind ok role act with ⟨-, x⟩ | ⟨-, -, x⟩ | ⟨-, -, ⟨-, x⟩ | ⟨-, ⟨r, x⟩ | ⟨-, -, x⟩⟩⟩ <;> rw [x]
  · exact .inl (.refl s)
  · exact .inl (.of_console _ _ le_rfl le_rfl)
  · exact .inl (.of_console _ _ le_rfl le_rfl)
  · exact .inl ((clearAssembler s).answer _ _)
  · exact .inr rfl

/-- A console command keeps what its act keeps. -/
theorem Keeps.command {s : State} (kind : Nat) (ok : Bool) (role : RoleSet → Bool) {act : State → State}
    (k : ∀ t, Keeps t (act t)) : Keeps s (s.command kind ok role act) := by
  rcases KeepsEvent.command_or s kind ok role act with h | h
  · exact h.toKeeps
  · rw [h]; exact (KeepsEvent.clearAssembler s).toKeeps.trans (k _)

/-- A console command whose act keeps the event number keeps it. -/
theorem KeepsEvent.command {s : State} (kind : Nat) (ok : Bool) (role : RoleSet → Bool) {act : State → State}
    (k : ∀ t, KeepsEvent t (act t)) : KeepsEvent s (s.command kind ok role act) := by
  rcases KeepsEvent.command_or s kind ok role act with h | h
  · exact h
  · rw [h]; exact (KeepsEvent.clearAssembler s).trans (k _)

/-- A jury command behind the EVENT test. -/
theorem KeepsEvent.juryCommand {s : State} (kind : Nat) (ok : Bool) {act : State → State}
    (k : ∀ t, KeepsEvent t (act t)) :
    KeepsEvent s (s.command kind ok (·.jury) (fun s => s.eventTest kind act)) :=
  .command kind ok _ fun t => by
    unfold State.eventTest
    exact .ite ((refl t).answer _ _) (k t)

theorem Only.ite {R : State → State → State} {s a b : State} {c : Prop} [Decidable c] (h : Only R s a)
    (k : Only R s b) : Only R s (if c then a else b) := by split <;> assumption

/-! ## The wind unit's bounds (R94, R101, R103) -/

/-- The ring holds at most 160 samples after another has been entered (R101). -/
theorem pushSample_length_le (ring : List Sample) (x : Sample) (h : ring.length ≤ 160) :
    (pushSample ring x).length ≤ 160 := by
  unfold pushSample ringLimit
  split
  · simp; omega
  · simp; omega

/-- A count that stops at its limit (R103). -/
theorem countUp_le (n : Nat) : (if n < countLimit then n + 1 else countLimit) ≤ 10 := by
  unfold countLimit; split <;> omega

/-- A change of the wind unit and its outbox that keeps the bounds of the ring and the counts. -/
structure WindStep (s t : State) : Prop extends Only restoreWind s t where
  sound : s.WindSound → t.WindSound

namespace WindStep

variable {s t u : State}

theorem refl (s : State) : WindStep s s := ⟨.refl blockWind s, id⟩

theorem trans (h : WindStep s t) (k : WindStep t u) : WindStep s u :=
  ⟨h.toOnly.trans k.toOnly, k.sound ∘ h.sound⟩

theorem keepsEvent (h : WindStep s t) : KeepsEvent s t := .of_wind h.toOnly h.sound

/-- A change of the wind unit that keeps its bounds. -/
theorem modWind (h : WindStep s t) {f : WindState → WindState}
    (k : t.WindSound → (t.modWind f).WindSound) : WindStep s (t.modWind f) :=
  ⟨Only.modWind h.toOnly _, k ∘ h.sound⟩

theorem of_out (h : WindStep s t) (k : OnlyOut t u) : WindStep s u := by
  have w : u.wind = t.wind := (congrArg State.wind k.same :)
  refine h.trans ⟨⟨blockWind, (congrArg (restoreWind t) k.same :), k.keeps⟩, ?_⟩
  unfold State.WindSound
  rw [w]
  exact id

theorem ite {c : Prop} [Decidable c] {a b : State} (h : WindStep s a) (k : WindStep s b) :
    WindStep s (if c then a else b) := by split <;> assumption

theorem reply (h : WindStep s t) (r : Reply) : WindStep s (t.reply r) := h.of_out ((Only.refl blockOut t).reply r)

theorem answer (h : WindStep s t) (k : Nat) (c : ReplyCode) : WindStep s (t.answer k c) := h.reply _

theorem report (h : WindStep s t) (k : FaultKind) (d : Nat) : WindStep s (t.report k d) :=
  h.of_out ((Only.refl blockOut t).report k d)

theorem setStable (h : WindStep s t) (v : Bool) : WindStep s (t.setStable v) := by
  obtain ⟨con, e, -⟩ := t.setStable_form v
  exact h.trans ⟨Only.setStable (.refl blockWind t) v, by rw [e]; exact id⟩

theorem setBus (h : WindStep s t) (b : BusState) : WindStep s (t.setBus b) := by
  obtain ⟨con, e, -⟩ := t.setBus_form b
  exact h.trans ⟨Only.setBus (.refl blockWind t) b, by rw [e]; exact id⟩

theorem beginTransaction (h : WindStep s t) (b : BusState) (items : List BusItem) :
    WindStep s (t.beginTransaction b items) := (h.modWind id).setBus b

theorem endTransaction (h : WindStep s t) (o : TransferOutcome) (items : List BusItem) :
    WindStep s (t.endTransaction o items) := (h.modWind id).setBus .free

theorem beginBurst (h : WindStep s t) (a b : Bool) : WindStep s (t.beginBurst a b) := (h.modWind id).setBus _

theorem detectHang (h : WindStep s t) (a : Nat) : WindStep s (t.detectHang a) := (h.beginBurst _ _).report _ _

theorem answerTransfer (h : WindStep s t) (n : Nat) : WindStep s (t.answerTransfer n) := (h.modWind id).reply _

theorem answerOp (h : WindStep s t) (k : Nat) (c : ReplyCode) : WindStep s (t.answerOp k c) :=
  (h.modWind id).answer _ _

/-- A failed poll holds the last good sample at most ten times (R94). -/
theorem failedPoll (h : WindStep s t) : WindStep s t.failedPoll := by
  have k := h.modWind (f := fun w => { w with goodCount := 0 }) fun ⟨h1, h2, _, h4⟩ => ⟨h1, h2, Nat.zero_le _, h4⟩
  unfold State.failedPoll
  extract_lets s1
  split
  · exact k
  · split
    · rename_i n
      exact k.modWind fun ⟨h1, h2, h3, h4⟩ => ⟨pushSample_length_le _ _ h1, n, h3, h4⟩
    · exact (k.modWind id).setStable false

/-- A good poll counts to ten and no further (R103). -/
theorem goodPoll (h : WindStep s t) (x y : Int) (q : Byte) : WindStep s (t.goodPoll x y q) := by
  unfold State.goodPoll
  extract_lets x' y' s1
  have k : WindStep s s1 := h.modWind fun ⟨h1, _, h3, _⟩ => by
    exact ⟨pushSample_length_le _ _ h1, Nat.zero_le _, countUp_le _, Nat.zero_le _⟩
  exact .ite (k.setStable true) k

/-- The no-answer count stops at ten (R93). -/
theorem noAnswer (h : WindStep s t) : WindStep s t.noAnswer := by
  unfold State.noAnswer
  split
  · rename_i n
    have k := h.modWind (f := fun w => { w with noAnswer := w.noAnswer + 1 }) fun ⟨h1, h2, h3, _⟩ => ⟨h1, h2, h3, n⟩
    exact .ite ((k.modWind id).report _ _) k
  · exact h

theorem answered (h : WindStep s t) : WindStep s t.answered :=
  h.modWind fun ⟨h1, h2, h3, _⟩ => ⟨h1, h2, h3, Nat.zero_le _⟩

theorem pollOutcome (h : WindStep s t) (r : PollResult) : WindStep s (t.pollOutcome r) := by
  unfold State.pollOutcome
  cases r with
  | data x y status q => exact .ite (.ite h.answered.failedPoll (h.goodPoll _ _ _)) h.answered.failedPoll
  | noAck k => exact h.noAnswer.failedPoll
  | arbLost k => exact h.failedPoll

theorem setMaster (h : WindStep s t) (m : MasterSelect) : WindStep s (t.setMaster m) := by
  unfold State.setMaster
  split
  · exact h
  · refine WindStep.setStable (h.modWind ?_) false
    exact fun ⟨h1, _, _, _⟩ => ⟨h1, Nat.zero_le _, Nat.zero_le _, Nat.zero_le _⟩

theorem carryOut (h : WindStep s t) : WindStep s t.carryOut := by
  unfold State.carryOut
  split
  · split
    · exact h
    · exact (h.setMaster _).answerOp _ _
    · exact .ite (h.answerOp _ _)
        (.ite (((h.modWind id).detectHang _).answerTransfer _) ((h.modWind id).beginTransaction _ _))
    · exact h.beginBurst _ _
  · exact h

theorem takeOp (h : WindStep s t) (k : Nat) (o : Option SensorOp) : WindStep s (t.takeOp k o) := by
  unfold State.takeOp
  split
  · exact h.answer _ _
  · split
    · exact h.answer _ _
    · exact (h.modWind id).carryOut

end WindStep
end Sys2Proof.Machine
end

section
namespace Sys2Proof.Machine

open Sys2Proof

/-! ## What a delivery keeps -/

namespace Only

variable {s t : State}

/-- A change of one block but the wind unit, and of its outbox. -/
theorem tracked {R : State → State → State} (h : Only R s t)
    (w : ∀ u v, restoreTracked s (R u v) = restoreTracked s v := by exact fun _ _ => rfl) : OnlyTracked s t :=
  ⟨blockTracked, by rw [← w s t, h.same]; rfl, h.keeps⟩

/-- A change of the wind unit's mean records, and of its outbox. -/
theorem trackedWind (h : OnlyWind s t) (m : { t.wind with means := s.wind.means } = s.wind) : OnlyTracked s t :=
  ⟨blockTracked, calc
    restoreTracked s t = { restoreTracked s t with wind := { t.wind with means := s.wind.means } } := rfl
    _ = { restoreTracked s t with wind := s.wind } := by rw [m]
    _ = restoreTracked s (restoreWind s t) := rfl
    _ = s := by rw [h.same]; rfl, h.keeps⟩

end Only

/-- A delivered frame changes nothing of the wind unit but its mean records (R108, R109). -/
theorem State.windFrame_means (s : State) (l : LineHdr) (b : Body) :
    { (s.windFrame l b).wind with means := s.wind.means } = s.wind := by
  have again : ∀ bs, (s.reofferAll bs).wind = s.wind := fun bs =>
    (congrArg State.wind ((Only.refl blockOut s).reofferAll bs).same :)
  unfold State.windFrame
  split
  · unfold State.windLanding
    split
    · rfl
    · split
      · rfl
      · split <;> rfl
  · split <;> rfl
  · split
    · rw [again]
    · rfl
  · rfl

/-- Changes of the table change nothing of the wind unit but its mean records (R109). -/
theorem State.windChange_means (s : State) (c : Change) :
    { (s.windChange c).wind with means := s.wind.means } = s.wind := by
  unfold State.windChange
  split
  · rfl
  · split <;> rfl

namespace OnlyTracked

variable {s t : State}

theorem withTable (h : OnlyTracked s t) (v : List AttemptRecord) : OnlyTracked s { t with table := v } :=
  ⟨h.block, h.same, h.keeps.trans (.of_eq rfl rfl rfl)⟩

theorem ifRole (h : OnlyTracked s t) (role : RoleSet → Bool) {act : State → State}
    (k : ∀ t, OnlyTracked t (act t)) : OnlyTracked s (t.ifRole role act) := by
  unfold State.ifRole; split
  · exact h.trans (k t)
  · exact h

theorem windChange (h : OnlyTracked s t) (c : Change) : OnlyTracked s (t.windChange c) :=
  h.trans (.trackedWind (Only.windChange (.refl blockWind t) c) (t.windChange_means c))

theorem windChanges (s : State) (cs : List Change) : OnlyTracked s (cs.foldl State.windChange s) :=
  Only.foldl (fun h c => windChange h c) cs (.refl blockTracked s)

/-- Handing changes of the table to the blocks. -/
theorem handChanges (h : OnlyTracked s t) (l : LineHdr) (byLanding : Bool) (cs : List Change) :
    OnlyTracked s (t.handChanges l byLanding cs) := by
  unfold State.handChanges
  refine ifRole (ifRole (ifRole (ifRole (ifRole (ifRole (ifRole (ifRole h _ fun t => ?_) _ fun t => ?_) _ fun t => ?_) _
    fun t => ?_) _ fun t => ?_) _ fun t => ?_) _ fun t => ?_) _ fun t => ?_
  · exact (Only.refl blockStart t).recountBacklog.tracked
  · exact (Only.foldl (fun h _ => h.edgeChange _) cs (.refl blockEdge t)).tracked
  · exact windChanges t cs
  · exact (Only.foldl (fun h _ => h.spanChange _) cs (.refl blockSpan t)).tracked
  · exact (Only.foldl (f := fun s c => s.landingChange l c) (fun h _ => h.landingChange _ _) cs
      (.refl blockLanding t)).tracked
  · exact (OnlyScoring.foldl (fun h _ => h.scoringChange _) cs (.refl t)).tracked
  · split
    · exact .refl blockTracked t
    · exact (Only.refl blockStandings t).testClosing.tracked
  · exact ((Only.foldl (f := fun s c => s.boardChange byLanding c) (fun h _ => h.boardChange _ _) cs
      (.refl blockBoard t)).boardListChange _).tracked

/-- Handing a frame to the blocks. -/
theorem handFrame (h : OnlyTracked s t) (l : LineHdr) (b : Body) (cs : List Change) :
    OnlyTracked s (t.handFrame l b cs) := by
  unfold State.handFrame
  refine ifRole (ifRole (ifRole (ifRole (ifRole (ifRole (ifRole (ifRole h _ fun t => ?_) _ fun t => ?_) _ fun t => ?_) _
    fun t => ?_) _ fun t => ?_) _ fun t => ?_) _ fun t => ?_) _ fun t => ?_
  · exact ((Only.refl blockStart t).startTake l b).tracked
  · exact ((Only.foldl (fun h _ => h.edgeChange _) cs (.refl blockEdge t)).edgeFrame l b).tracked
  · exact (windChanges t cs).trans
      (.trackedWind (Only.windFrame (.refl blockWind _) l b) (State.windFrame_means _ l b))
  · exact ((Only.foldl (fun h _ => h.spanChange _) cs (.refl blockSpan t)).spanFrame l b).tracked
  · exact ((Only.foldl (f := fun s c => s.landingChange l c) (fun h _ => h.landingChange _ _) cs
      (.refl blockLanding t)).landingFrame l b).tracked
  · exact ((OnlyScoring.foldl (fun h _ => h.scoringChange _) cs (.refl t)).scoringFrame l b _).tracked
  · exact ((Only.refl blockStandings t).standingsTake l b cs).tracked
  · exact ((Only.refl blockBoard t).boardTake _ l b cs).tracked

theorem raiseChanges (h : OnlyTracked s t) (cs : List Change) : OnlyTracked s (t.raiseChanges cs) :=
  Only.foldl (f := State.raiseChange) (fun h c => by
    unfold State.raiseChange; split
    · exact h
    · exact h.raise _) cs h

theorem forceOthers (h : OnlyTracked s t) (n : Nat) (put : Bool) : OnlyTracked s (t.forceOthers n put).1 := by
  unfold State.forceOthers; split
  · exact withTable h _
  · exact h

theorem addRecord (h : OnlyTracked s t) (r : AttemptRecord) : OnlyTracked s (t.addRecord r).1 :=
  raiseChanges (forceOthers (withTable h _) _ _) _

theorem takeKnown (h : OnlyTracked s t) (own : Bool) (l : LineHdr) (b : Body) (k : AttemptHdr)
    (r : AttemptRecord) : OnlyTracked s (t.takeKnown own l b k r).1 := by
  unfold State.takeKnown
  extract_lets s1 r' s2
  have k2 : OnlyTracked s s2 := withTable (Only.ite h (h.raise _)) _
  split
  · exact k2
  · exact raiseChanges (forceOthers k2 _ _) _

theorem removeRecord (h : OnlyTracked s t) (l : LineHdr) (r : AttemptRecord) :
    OnlyTracked s (t.removeRecord l r) := handChanges (withTable h _) _ _ _

theorem createRecord (h : OnlyTracked s t) (l : LineHdr) (b : Body) (k : AttemptHdr) :
    OnlyTracked s (t.createRecord l b k).1 := by
  unfold State.createRecord; dsimp only; split
  · exact addRecord h _
  · exact addRecord (removeRecord h _ _) _
  · exact addRecord (removeRecord (h.report _ _) _ _) _
  · exact h.raise _

/-- The attempt tracker changes the table, and through removals and notices the blocks and the outbox (R35, R42). -/
theorem track (h : OnlyTracked s t) (l : LineHdr) (b : Body) : OnlyTracked s (t.track l b).1 := by
  unfold State.track; split
  · exact withTable h _
  · split
    · exact h
    · split
      · exact takeKnown h _ _ _ _ _
      · split
        · exact createRecord h _ _ _
        · exact h.raise _

theorem voidLocally (h : OnlyTracked s t) (n : Nat) : OnlyTracked s (t.voidLocally n).1 := by
  unfold State.voidLocally
  split
  · exact h
  · split
    · exact h
    · exact raiseChanges (withTable h _) _

end OnlyTracked

/-- What the roster takes of a frame keeps everything but the sender's entry. -/
theorem KeepsEvent.rosterTake (s : State) (l : LineHdr) (b : Body) : KeepsEvent s (s.rosterTake l b) := by
  have set : ∀ v : List RosterEntry, v.length = s.roster.length → KeepsEvent s { s with roster := v } :=
    fun v e => ⟨⟨⟨.of_eq rfl rfl rfl, fun h => e.trans h, id⟩, ⟨rfl, rfl, rfl, rfl⟩⟩, rfl⟩
  unfold State.rosterTake
  extract_lets e e' heard changed s1 s2 s3
  have k1 : KeepsEvent s s1 := set _ (List.length_set ..)
  have k3 : KeepsEvent s s3 := by
    have k2 : KeepsEvent s s2 := .ite (k1.raise _) k1
    exact .ite (k2.raise _) k2
  split
  · refine k3.trans ?_
    unfold State.rosterReaders
    exact ((refl s3).ifRole _ fun t => .of_only (Only.refl blockStart t).evalRosterHolds).ifRole _
      fun t => .of_only (OnlyScoring.refl t).gatherAll.toOnly
  · exact k3

/-- Fewer waiting frames and another event number. -/
theorem Keeps.purge (s : State) (n : Nat) (keep : QueuedFrame → Bool) :
    Keeps s { s with line := { s.line with
      eventNumber := n, urgent := s.line.urgent.filter keep, routine := s.line.routine.filter keep } } :=
  ⟨.of_out (.purge s n keep) rfl rfl, ⟨rfl, rfl, rfl, rfl⟩⟩

theorem Keeps.setEvent (s : State) (n : Nat) : Keeps s { s with line := s.line.setEvent n } := by
  unfold LineState.setEvent; split
  · exact .refl s
  · exact .purge s n _

theorem Keeps.lineTake (s : State) (l : LineHdr) (b : Body) : Keeps s (s.lineTake l b) := by
  unfold State.lineTake; split
  · exact .purge s _ _
  · split
    · exact .setEvent s _
    · exact .refl s
  · exact .refl s

/-- A delivered frame keeps the bounds, and changes the event number as the line interface takes it (R5, R6). -/
theorem State.deliver_keeps (s : State) (l : LineHdr) (b : Body) : Keeps s (s.deliver l b) := by
  have k := (KeepsEvent.rosterTake s l b).toKeeps
  unfold State.deliver; dsimp only; split
  · split
    · exact (k.trans (.lineTake _ l b)).trans
        (KeepsEvent.of_tracked (.handFrame (.track (.refl blockTracked _) l b) l b _)).toKeeps
    · exact k
  · exact k

/-- The event number after a delivery is what the line interface makes of the frame (R5, R6). -/
theorem State.deliver_eventNumber (s : State) (l : LineHdr) (b : Body) :
    (s.deliver l b).line.eventNumber =
      if s.loader.state.base = .run ∧ s.passesFilter l b = true then (s.lineTake l b).line.eventNumber
      else s.line.eventNumber := by
  have o := (OnlyDelivery.rosterTake (.refl blockDelivery s) l b).same
  have d : (s.rosterTake l b).loader = s.loader := (congrArg State.loader o :)
  have e := (KeepsEvent.rosterTake s l b).event
  have p : (s.rosterTake l b).passesFilter l b = s.passesFilter l b := by
    unfold State.passesFilter; rw [e]
  have lt : ((s.rosterTake l b).lineTake l b).line.eventNumber = (s.lineTake l b).line.eventNumber := by
    unfold State.lineTake State.fromJury
    rw [d, e]
    split
    · rfl
    · split
      · simp only [LineState.setEvent, e]; split <;> simp_all
      · exact e
    · exact e
  unfold State.deliver
  dsimp only
  rw [d, p]
  by_cases r : s.loader.state.base = .run <;> by_cases f : s.passesFilter l b = true
  · rw [if_pos r, if_pos f, if_pos ⟨r, f⟩, ← lt]
    exact (KeepsEvent.of_tracked (.handFrame (.track (.refl blockTracked _) l b) l b _)).event
  · rw [if_pos r, if_neg f, if_neg (by simp [f])]; exact e
  · rw [if_neg r, if_neg (by simp [r])]; exact e
  · rw [if_neg r, if_neg (by simp [r])]; exact e

/-! ## What a frame command keeps -/

/-- Entry into MUTED keeps the bounds: nothing waits to be sent (R4). -/
theorem KeepsEvent.mute (s : State) (kind : Nat) : KeepsEvent s (s.mute kind) := by
  have quiet : ∀ t : State, KeepsEvent t { t with
      loader := { t.loader with state := .muted (t.loader.state == StationState.run) }
      line := { t.line with urgent := [], routine := [], nextStatus := none, nextCorridor := none } } :=
    fun t => ⟨⟨⟨⟨fun _ => by simp [State.QueuesSound], fun _ _ => ⟨rfl, rfl⟩, id⟩, id, id⟩, ⟨rfl, rfl, rfl, rfl⟩⟩, rfl⟩
  exact ((((refl s).ifRole _ fun t => .of_only (Only.refl blockStart t).startMuted).trans (quiet _)).report _ _)

theorem KeepsEvent.modLine {s t : State} (h : KeepsEvent s t) (f : LineState → LineState)
    (u : (f t.line).urgent = t.line.urgent) (r : (f t.line).routine = t.line.routine)
    (e : (f t.line).eventNumber = t.line.eventNumber) : KeepsEvent s (t.modLine f) := h.trans (.of_line t _ u r e)

/-- What a frame heard does to the line before its delivery keeps all but the line's activity; the delivery follows
where the frame is the station's own at its echo, or another station's (R3 to R5, R13). -/
theorem State.receive_cases (s : State) (h : RxHdr) (b : Body) :
    KeepsEvent s (s.receive h b) ∨
      ∃ line l, line.urgent = s.line.urgent ∧ line.routine = s.line.routine ∧
        line.eventNumber = s.line.eventNumber ∧ l.rx = h ∧
        s.receive h b = ({ s with line := line } : State).deliver l b := by
  unfold State.receive
  by_cases r : s.resetAsserted = true
  · rw [if_pos r]; exact .inl (.refl s)
  rw [if_neg r]
  by_cases d : (s.loader.state == .loading) = true
  · rw [if_pos d]; exact .inl (.of_line _ _ rfl rfl rfl)
  rw [if_neg d]
  cases s.line.tx with
  | some g =>
    dsimp only
    by_cases own : g.line.rx = h ∧ g.body = b
    · rw [if_pos own]
      unfold State.echo
      dsimp only
      split
      · exact .inr ⟨{ s.line.endTx b with busyUs := some b.lineUs }, g.line, rfl, rfl, rfl, own.1, rfl⟩
      · exact .inl (.of_line _ _ rfl rfl rfl)
    · rw [if_neg own]; exact .inl (.refl s)
  | none =>
    dsimp only
    split
    · exact .inl (.of_line _ _ rfl rfl rfl)
    · split
      · unfold State.hearOther
        dsimp only
        have k : KeepsEvent s { s with line := s.line.heard b } := .of_line _ _ rfl rfl rfl
        split
        · split
          · exact .inl k
          · exact .inl (k.trans (.mute _ _))
        · exact .inr ⟨{ s.line.heard b with yieldMark := false }, h.stamped (s.startStamp b), rfl, rfl, rfl, rfl, rfl⟩
      · exact .inl (.of_line _ _ rfl rfl rfl)

/-- Every frame command keeps the bounds. -/
theorem State.receive_keeps (s : State) (h : RxHdr) (b : Body) : Keeps s (s.receive h b) := by
  rcases s.receive_cases h b with k | ⟨line, l, u, r, e, -, x⟩
  · exact k.toKeeps
  · rw [x]; exact (KeepsEvent.of_line s line u r e).toKeeps.trans (State.deliver_keeps _ _ _)

/-! ## The load, RESTART and the passing of time -/

/-- The load's end changes the loader, to a state that is not MUTED. -/
theorem KeepsEvent.withLoader (s : State) (l : Loader) (m : l.state.isMuted = false) :
    KeepsEvent s { s with loader := l } where
  queues := id
  muted := fun _ k => absurd (m.symm.trans k) (by simp)
  console := id
  roster := id
  wind := id
  pending := rfl
  clock := rfl
  subTick := rfl
  resetAsserted := rfl
  event := rfl

theorem KeepsEvent.firstStatus {s t : State} (h : KeepsEvent s t) : KeepsEvent s t.firstStatus :=
  (h.modLine _ rfl rfl rfl).offer _ _

theorem KeepsEvent.enterInvalid (s : State) (detail : Nat) (digest : Word16) :
    KeepsEvent s (s.enterInvalid detail digest) := ((withLoader s _ rfl).report _ _).firstStatus

/-- The wind unit enters RUN with an empty ring and its counts at 0 (R112). -/
theorem WindStep.windEntry (s : State) : WindStep s s.windEntry :=
  (refl s).modWind fun _ => ⟨Nat.zero_le _, Nat.zero_le _, Nat.zero_le _, Nat.zero_le _⟩

theorem KeepsEvent.startBlocks (s : State) (broken : BarrierInputs) : KeepsEvent s (s.startBlocks broken) := by
  unfold State.startBlocks
  refine ((((((refl s).ifRole _ fun t => ?_).ifRole _ fun t => ?_).ifRole _ fun t => ?_).ifRole _ fun t => ?_).ifRole _
    fun t => ?_).ifRole _ fun t => ?_
  · exact .of_only ((Only.refl blockStart t).startEntry _)
  · exact .of_only ((Only.refl blockEdge t).modEdge _)
  · exact (WindStep.windEntry t).keepsEvent
  · exact .of_only ((Only.refl blockSpan t).modSpan _)
  · exact .of_judge t _
  · exact .of_only (Only.refl blockBoard t).boardEntry

theorem KeepsEvent.enterRun (s : State) (digest : Word16) (k : Constants) (broken : BarrierInputs) :
    KeepsEvent s (s.enterRun digest k broken) := by
  refine (((withLoader s (s.loader.enterRun digest k) rfl).trans (startBlocks _ broken)).trans ?_).firstStatus
  exact (refl _).ifRole _ fun t => .of_line t _ rfl rfl rfl

/-- The wind unit at a restart has an empty ring and its counts at 0 (R112). -/
theorem WindStep.windRestart (s : State) : WindStep s s.windRestart := by
  refine WindStep.setStable ((refl s).modWind ?_) false
  exact fun _ => ⟨Nat.zero_le _, Nat.zero_le _, Nat.zero_le _, Nat.zero_le _⟩

/-- Emptying the attempt table keeps what handing its removals to the blocks keeps (R57). -/
theorem KeepsEvent.emptyTable (s : State) : KeepsEvent s s.emptyTable := by
  unfold State.emptyTable
  extract_lets cs s1 s2
  have k : KeepsEvent s s1 := .of_tracked (OnlyTracked.withTable (.refl blockTracked s) [])
  exact (k.ifRole _ fun t => .of_only (Only.refl blockStart t).startRestart).trans
    (.of_tracked (.handChanges (.refl blockTracked _) _ _ _))

/-- RESTART keeps the bounds, and makes the event number 0 (R18). -/
theorem State.restart_keeps (s : State) : Keeps s s.restart ∧ s.restart.line.eventNumber = 0 := by
  have k1 : KeepsEvent s s.emptyConsole := .of_console s _ (Nat.zero_le _) (Nat.zero_le _)
  have k2 := (k1.trans (.of_only (Only.refl blockStandings _).standingsRestart)).trans (.emptyTable _)
  have k3 := k2.ifRole (·.mast) fun t => (WindStep.windRestart t).keepsEvent
  have k4 := (k3.trans (.of_only (OnlyScoring.refl _).scoringRestart.toOnly)).ifRole (·.board)
    fun t => .of_only (Only.refl blockBoard t).boardRestart
  unfold State.restart
  refine ⟨(k4.toKeeps.trans (.setEvent _ 0)).trans (KeepsEvent.of_judge _ _).toKeeps, ?_⟩
  show (LineState.setEvent _ 0).eventNumber = 0
  unfold LineState.setEvent
  split
  · assumption
  · rfl

/-- A station that holds nothing meets the bounds. -/
theorem Bounds.of_empty (s : State) {t : State} (u : t.line = {}) (c : t.console = {})
    (r : t.roster = List.replicate 16 {}) (w : t.wind = {}) : Bounds s t where
  queues := fun _ => by unfold State.QueuesSound; rw [u]; decide
  muted := fun _ _ => by rw [u]; exact ⟨rfl, rfl⟩
  console := fun _ => by unfold State.ConsoleSound; rw [c]; decide
  roster := fun _ => by unfold State.RosterSound; rw [r]; rfl
  wind := fun _ => by unfold State.WindSound; rw [w]; decide

/-- A microsecond that passes changes neither the queues nor the event number. -/
theorem LineState.micro_queues (l : LineState) :
    l.micro.urgent = l.urgent ∧ l.micro.routine = l.routine ∧ l.micro.eventNumber = l.eventNumber := by
  unfold LineState.micro; split <;> exact ⟨rfl, rfl, rfl⟩

/-- Time that passes keeps the bounds and the event number (R6). -/
theorem State.tick_bounds (s : State) : Bounds s s.tick ∧ s.tick.line.eventNumber = s.line.eventNumber := by
  unfold State.tick
  split
  · unfold State.micro
    split
    · exact ⟨.refl s, rfl⟩
    · extract_lets s1 s2
      obtain ⟨hu, hr, he⟩ := s.line.micro_queues
      have l1 : s1.line = s.line := by unfold s1; split <;> rfl
      have k1 : Bounds s s1 := by unfold s1; split <;> exact .of_out (.of_eq rfl rfl rfl) rfl rfl
      have k2 : KeepsEvent s1 s2 :=
        (KeepsEvent.of_line s1 s1.line.micro (by rw [l1]; exact hu) (by rw [l1]; exact hr) (by rw [l1]; exact he)).trans
          (.of_console _ _ le_rfl le_rfl)
      have k3 := k2.ifRole (·.edge) fun t =>
        .of_only ((Only.refl blockEdge t).modEdge (fun e => { e with micros := e.micros + 1 }))
      exact ⟨k1.trans k3.toBounds, k3.event.trans (by rw [l1])⟩
  · exact ⟨.of_out (.of_eq rfl rfl rfl) rfl rfl, rfl⟩

end Sys2Proof.Machine
end

section
namespace Sys2Proof.Machine

open Sys2Proof

/-! ## What every other command keeps -/

/-- A command answers a next state, in which the bounds, the queue, the clock and the event number are kept. -/
def Kept (s : State) (r : Result) : Prop := ∃ t, r = .next t ∧ KeepsEvent s t

theorem Kept.next {s t : State} (k : KeepsEvent s t) : Kept s (.next t) := ⟨t, rfl, k⟩

/-- A command of a block but the wind unit. -/
theorem Kept.only {R : State → State → State} {s t : State} (h : Only R s t)
    (w : ∀ u v, restoreCalm s (R u v) = restoreCalm s v := by exact fun _ _ => rfl) : Kept s (.next t) :=
  .next (.of_only h w)

/-- A command of the wind unit. -/
theorem Kept.wind {s t : State} (h : WindStep s t) : Kept s (.next t) := .next h.keepsEvent

section Arms

variable (s : State)

/-! ### The load and the line interface -/

theorem execEepromReadEnd_kept (bytes : List Byte) (broken : BarrierInputs) :
    Kept s (execEepromReadEnd bytes broken s) := by
  refine .next ?_
  split
  · rename_i h
    have loading : s.loader.state = .loading := by
      unfold State.reading at h
      simp only [Bool.and_eq_true, beq_iff_eq] at h
      exact h.1.2
    extract_lets result s1
    have k : KeepsEvent s s1 := .withLoader s { s.loader with eeprom := _ } (by simp [loading, StationState.isMuted])
    clear_value result
    cases result with
    | failedRead =>
      refine k.trans (.withLoader s1 { s1.loader with failedReads := _, retryAt := _ } ?_)
      exact congrArg StationState.isMuted loading
    | invalid detail digest => exact k.trans (.enterInvalid _ _ _)
    | run digest consts => exact k.trans (.enterRun _ _ _ _)
  · exact .refl s

theorem execEepromRetryTimer_kept : Kept s (execEepromRetryTimer s) := by
  refine .next ?_
  split
  · refine .ite (.enterInvalid s 0 0) ?_
    exact ⟨⟨⟨⟨id, id, id⟩, id, id⟩, ⟨rfl, rfl, rfl, rfl⟩⟩, rfl⟩
  · exact .refl s

theorem State.beginTx_kept (f : QueuedFrame) : KeepsEvent s (s.beginTx f) := by
  have tail : ∀ q : List QueuedFrame, q.tail.length ≤ q.length := fun q => by simp
  have count : ∀ (q : List QueuedFrame) p, (q.tail.filter p).length ≤ (q.filter p).length :=
    fun q p => ((List.tail_sublist q).filter p).length_le
  have pop : (s.line.popCandidate.urgent = s.line.urgent.tail ∨ s.line.popCandidate.urgent = s.line.urgent) ∧
      (s.line.popCandidate.routine = s.line.routine.tail ∨ s.line.popCandidate.routine = s.line.routine) := by
    unfold LineState.popCandidate
    split
    · rename_i u; exact ⟨.inl (by rw [u]; rfl), .inr rfl⟩
    · exact ⟨.inr rfl, .inl rfl⟩
  have event : s.line.popCandidate.eventNumber = s.line.eventNumber := by
    unfold LineState.popCandidate; split <;> rfl
  obtain ⟨hu, hr⟩ := pop
  refine ⟨⟨⟨⟨fun ⟨h1, h2, h3, h4⟩ => ?_, fun h m => ?_, id⟩, id, id⟩, ⟨rfl, rfl, rfl, rfl⟩⟩, event⟩
  · show s.line.popCandidate.urgent.length ≤ 8 ∧ s.line.popCandidate.routine.length ≤ 8 ∧
      (s.line.popCandidate.routine.filter _).length ≤ 1 ∧ (s.line.popCandidate.routine.filter _).length ≤ 1
    refine ⟨?_, ?_⟩
    · rcases hu with e | e <;> rw [e]
      · exact (tail _).trans h1
      · exact h1
    · rcases hr with e | e <;> rw [e]
      · exact ⟨(tail _).trans h2, (count _ _).trans h3, (count _ _).trans h4⟩
      · exact ⟨h2, h3, h4⟩
  · obtain ⟨u, r⟩ := h m
    show s.line.popCandidate.urgent = [] ∧ s.line.popCandidate.routine = []
    rw [u] at hu
    rw [r] at hr
    exact ⟨by rcases hu with e | e <;> rw [e]; rfl, by rcases hr with e | e <;> rw [e]; rfl⟩

theorem execTransmissionStart_kept (us : Nat) : Kept s (execTransmissionStart us s) := by
  refine .next ?_
  split
  · exact .refl s
  · exact s.beginTx_kept _

theorem State.abandonTx_kept (k : FaultKind) : KeepsEvent s (s.abandonTx k) := by
  unfold State.abandonTx
  split
  · exact .refl s
  · exact ((KeepsEvent.refl s).modLine _ rfl rfl rfl).report _ _

theorem execLineHung_kept (us : Nat) : Kept s (execLineHung us s) := by
  have k := (KeepsEvent.refl s).modLine (·.busyFor us) rfl rfl rfl
  exact .next (.ite (.ite ((k.modLine _ rfl rfl rfl).report _ _) k) (.refl s))

theorem execInvalidFrame_kept (bytes : List Byte) : Kept s (execInvalidFrame bytes s) := by
  have k := (KeepsEvent.refl s).modLine (·.activity (charUs * bytes.length)) rfl rfl rfl
  exact .next (.ite (.ite (k.modLine _ rfl rfl rfl) k) (.refl s))

theorem execRxFramingError_kept : Kept s (execRxFramingError s) := by
  have k := (KeepsEvent.refl s).modLine (·.activity charUs) rfl rfl rfl
  exact .next (.ite (.ite (k.modLine _ rfl rfl rfl) k) (.refl s))

/-! ### The roster and the start sequencer -/

theorem execStationSilent_kept (n : Nat) : Kept s (execStationSilent n s) := by
  have set : ∀ v : List RosterEntry, v.length = s.roster.length → KeepsEvent s { s with roster := v } :=
    fun v e => ⟨⟨⟨.of_eq rfl rfl rfl, fun h => e.trans h, id⟩, ⟨rfl, rfl, rfl, rfl⟩⟩, rfl⟩
  refine .next (.ite ?_ (.refl s))
  exact ((((set _ (List.length_set ..)).raise _).ifRole _
    fun t => .of_only (Only.refl blockStart t).evalRosterHolds).ifRole _
    fun t => .of_only ((Only.refl blockLanding t).landingSilent n)).ifRole _
    fun t => .of_only (OnlyScoring.refl t).gatherAll.toOnly

theorem execCorridorEntryAged_kept (mast : Nat) : Kept s (execCorridorEntryAged mast s) := by
  refine .only (R := restoreStart) ?_
  split
  · exact .refl blockStart s
  · have o := (Only.refl blockStart s).modStart (fun st => { st with
        corridor := st.corridor.map (fun f => if f.mast == mast && f.due s.clock then { f with aged := true } else f) })
    exact .ite o o.evalWind

theorem execLampCheck_kept (faulty : LampSet) : Kept s (execLampCheck faulty s) := by
  refine .next (.command _ _ _ fun t => .of_only (R := restoreStart) ?_)
  have o := Only.refl blockStart t
  exact .ite (o.answer _ _) (.ite (((o.modStart _).releaseHold _).answer _ _) (o.answer _ _))

/-! ### The wind unit -/

theorem execSensorTransferEnd_kept (o : TransferOutcome) (read : List Byte) :
    Kept s (execSensorTransferEnd o read s) := by
  refine .wind ?_
  split
  · exact .ite ((((WindStep.refl s).modWind id).endTransaction _ _).answerTransfer _) (.refl s)
  · exact .refl s

theorem execPollTime_kept (low : Bool) : Kept s (execPollTime low s) := by
  have k : WindStep s (s.modWind (fun w => { w with nextPoll := w.nextPoll.map (· + pollPeriod), dataLow := low })) :=
    (WindStep.refl s).modWind id
  exact .wind (.ite (.ite k (.ite (.ite (k.detectHang _).failedPoll (k.beginTransaction _ _)) k.failedPoll)) (.refl s))

theorem execPollComplete_kept (r : PollResult) : Kept s (execPollComplete r s) :=
  .wind (.ite (((WindStep.refl s).endTransaction _ _).pollOutcome _).carryOut (.refl s))

theorem execClockStretchTimeout_kept (read : List Byte) : Kept s (execClockStretchTimeout read s) := by
  refine .wind ?_
  split
  · exact ((WindStep.refl s).detectHang _).failedPoll
  · exact (((WindStep.refl s).modWind id).detectHang _).answerTransfer _
  · exact .refl s

theorem execReleaseBurstEnd_kept (high : Bool) : Kept s (execReleaseBurstEnd high s) := by
  refine .wind ?_
  split
  · have k : WindStep s ((s.modWind (fun w => { w with dataLow := !high })).setBus (if high then .free else .hung)) :=
      ((WindStep.refl s).modWind id).setBus _
    exact .ite ((k.modWind id).reply _) k.carryOut
  · exact .refl s

theorem execCorridorOffer_kept : Kept s (execCorridorOffer s) :=
  .next (.ite (((KeepsEvent.refl s).modLine (fun l => { l with nextCorridor := l.nextCorridor.map (· + corridorPeriod) })
    rfl rfl rfl).offer _ _) (.refl s))

/-! ### The span unit and the landing resolver -/

theorem execPresence_kept (on : Bool) (e : Tick) : Kept s (execPresence on e s) := by
  have o := (Only.refl blockSpan s).headRecord e
  exact .only (.ite (.ite o (.ite (o.modSpan _).beginClaim (o.presenceOff _))) (.refl blockSpan s))

theorem execViewLimitExpiry_kept : Kept s (execViewLimitExpiry s) := by
  refine .only (R := restoreSpan) ?_
  split
  · exact .refl blockSpan s
  · exact .ite ((Only.refl blockSpan s).endClaim _ _) (.refl blockSpan s)

/-- A command of the landing resolver that acts on the context of an attempt. -/
theorem Kept.onContext {n : Nat} {act : LandingContext → State} (k : ∀ c, OnlyLanding s (act c)) :
    Kept s (.next (match s.context? n with
      | none => s
      | some c => act c)) := by
  refine .only (R := restoreLanding) ?_
  split
  · exact .refl blockLanding s
  · exact k _

theorem execClosingEnd_kept (n : Nat) : Kept s (execClosingEnd n s) :=
  .onContext s fun c => .ite (by split <;> exact (Only.refl blockLanding s).offerLanding _ _ _ _ _)
    (.refl blockLanding s)

/-! ### Scoring, standings and the board -/

theorem execGatherDeadline_kept (n : Nat) : Kept s (execGatherDeadline n s) := by
  refine .only (R := restoreScoring) ?_
  split
  · exact .refl blockScoring s
  · exact .ite ((OnlyScoring.refl s).gatherDone _ _ _).toOnly (.refl blockScoring s)

theorem State.takeManual_kept (n d : Nat) : KeepsEvent s (s.takeManual n d) := by
  have k := KeepsEvent.refl s
  unfold State.takeManual
  refine .ite (k.answer _ _) ?_
  split
  · exact k.answer _ _
  · refine .ite (k.answer _ _) ?_
    split
    · refine .ite ?_ (k.answer _ _)
      exact ((KeepsEvent.of_only ((Only.refl blockLanding s).setContext _)).answer _ _).raise _
    · exact .ite (.of_only ((OnlyScoring.refl s).scoringManual _ _).toOnly) (k.answer _ _)

theorem execDns_kept (bib : Nat) : Kept s (execDns bib s) := by
  refine .next (.juryCommand _ _ fun t => .of_only (R := restoreStandings) ?_)
  have o := Only.refl blockStandings t
  exact .ite (o.answer _ _) (.ite (o.answer _ _) (.ite (o.answer _ _) ((o.modStandings _).answer _ _)))

theorem execCoachAck_kept (n : Nat) : Kept s (execCoachAck n s) :=
  .next (.juryCommand _ _ fun t => .of_only ((Only.refl blockStandings t).forCalled _ _ fun _ =>
    .ite (((Only.refl blockStandings t).offer _ _).answer _ _) ((Only.refl blockStandings t).answer _ _)))

theorem execSetGate_kept (n g : Nat) : Kept s (execSetGate n g s) :=
  .next (.juryCommand _ _ fun t => .of_only (.ite ((Only.refl blockStandings t).answer _ _)
    ((Only.refl blockStandings t).forCalled _ _ fun _ => ((Only.refl blockStandings t).offer _ _).answer _ _)))

theorem State.takeCloseRound_kept : KeepsEvent s s.takeCloseRound := by
  have o := Only.refl blockStandings s
  exact .of_only (.ite ((((o.modStandings _).answer _ _).raise _).testClosing) (o.answer _ _))

theorem execCloseRound_kept : Kept s (execCloseRound s) :=
  .next (.juryCommand _ _ fun t => t.takeCloseRound_kept.ifRole _
    fun u => .of_only ((Only.refl blockBoard u).boardListChange _))

theorem execCallLapsed_kept : Kept s (execCallLapsed s) := by
  refine .next ?_
  split
  · exact .refl s
  · refine KeepsEvent.raise ?_ _
    exact (KeepsEvent.of_only ((Only.refl blockStandings s).modStandings _)).trans
      (.of_tracked (.handChanges (.voidLocally (.refl blockTracked _) _) _ _ _))

theorem State.takeText_kept (cs : List Byte) : KeepsEvent s (s.takeText cs) :=
  .ite ((KeepsEvent.refl s).answer _ _) (((KeepsEvent.refl s).offer _ _).answer _ _)

/-! ### The judge port and the console -/

theorem KeepsEvent.modConsole {s t : State} (h : KeepsEvent s t) (f : ConsoleState → ConsoleState)
    (r : (f t.console).replies.length ≤ t.console.replies.length)
    (n : (f t.console).notices.length ≤ t.console.notices.length) : KeepsEvent s (t.modConsole f) :=
  h.trans (.of_console t _ r n)

theorem execKeypadRecord_kept (channel : Nat) (seat mark check : Byte) :
    Kept s (execKeypadRecord channel seat mark check s) := by
  have k : KeepsEvent s (s.modSeat channel (fun c => { c with gathered := [] })) := .of_judge s _
  refine .next (.ite (.ite ?_ k) (.refl s))
  unfold State.keypad
  refine .ite ?_ ((k.trans (.of_judge _ _)).raise _)
  exact (k.trans (.of_only ((OnlyScoring.refl _).takeMark _ _).toOnly)).trans (.of_judge _ _)

theorem execStatusQuery_kept : Kept s (execStatusQuery s) :=
  .next (.command _ _ _ fun t => ((KeepsEvent.refl t).modConsole _ le_rfl le_rfl).reply _)

theorem execNoticeMask_kept (flags : Nat) : Kept s (execNoticeMask flags s) := by
  refine .next (.command _ _ _ fun t => ?_)
  split
  · exact ((KeepsEvent.refl t).modConsole _ le_rfl le_rfl).answer _ _
  · exact (KeepsEvent.refl t).answer _ _

theorem execUnknownCommand_kept (kind : Nat) (payload : List Byte) : Kept s (execUnknownCommand kind payload s) :=
  .next (.ite (.ite (.refl s) (.of_console s _ le_rfl le_rfl))
    (.ite (.refl s) (.command _ _ _ fun t => .refl t)))

/-- The transmitter takes records from the queues, and adds none (R185, R187). -/
theorem ConsoleState.transmit_le (c : ConsoleState) :
    c.transmit.replies.length ≤ c.replies.length ∧ c.transmit.notices.length ≤ c.notices.length := by
  unfold ConsoleState.transmit
  split
  · exact ⟨le_rfl, le_rfl⟩
  · split
    · rename_i e; exact ⟨by rw [e]; exact Nat.le_succ _, le_rfl⟩
    · split
      · rename_i e; exact ⟨le_rfl, by rw [e]; exact Nat.le_succ _⟩
      · exact ⟨le_rfl, le_rfl⟩

theorem execConsoleTransmit_kept : Kept s (execConsoleTransmit s) :=
  .next (.ite (.refl s) (.of_console s _ s.console.transmit_le.1 s.console.transmit_le.2))

end Arms

/-- Every command but a frame, RESTART and the two resets answers a next state and keeps the bounds, the queue, the
clock, the reset pin and the event number. -/
theorem exec_kept (c : Instr) (s : State) :
    Kept s (exec c s) ∨ (∃ h b, c = frameCommand h b) ∨ c = .restart ∨ c = .resetAssert ∨
      ∃ n, c = .resetRelease n := by
  have start := Only.refl blockStart s
  have edge := Only.refl blockEdge s
  have span := Only.refl blockSpan s
  have landing := Only.refl blockLanding s
  have board := Only.refl blockBoard s
  have all := KeepsEvent.refl s
  cases c with
  | resetAssert => exact .inr (.inr (.inr (.inl rfl)))
  | resetRelease n => exact .inr (.inr (.inr (.inr ⟨n, rfl⟩)))
  | restart => exact .inr (.inr (.inl rfl))
  | statusFrame l p => exact .inr (.inl ⟨l, .status p, rfl⟩)
  | corridorFrame l m x y u f => exact .inr (.inl ⟨l, .corridor m x y u f, rfl⟩)
  | eventFrame l n m r => exact .inr (.inl ⟨l, .event n m r, rfl⟩)
  | callFrame l h g => exact .inr (.inl ⟨l, .call h g, rfl⟩)
  | goFrame l h => exact .inr (.inl ⟨l, .go h, rfl⟩)
  | gateFrame l h g a => exact .inr (.inl ⟨l, .gate h g a, rfl⟩)
  | holdFrame l b => exact .inr (.inl ⟨l, .hold b, rfl⟩)
  | roundFrame l r m g => exact .inr (.inl ⟨l, .round r m g, rfl⟩)
  | textFrame l cs => exact .inr (.inl ⟨l, .text cs, rfl⟩)
  | phaseFrame l h p g sec n => exact .inr (.inl ⟨l, .phase h p g sec n, rfl⟩)
  | coachFrame l h g q w => exact .inr (.inl ⟨l, .coach h g q w, rfl⟩)
  | leaveFrame l h b => exact .inr (.inl ⟨l, .leave h b, rfl⟩)
  | voidFrame l h r => exact .inr (.inl ⟨l, .void h r, rfl⟩)
  | speedFrame l h v => exact .inr (.inl ⟨l, .speed h v, rfl⟩)
  | takeoffFrame l h n => exact .inr (.inl ⟨l, .takeoff h n, rfl⟩)
  | inViewFrame l h sp => exact .inr (.inl ⟨l, .inView h sp, rfl⟩)
  | viewLostFrame l h sp r => exact .inr (.inl ⟨l, .viewLost h sp r, rfl⟩)
  | contactFrame l h sp t p => exact .inr (.inl ⟨l, .contact h sp t p, rfl⟩)
  | landingFrame l h d q n c => exact .inr (.inl ⟨l, .landing h d q n c, rfl⟩)
  | mastmeanFrame l h m x u p => exact .inr (.inl ⟨l, .mastMean h m x u p, rfl⟩)
  | resultFrame l r => exact .inr (.inl ⟨l, .result r, rfl⟩)
  | eepromReadEnd bytes broken => exact .inl (execEepromReadEnd_kept s bytes broken)
  | eepromRetryTimer => exact .inl (execEepromRetryTimer_kept s)
  | transmissionStart us => exact .inl (execTransmissionStart_kept s us)
  | txEcho => exact .inl (.next (s.abandonTx_kept _))
  | txJabber us => exact .inl (.next (.ite (s.abandonTx_kept _) all))
  | lineHung us => exact .inl (execLineHung_kept s us)
  | lineHungEnd us => exact .inl (.next (.ite (all.modLine _ rfl rfl rfl) all))
  | rxCharacterGap us => exact .inl (.next (.ite (all.modLine _ rfl rfl rfl) all))
  | invalidFrame bytes => exact .inl (execInvalidFrame_kept s bytes)
  | rxFramingError => exact .inl (execRxFramingError_kept s)
  | statusOffer => exact .inl (.next (.ite ((all.modLine _ rfl rfl rfl).offer _ _) all))
  | corridorOffer => exact .inl (execCorridorOffer_kept s)
  | stationSilent n => exact .inl (execStationSilent_kept s n)
  | readyTimerExpiry => exact .inl (.only (.ite (.ite start.enterGreen (start.modStart _)) start))
  | windowTimerExpiry => exact .inl (.only (.ite (.ite ((start.modStart _).ownVoid _) (start.modStart _)) start))
  | graceTimerExpiry => exact .inl (.only (.ite (start.modStart _) start))
  | settleTimerExpiry => exact .inl (.only (.ite ((start.modStart _).releaseHold _) start))
  | corridorEntryAged m => exact .inl (execCorridorEntryAged_kept s m)
  | countdownTick => exact .inl (.only (.ite (start.modStart _) start))
  | leaveBreak => exact .inl (.only (.ite ((start.modStart _).takeLeave _) start))
  | leaveBarrierClear => exact .inl (.only (.ite (start.modStart _) start))
  | leaveBarrierStuck => exact .inl (.only (.ite ((start.modStart _).report _ _) start))
  | trackHold => exact .inl (.only (.ite (start.raiseHold _ _ _) start))
  | trackRelease => exact .inl (.only (.ite (start.releaseHold _) start))
  | coachRequestPress sel => exact .inl (.only (.ite (start.pressCoach sel) start))
  | rejectLampEnd => exact .inl (.only (.ite (start.modStart _) start))
  | lampFail lamp => exact .inl (.only (.ite (((start.modStart _).report _ _).raiseHold _ _ _) start))
  | lampCheck faulty => exact .inl (execLampCheck_kept s faulty)
  | barrierABreak => exact .inl (.only (edge.edgeBreak _ fun h r e u => h.breakA r e u))
  | barrierBBreak => exact .inl (.only (edge.edgeBreak _ fun h r e u => h.breakB r e u))
  | barrierTBreak => exact .inl (.only (edge.edgeBreak _ fun h r e _ => h.breakT r e))
  | edgeBarrierClear x => exact .inl (.only (.ite (edge.modEdge _) edge))
  | edgeBarrierStuck x => exact .inl (.only (.ite ((edge.modEdge _).report _ _) edge))
  | pollTime low => exact .inl (execPollTime_kept s low)
  | pollComplete r => exact .inl (execPollComplete_kept s r)
  | clockStretchTimeout read => exact .inl (execClockStretchTimeout_kept s read)
  | releaseBurstEnd high => exact .inl (execReleaseBurstEnd_kept s high)
  | sensorMode m => exact .inl (.next (.command _ _ _ fun t => ((WindStep.refl t).takeOp _ _).keepsEvent))
  | sensorTransfer a n w low =>
    exact .inl (.next (.command _ _ _ fun t => (((WindStep.refl t).modWind id).takeOp _ _).keepsEvent))
  | sensorTransferEnd o read => exact .inl (execSensorTransferEnd_kept s o read)
  | sensorRelease => exact .inl (.next (.command _ _ _ fun t => ((WindStep.refl t).takeOp _ _).keepsEvent))
  | heartbeat e => exact .inl (.only (.ite (span.headRecord e) span))
  | presence on e => exact .inl (execPresence_kept s on e)
  | headContact k o e => exact .inl (.only (.ite ((span.headRecord e).spanContact k o e) span))
  | headRecordDiscard why => exact .inl (.only (.ite (span.modSpan _) span))
  | headLinkSilent => exact .inl (.only (.ite ((((span.modSpan _).report _ _).raise _).presenceOff _) span))
  | viewLimitExpiry => exact .inl (execViewLimitExpiry_kept s)
  | inrunTimerExpiry n => exact .inl (.onContext s fun c => landing.takeInrun c)
  | flightTimerExpiry n => exact .inl (.onContext s fun c => landing.takeFlight c)
  | claimLimitReached n sp => exact .inl (.onContext s fun c => .ite (landing.setContext _) landing)
  | resolutionTime n => exact .inl (.onContext s fun c => landing.takeResolution c)
  | closingEnd n => exact .inl (execClosingEnd_kept s n)
  | manualDistance n d => exact .inl (.next (.juryCommand _ _ fun t => t.takeManual_kept n d))
  | gatherDeadline n => exact .inl (execGatherDeadline_kept s n)
  | keypadRecord ch seat mark check => exact .inl (execKeypadRecord_kept s ch seat mark check)
  | keypadGapTimeout ch why => exact .inl (.next (.ite (.of_judge s _) all))
  | lampFlashToggle ch => exact .inl (.next (.ite (.of_judge s _) all))
  | lampAnswerEnd ch => exact .inl (.next (.ite (.of_judge s _) all))
  | forceScore n => exact .inl (.next (.juryCommand _ _ fun t => .of_only ((OnlyScoring.refl t).takeForce n).toOnly))
  | correctDistance n d =>
    exact .inl (.next (.juryCommand _ _ fun t => .of_only ((OnlyScoring.refl t).takeCorrectDistance n d).toOnly))
  | correctMark n seat m =>
    exact .inl (.next (.juryCommand _ _ fun t => .of_only ((OnlyScoring.refl t).takeCorrectMark n seat m).toOnly))
  | void n r => exact .inl (.next (.juryCommand _ _ fun t => .of_only ((OnlyScoring.refl t).takeVoid n r).toOnly))
  | newEvent n m r =>
    exact .inl (.next (.command _ _ _ fun t => .of_only ((Only.refl blockStandings t).takeNewEvent n m r)))
  | startList bs =>
    exact .inl (.next (.juryCommand _ _ fun t => .of_only ((Only.refl blockStandings t).takeStartList bs)))
  | dns bib => exact .inl (execDns_kept s bib)
  | call g f => exact .inl (.next (.juryCommand _ _ fun t => .of_only ((Only.refl blockStandings t).takeCall g f)))
  | callLapsed => exact .inl (execCallLapsed_kept s)
  | go n =>
    exact .inl (.next (.juryCommand _ _ fun t => .of_only ((Only.refl blockStandings t).forCalled _ _ fun _ =>
      ((Only.refl blockStandings t).offer _ _).answer _ _)))
  | setGate n g => exact .inl (execSetGate_kept s n g)
  | coachAck n => exact .inl (execCoachAck_kept s n)
  | hold => exact .inl (.next (.juryCommand _ _ fun t => ((KeepsEvent.refl t).offer _ _).answer _ _))
  | release => exact .inl (.next (.juryCommand _ _ fun t => ((KeepsEvent.refl t).offer _ _).answer _ _))
  | closeRound => exact .inl (execCloseRound_kept s)
  | text cs => exact .inl (.next (.juryCommand _ _ fun t => t.takeText_kept cs))
  | pageTimeEnd => exact .inl (.only (.ite board.endPage board))
  | liveSecondsTick => exact .inl (.only (.ite (board.recompose _) board))
  | panelRowPeriod => exact .inl (.only (.ite (board.modBoard _) board))
  | statusQuery => exact .inl (execStatusQuery_kept s)
  | noticeMask flags => exact .inl (execNoticeMask_kept s flags)
  | clearFault =>
    exact .inl (.next (.command _ _ _ fun t => (KeepsEvent.of_latch t _).answer _ _))
  | unknownCommand k p => exact .inl (execUnknownCommand_kept s k p)
  | consoleGapTimeout gap =>
    exact .inl (.next (.ite all (.ite (.of_console s _ le_rfl le_rfl) all)))
  | consoleTransmit => exact .inl (execConsoleTransmit_kept s)
  | consoleFramingError => exact .inl (.next (.ite all (.of_console s _ le_rfl le_rfl)))

/-- RESTART keeps the bounds, and leaves the event number or makes it 0 (R18, R184). -/
theorem execRestart_keeps (s : State) : ∃ t, execRestart s = .next t ∧ Keeps s t ∧
    (t.line.eventNumber = s.line.eventNumber ∨ t.line.eventNumber = 0) := by
  have act : ∀ u : State, Keeps u (u.restart.answer 0x02 .ok) := fun u =>
    u.restart_keeps.1.trans ((KeepsEvent.refl _).answer _ _).toKeeps
  refine ⟨_, rfl, .command _ _ _ act, ?_⟩
  rcases KeepsEvent.command_or s 0x02 true anyRole (fun s => s.restart.answer 0x02 .ok) with h | h
  · exact .inl h.event
  · rw [h]; exact .inr s.clearAssembler.restart_keeps.2

/-- What a reset does to the bounds: nothing, or the station holds nothing any more (R19, R20). -/
theorem execReset_bounds (c : Instr) (s : State) (h : c = .resetAssert ∨ ∃ n, c = .resetRelease n) :
    ∃ t, exec c s = .next t ∧ Bounds s t ∧ t.pending = s.pending := by
  rcases h with rfl | ⟨n, rfl⟩ <;> refine ⟨_, rfl, ?_⟩ <;> split
  · exact ⟨.refl s, rfl⟩
  · exact ⟨.of_empty s rfl rfl rfl rfl, rfl⟩
  · exact ⟨.of_empty s rfl rfl rfl rfl, rfl⟩
  · exact ⟨.refl s, rfl⟩

/-- Every command answers a next state and keeps the bounds and the queue. -/
theorem exec_bounds (c : Instr) (s : State) : ∃ t, exec c s = .next t ∧ Bounds s t ∧ t.pending = s.pending ∧
    (c ≠ .resetAssert → (∀ n, c ≠ .resetRelease n) → Timeless s t) := by
  rcases exec_kept c s with ⟨t, e, k⟩ | ⟨h, b, rfl⟩ | rfl | r
  · exact ⟨t, e, k.toBounds, k.pending, fun _ _ => k.toTimeless⟩
  · have k := s.receive_keeps h b
    exact ⟨_, exec_frameCommand h b s, k.toBounds, k.pending, fun _ _ => k.toTimeless⟩
  · obtain ⟨t, e, k, -⟩ := execRestart_keeps s
    exact ⟨t, e, k.toBounds, k.pending, fun _ _ => k.toTimeless⟩
  · obtain ⟨t, e, k, p⟩ := execReset_bounds c s r
    refine ⟨t, e, k, p, fun a n => ?_⟩
    rcases r with r | ⟨m, r⟩
    · exact absurd r a
    · exact absurd r (n m)

/-- Settles O55: every command keeps the bounds (`exec_bounds`), and so does the passing of time
(`State.tick_bounds`). -/
theorem everyStepKeepsTheBounds : Obligations.EveryStepKeepsTheBounds := by
  have step : ∀ s t : State, step s = .next t → Bounds s t := by
    intro s t h
    unfold Machine.step at h
    split at h
    · cases h; exact s.tick_bounds.1
    · rename_i c rest _
      obtain ⟨u, e, k, -⟩ := exec_bounds c { s with pending := rest }
      rw [e] at h
      cases h
      exact Bounds.trans (t := { s with pending := rest }) (.of_out (.of_eq rfl rfl rfl) rfl rfl) k
  intro s t h
  have k := step s t h
  exact ⟨k.queues, k.muted, k.console, k.roster, k.wind⟩

/-! ## The event number (R6, R18) -/

/-- A delivery that changes the event number is that of an EVENT with the new number, or of the jury's STATUS with a number
other than 0 at a station without one (R6). -/
theorem State.deliver_changes_event (s : State) (l : LineHdr) (b : Body)
    (h : (s.deliver l b).line.eventNumber ≠ s.line.eventNumber) :
    (∃ n m r, b = .event n m r ∧ (s.deliver l b).line.eventNumber = n) ∨
    (∃ p, b = .status p ∧ s.line.eventNumber = 0 ∧ s.loader.roles.jury = false ∧
      s.loader.consts.stationWith (·.jury) = some l.sender ∧ l.event ≠ 0 ∧
      (s.deliver l b).line.eventNumber = l.event) := by
  rw [s.deliver_eventNumber] at h ⊢
  split at h
  · rename_i c
    rw [if_pos c]
    unfold State.lineTake at h ⊢
    cases b with
    | event n m r => exact .inl ⟨n, m, r, rfl, rfl⟩
    | status p =>
      dsimp only at h ⊢
      split at h
      · rename_i k
        obtain ⟨k1, k2, k3, k4⟩ := k
        refine .inr ⟨p, rfl, k1, by simpa using k3, by simpa [State.fromJury] using k4, k2, ?_⟩
        rw [if_pos ⟨k1, k2, k3, k4⟩]
        simp [LineState.setEvent, k1, k2.symm]
      · exact absurd rfl h
    | _ => exact absurd rfl h
  · exact absurd rfl h

/-- A frame command that changes the event number is an EVENT with the new number, or the jury's STATUS (R6). -/
theorem State.receive_changes_event (s : State) (h : RxHdr) (b : Body)
    (n : (s.receive h b).line.eventNumber ≠ s.line.eventNumber) :
    (∃ n m r, b = .event n m r ∧ (s.receive h b).line.eventNumber = n) ∨
    (∃ p, b = .status p ∧ s.line.eventNumber = 0 ∧ s.loader.roles.jury = false ∧
      s.loader.consts.stationWith (·.jury) = some h.sender ∧ h.event ≠ 0 ∧
      (s.receive h b).line.eventNumber = h.event) := by
  rcases s.receive_cases h b with k | ⟨line, l, -, -, e, rfl, x⟩
  · exact absurd k.event n
  · rw [x] at n ⊢
    rw [← e] at n ⊢
    exact State.deliver_changes_event { s with line := line } l b n

/-- A reset that changes the event number empties a station, or releases RESET (R19, R20). -/
theorem execReset_event {c : Instr} {s t : State} (h : c = .resetAssert ∨ ∃ n, c = .resetRelease n)
    (e : exec c s = .next t) (n : t.line.eventNumber ≠ s.line.eventNumber) :
    c = .resetAssert ∧ t = { pending := s.pending, resetAsserted := true } ∨
      ∃ straps, c = .resetRelease straps ∧ s.resetAsserted = true ∧ t.line.eventNumber = 0 := by
  rcases h with rfl | ⟨m, rfl⟩
  · have e' : (if s.resetAsserted then s else { pending := s.pending, resetAsserted := true }) = t := by cases e; rfl
    split at e'
    · subst e'; exact absurd rfl n
    · exact .inl ⟨rfl, e'.symm⟩
  · have e' : (if s.resetAsserted then
        { pending := s.pending, loader := { station := m.toNat, eeprom := eepromOpening } } else s) = t := by
      cases e; rfl
    split at e'
    · rename_i r; subst e'; exact .inr ⟨m, rfl, r, rfl⟩
    · subst e'; exact absurd rfl n

/-- Settles O60: every command but a frame, RESTART and a reset keeps the event number (`exec_kept`), and so does the
passing of time; of the frames, EVENT and the jury's STATUS alone change it (`State.receive_changes_event`). -/
theorem eventNumberChangesOnlyBy : Obligations.EventNumberChangesOnlyBy := by
  intro s t h n
  unfold Machine.step at h
  split at h
  · cases h; exact absurd s.tick_bounds.2 n
  · rename_i c rest p
    refine ⟨c, rest, p, ?_⟩
    rcases exec_kept c { s with pending := rest } with ⟨u, e, k⟩ | ⟨l, b, rfl⟩ | rfl | r
    · rw [e] at h; cases h; exact absurd k.event n
    · rw [exec_frameCommand] at h
      cases h
      rcases State.receive_changes_event { s with pending := rest } l b n with ⟨m, md, r, rfl, e⟩ | ⟨q, rfl, k⟩
      · exact .inl ⟨l, m, md, r, rfl, e⟩
      · exact .inr (.inl ⟨l, q, rfl, k⟩)
    · obtain ⟨u, e, -, k⟩ := execRestart_keeps { s with pending := rest }
      rw [show exec .restart { s with pending := rest } = .next u from e] at h
      cases h
      exact .inr (.inr (.inl ⟨rfl, k.resolve_left n⟩))
    · rcases execReset_event r h n with ⟨a, b⟩ | b
      · exact .inr (.inr (.inr (.inl ⟨a, b⟩)))
      · exact .inr (.inr (.inr (.inr b)))

/-! ## The passing of time (R1, R7, R82, R184) -/

/-- A microsecond on the line (R1, R3): while the station transmits, its busy period grows; else the quiet time does. -/
theorem LineState.micro_eq (l : LineState) :
    (l.tx ≠ none → l.micro = { l with busyUs := l.busyUs.map (· + 1) }) ∧
    (∀ quiet, l.tx = none → quiet = l.quietUs + 1 → l.micro = { l with
      quietUs := quiet
      busyUs := if 20 ≤ quiet then none else l.busyUs.map (· + 1)
      rx := { gathered := if 20 < quiet then [] else l.rx.gathered
              skipping := l.rx.skipping && decide (quiet < 20) } }) := by
  refine ⟨fun h => ?_, fun quiet h e => ?_⟩
  · unfold LineState.micro
    rw [if_pos (Option.isSome_iff_ne_none.2 h)]
  · subst e
    unfold LineState.micro
    rw [h]
    rfl

/-- A microsecond in full, out of RESET. -/
theorem State.micro_eq (s : State) (h : s.resetAsserted = false) : s.micro = { s with
    subTick := if s.subTick + 1 < 100 then s.subTick + 1 else 0
    clock := if s.subTick + 1 < 100 then s.clock else s.clock + 1
    line := s.line.micro
    console := s.console.quietFor (s.console.rxQuietUs + 1)
    edge := { s.edge with micros := if s.loader.roles.edge then s.edge.micros + 1 else s.edge.micros } } := by
  unfold State.micro State.ifRole
  rw [if_neg (by simp [h])]
  by_cases e : s.loader.roles.edge = true <;> by_cases k : s.subTick + 1 < 100 <;>
    simp [e, k, tickUs, State.modEdge]

/-- Settles O2: the frame of every command is `exec_bounds`, and a microsecond is `State.micro_eq`. -/
theorem timePassesBetweenCommands : Obligations.TimePassesBetweenCommands := by
  refine ⟨fun c s => ?_, fun s empty => ?_⟩
  · obtain ⟨t, e, -, p, k⟩ := exec_bounds c s
    refine ⟨t, e, p, fun a b => ?_⟩
    obtain ⟨-, h1, h2, h3⟩ := k a b
    exact ⟨h1, h2, h3⟩
  · have idle : step s = .next s.tick := by unfold Machine.step; rw [empty]
    rw [idle]
    refine ⟨fun due => ?_, fun r => ?_, fun due r => ?_⟩
    · unfold State.tick
      split
      · rename_i e; exact absurd e due
      · rfl
    · have due : s.dueCommands = [] := by unfold State.dueCommands; rw [if_pos r]
      unfold State.tick State.micro
      rw [due, if_pos r]
    · have e : s.tick = s.micro := by unfold State.tick; rw [due]
      rw [e, s.micro_eq r]
      refine ⟨_, rfl, fun k => ?_, fun k => ?_, rfl, s.line.micro_eq.1, s.line.micro_eq.2, fun quiet q => ?_, rfl⟩
      · exact ⟨if_pos k, if_pos k⟩
      · exact ⟨if_neg (by omega), if_neg (by omega)⟩
      · subst q; rfl

end Sys2Proof.Machine
end

section
/-! SUPPORT. Frames as bytes: what each field's coding gives back, what each payload reads as, and the frame round trip
(section 12.1, R2, R190). -/

namespace Sys2Proof

open Sys2Proof.Machine

/-! ## Numbers as bytes -/

@[simp] theorem byte_toNat (n : Nat) : (byte n).toNat = n % 256 := by simp [byte]

/-- A 16-bit number reads back from its two bytes. -/
theorem u16_bytes {n : Nat} (h : n < 65536) : u16 (byte n) (byte (n / 256)) = n := by
  simp only [u16, byte_toNat]; omega

/-- A 16-bit word reads back from its two bytes. -/
theorem word16_bytes (w : Word16) : BitVec.ofNat 16 (u16 (byte w.toNat) (byte (w.toNat / 256))) = w := by
  rw [u16_bytes w.isLt, BitVec.ofNat_toNat, BitVec.setWidth_eq]

/-- A signed 16-bit number reads back from its two bytes. -/
theorem s16_bytes {x : Int} (h : fitsS16 x = true) :
    s16 (byte (BitVec.ofInt 16 x).toNat) (byte ((BitVec.ofInt 16 x).toNat / 256)) = x := by
  unfold fitsS16 at h
  simp only [Bool.and_eq_true, decide_eq_true_eq] at h
  rw [s16, word16_bytes, BitVec.toInt_ofInt]
  simp only [Int.bmod]
  omega

@[simp] theorem byteBool_boolByte (b : Bool) : byteBool (boolByte b) = some b := by cases b <;> rfl

/-! ## Flag bytes -/

theorem packNat_lt (bs : List Bool) : packNat bs < 2 ^ bs.length := by
  induction bs with
  | nil => simp [packNat]
  | cons b bs ih =>
    simp only [packNat, List.length_cons, Nat.pow_succ]
    split <;> omega

/-- The bits of a packed number are its flags. -/
theorem packNat_testBit (bs : List Bool) (i : Nat) : (packNat bs).testBit i = bs.getD i false := by
  induction bs generalizing i with
  | nil => simp [packNat]
  | cons b bs ih =>
    cases i with
    | zero => cases b <;> simp [packNat, Nat.testBit_zero]
    | succ i =>
      have half : ((if b = true then 1 else 0) + 2 * packNat bs) / 2 = packNat bs := by split <;> omega
      rw [packNat, Nat.testBit_succ, half, ih]
      simp

/-- A flag byte reads back as its flags. -/
theorem unpackByte_packByte {n : Nat} {bs : List Bool} (h : bs.length = n) (k : n ≤ 8) :
    unpackByte n (packByte bs) = some bs := by
  subst h
  have lt := packNat_lt bs
  have le : 2 ^ bs.length ≤ 2 ^ 8 := Nat.pow_le_pow_right (by decide) k
  have small : packNat bs < 256 := by omega
  have value : (packByte bs).toNat = packNat bs := by
    simp only [packByte, byte_toNat]; omega
  unfold unpackByte
  rw [value, if_pos lt]
  refine congrArg some (List.ext_getElem (by simp) fun i h1 h2 => ?_)
  rw [List.getElem_map, List.getElem_range, BitVec.getLsbD, value, packNat_testBit]
  simp [h2]

/-- Two flags of a byte. -/
@[simp] theorem unpackByte_pair (a b : Bool) : unpackByte 2 (packByte [a, b]) = some [a, b] :=
  unpackByte_packByte rfl (by decide)

@[simp] theorem RoleSet.ofByte_toByte (r : RoleSet) : RoleSet.ofByte r.toByte = some r := by
  simp [RoleSet.ofByte, RoleSet.toByte, RoleSet.toFlags, unpackByte_packByte, RoleSet.ofFlags]

@[simp] theorem CauseSet.ofByte_toByte (c : CauseSet) : CauseSet.ofByte c.toByte = some c := by
  simp [CauseSet.ofByte, CauseSet.toByte, CauseSet.toFlags, unpackByte_packByte, CauseSet.ofFlags, HoldCause.all,
    CauseSet.has]

@[simp] theorem CorridorFlags.ofByte_toByte (f : CorridorFlags) : CorridorFlags.ofByte f.toByte = some f := by
  simp [CorridorFlags.ofByte, CorridorFlags.toByte, unpackByte_packByte]

@[simp] theorem ResultFlags.ofByte_toByte (f : ResultFlags) : ResultFlags.ofByte f.toByte = some f := by
  simp [ResultFlags.ofByte, ResultFlags.toByte, unpackByte_packByte]

/-- One flag alone is coded as a truth value is. -/
@[simp] theorem byteBool_packByte (b : Bool) : byteBool (packByte [b]) = some b := by cases b <;> rfl

/-! ## Codes of the names (chapter 12) -/

@[simp] theorem Phase.ofCode_code (p : Phase) : Phase.ofCode (p.code % 256) = some p := by cases p <;> rfl

@[simp] theorem VoidReason.ofCode_code (r : VoidReason) : VoidReason.ofCode (r.code % 256) = some r := by cases r <;> rfl

@[simp] theorem Quality.ofCode_code (q : Quality) : Quality.ofCode (q.code % 256) = some q := by cases q <;> rfl

@[simp] theorem Condition.ofCode_code (c : Condition) : Condition.ofCode (c.code % 256) = some c := by cases c <;> rfl

@[simp] theorem FaultKind.ofCode_codeOpt (k : Option FaultKind) :
    FaultKind.ofCode (FaultKind.codeOpt k % 256) = some k := by
  cases k with
  | none => rfl
  | some k => cases k <;> rfl

@[simp] theorem Track.ofCode_code (t : Track) : Track.ofCode (t.code % 256) = some t := by cases t <;> rfl

@[simp] theorem LostReason.ofCode_code (r : LostReason) : LostReason.ofCode (r.code % 256) = some r := by cases r <;> rfl

@[simp] theorem EventMode.ofCode_code (m : EventMode) : EventMode.ofCode (m.code % 256) = some m := by cases m <;> rfl

@[simp] theorem RoundMsg.ofCode_code (m : RoundMsg) : RoundMsg.ofCode (m.code % 256) = some m := by cases m <;> rfl

@[simp] theorem RoundState.ofCode_code (m : RoundState) : RoundState.ofCode (m.code % 256) = some m := by cases m <;> rfl

/-- An absent number is coded 0, which no number in the range is. -/
theorem nonzero_orZero {n : Option Nat} (h : ∀ a, n = some a → 1 ≤ a ∧ a < 65536) :
    nonzero (u16 (byte (orZero n)) (byte (orZero n / 256))) = n := by
  cases n with
  | none => rfl
  | some a =>
    obtain ⟨h1, h2⟩ := h a rfl
    rw [orZero, Option.getD_some, u16_bytes h2, nonzero, if_neg (by omega)]

/-! ## The parts of a STATUS -/

@[simp] theorem partOk_none {α : Type} (role : Bool) (ok : α → Bool) : partOk role none ok = !role := rfl

@[simp] theorem partOk_some {α : Type} (role : Bool) (q : α) (ok : α → Bool) :
    partOk role (some q) ok = (role && ok q) := rfl

/-- The bytes of the START part (R80). -/
def startBytes : Option StartPart → List Byte
  | none => []
  | some q => byte q.phase.code :: le16 (orZero q.attempt) ++ [q.causes.toByte, byte q.backlog]

/-- The bytes of the JURY part (R169). -/
def juryBytes : Option JuryPart → List Byte
  | none => []
  | some q => le16 (orZero q.lastAttempt) ++ [byte q.round, byte q.state.code]

/-- The bytes of the MAST part (R110). -/
def mastBytes : Option MastPart → List Byte
  | none => []
  | some q => [byte q.mast, boolByte q.stable]

/-- The bytes of the SPAN part (R121). -/
def spanBytes : Option SpanPart → List Byte
  | none => []
  | some q => [byte q.span, boolByte q.headOk]

/-- The bytes of the EDGE part (R83). -/
def edgeBytes : Option EdgePart → List Byte
  | none => []
  | some q => [boolByte q.barrierOk]

theorem StatusPayload.parts_eq (p : StatusPayload) : p.parts =
    startBytes p.start ++ (juryBytes p.jury ++ (mastBytes p.mast ++ (spanBytes p.span ++ (edgeBytes p.edge ++ [])))) := by
  simp only [List.append_nil, ← List.append_assoc]
  rfl

section Parts

variable {role : Bool} {rest : List Byte}

theorem readStart_startBytes {p : Option StartPart} {ok : StartPart → Bool} (h : partOk role p ok = true)
    (range : ∀ q, ok q = true → (∀ a, q.attempt = some a → 1 ≤ a ∧ a < 65536) ∧ q.backlog ≤ 8) :
    readStart role (startBytes p ++ rest) = some (p, rest) := by
  cases p with
  | none =>
    have absent : role = false := by simpa using h
    subst absent; rfl
  | some q =>
    obtain ⟨rfl, k⟩ : role = true ∧ ok q = true := by simpa using h
    obtain ⟨number, small⟩ := range q k
    have backlog : q.backlog % 256 = q.backlog := by omega
    simp [readStart, startBytes, le16, nonzero_orZero number, backlog]

theorem readJury_juryBytes {p : Option JuryPart} {ok : JuryPart → Bool} (h : partOk role p ok = true)
    (range : ∀ q, ok q = true → (∀ a, q.lastAttempt = some a → 1 ≤ a ∧ a < 65536) ∧ q.round ≤ 4) :
    readJury role (juryBytes p ++ rest) = some (p, rest) := by
  cases p with
  | none =>
    have absent : role = false := by simpa using h
    subst absent; rfl
  | some q =>
    obtain ⟨rfl, k⟩ : role = true ∧ ok q = true := by simpa using h
    obtain ⟨number, small⟩ := range q k
    have round : q.round % 256 = q.round := by omega
    simp [readJury, juryBytes, le16, nonzero_orZero number, round]

theorem readMast_mastBytes {p : Option MastPart} (h : partOk role p (fun q => within 1 8 q.mast) = true) :
    readMast role (mastBytes p ++ rest) = some (p, rest) := by
  cases p with
  | none =>
    have absent : role = false := by simpa using h
    subst absent; rfl
  | some q =>
    obtain ⟨rfl, lo, hi⟩ : role = true ∧ 1 ≤ q.mast ∧ q.mast ≤ 8 := by simpa [within] using h
    have mast : q.mast % 256 = q.mast := by omega
    simp [readMast, mastBytes, mast]

theorem readSpan_spanBytes {p : Option SpanPart} (h : partOk role p (fun q => within 1 8 q.span) = true) :
    readSpan role (spanBytes p ++ rest) = some (p, rest) := by
  cases p with
  | none =>
    have absent : role = false := by simpa using h
    subst absent; rfl
  | some q =>
    obtain ⟨rfl, lo, hi⟩ : role = true ∧ 1 ≤ q.span ∧ q.span ≤ 8 := by simpa [within] using h
    have span : q.span % 256 = q.span := by omega
    simp [readSpan, spanBytes, span]

theorem readEdge_edgeBytes {p : Option EdgePart} (h : partOk role p (fun _ => true) = true) :
    readEdge role (edgeBytes p ++ rest) = some (p, rest) := by
  cases p with
  | none =>
    have absent : role = false := by simpa using h
    subst absent; rfl
  | some q =>
    obtain rfl : role = true := by simpa using h
    simp [readEdge, edgeBytes]

end Parts

/-- A STATUS payload reads back (R27, R190). -/
theorem readStatus_bytes {p : StatusPayload} (h : p.inRange = true) : readStatus p.bytes = some p := by
  simp only [StatusPayload.inRange, Bool.and_eq_true] at h
  obtain ⟨⟨⟨⟨start, jury⟩, mast⟩, span⟩, edge⟩ := h
  have start' := fun rest => readStart_startBytes (rest := rest) start fun q k => by
    obtain ⟨number, small⟩ : _ ∧ q.backlog ≤ 8 := by simpa using k
    exact ⟨fun a e => by rw [e] at number; simp [within] at number; omega, small⟩
  have jury' := fun rest => readJury_juryBytes (rest := rest) jury fun q k => by
    obtain ⟨number, small⟩ : _ ∧ q.round ≤ 4 := by simpa using k
    exact ⟨fun a e => by rw [e] at number; simp [within] at number; omega, small⟩
  unfold StatusPayload.bytes
  rw [p.parts_eq]
  simp only [le16, List.cons_append, List.nil_append, readStatus, byte_toNat, word16_bytes, RoleSet.ofByte_toByte,
    Condition.ofCode_code, FaultKind.ofCode_codeOpt, Option.bind_eq_bind, Option.bind_some, start', jury',
    readMast_mastBytes mast, readSpan_spanBytes span, readEdge_edgeBytes edge, List.isEmpty_nil, if_true]

/-! ## The attempt header and the RESULT -/

theorem AttemptHdr.inRange_iff (h : AttemptHdr) : h.inRange = true ↔
    1 ≤ h.attempt ∧ h.attempt ≤ 65535 ∧ h.bib ≤ 199 ∧ 1 ≤ h.round ∧ h.round ≤ 4 := by
  simp [AttemptHdr.inRange, and_assoc]

/-- The attempt header reads back, with what follows it. -/
theorem readHdr_bytes {h : AttemptHdr} (k : h.inRange = true) (rest : List Byte) :
    readHdr (h.bytes ++ rest) = some (h, rest) := by
  obtain ⟨-, attempt, bib, -, round⟩ := h.inRange_iff.1 k
  have b : h.bib % 256 = h.bib := by omega
  have r : h.round % 256 = h.round := by omega
  simp [readHdr, AttemptHdr.bytes, le16, u16_bytes (Nat.lt_succ_of_le attempt), b, r]

/-- A mark of at most 40 reads back; 0xFF stands for none. -/
theorem readMark_markByte {m : Option Nat} (h : ∀ v, m = some v → v ≤ 40) : readMark (markByte m) = m := by
  cases m with
  | none => rfl
  | some v =>
    have small := h v rfl
    have ne : byte v ≠ 0xFF := fun e => by
      have := congrArg BitVec.toNat e
      rw [byte_toNat] at this
      simp at this
      omega
    have value : v % 256 = v := by omega
    rw [markByte, readMark, if_neg ne, byte_toNat, value]

/-- Every mark held is among those that the range test looks at. -/
theorem Seats.mark_le {m : Seats (Option Nat)} (h : m.held.all (· ≤ 40) = true) {x : Option Nat} (k : x ∈ m.toList)
    (v : Nat) (e : x = some v) : v ≤ 40 := by
  have mem : v ∈ m.held := List.mem_filterMap.2 ⟨x, k, e⟩
  simpa using List.all_eq_true.1 h v mem

/-- The bytes of a RESULT that follow the attempt header (section 12.1). -/
def ResultPayload.rest (r : ResultPayload) : List Byte :=
  [byte r.revision, r.flags.toByte, packByte [r.speed.isSome, r.wind.isSome]] ++
  (le16 r.distance ++ ([byte r.quality.code] ++ (le16 (orZero r.speed) ++ ([byte r.gateUsed] ++
  (le16s (r.wind.getD 0) ++ ([byte r.marks.held.length] ++ (r.marks.toList.map markByte ++
  (le16s r.distancePoints ++ (le16 r.stylePoints ++ (le16s r.gateComp ++ (le16s r.windComp ++ le16 r.total)))))))))))

theorem ResultPayload.bytes_eq (r : ResultPayload) : r.bytes = r.hdr.bytes ++ r.rest := by
  simp only [ResultPayload.bytes, ResultPayload.rest, List.append_assoc]

/-- An optional number under its presence flag reads back. -/
theorem presentNat {n : Option Nat} (h : ∀ v, n = some v → v < 65536) :
    (n.isSome || u16 (byte (orZero n)) (byte (orZero n / 256)) == 0) = true ∧
      (if n.isSome then some (u16 (byte (orZero n)) (byte (orZero n / 256))) else none) = n := by
  cases n with
  | none => exact ⟨rfl, rfl⟩
  | some v => exact ⟨rfl, congrArg some (u16_bytes (h v rfl))⟩

/-- An optional signed number under its presence flag reads back. -/
theorem presentInt {n : Option Int} (h : ∀ v, n = some v → fitsS16 v = true) (lo hi : Byte)
    (hlo : lo = byte (BitVec.ofInt 16 (n.getD 0)).toNat) (hhi : hi = byte ((BitVec.ofInt 16 (n.getD 0)).toNat / 256)) :
    (n.isSome || s16 lo hi == 0) = true ∧ (if n.isSome then some (s16 lo hi) else none) = n := by
  subst hlo hhi
  cases n with
  | none => exact ⟨rfl, rfl⟩
  | some v => exact ⟨rfl, congrArg some (s16_bytes (h v rfl))⟩

/-- The range test of a RESULT, taken apart. -/
theorem ResultPayload.inRange_fields {r : ResultPayload} (h : r.inRange = true) :
    r.hdr.inRange = true ∧ r.revision < 256 ∧ r.distance < 65536 ∧ r.gateUsed < 256 ∧ r.stylePoints < 65536 ∧
    r.total < 65536 ∧ (∀ v, r.speed = some v → v < 65536) ∧ (∀ v, r.wind = some v → fitsS16 v = true) ∧
    r.marks.held.all (· ≤ 40) = true ∧ fitsS16 r.distancePoints = true ∧ fitsS16 r.gateComp = true ∧
    fitsS16 r.windComp = true := by
  simp only [ResultPayload.inRange, Bool.and_eq_true, decide_eq_true_eq, within] at h
  obtain ⟨⟨⟨⟨⟨⟨⟨⟨⟨⟨⟨⟨hdr, rev⟩, dist⟩, -⟩, speed⟩, -, gate⟩, wind⟩, marks⟩, dp⟩, sp⟩, gc⟩, wc⟩, total⟩ := h
  refine ⟨hdr, by omega, by omega, by omega, by omega, by omega, fun v e => ?_, fun v e => ?_, marks, dp, gc, wc⟩
  · rw [e] at speed; simp at speed; omega
  · rw [e] at wind; simp at wind; simp [fitsS16]; omega

/-- What follows the attempt header of a RESULT reads back (R146, R190). -/
theorem readResult_rest {r : ResultPayload} (h : r.inRange = true) : readResult r.hdr r.rest = some (.result r) := by
  obtain ⟨-, rev, dist, gate, sp, total, speed, wind, marks, dp, gc, wc⟩ := r.inRange_fields h
  have mark := fun x k => readMark_markByte (Seats.mark_le marks (x := x) k)
  have count : r.marks.held.length % 256 = r.marks.held.length := by
    have : r.marks.held.length ≤ 5 := (List.length_filterMap_le _ _).trans (by simp [Seats.toList])
    omega
  simp only [Seats.toList, List.mem_cons, List.not_mem_nil, or_false, forall_eq_or_imp, forall_eq] at mark
  obtain ⟨m1, m2, m3, m4, m5⟩ := mark
  obtain ⟨s1, s2⟩ := presentNat speed
  obtain ⟨w1, w2⟩ := presentInt wind _ _ rfl rfl
  simp only [ResultPayload.rest, le16, le16s, Seats.toList, List.map_cons, List.map_nil, List.cons_append,
    List.nil_append, readResult, ResultFlags.ofByte_toByte, unpackByte_pair, byte_toNat,
    Quality.ofCode_code, Option.bind_eq_bind, Option.bind_some, m1, m2, m3, m4, m5, List.headD_cons, List.drop_succ_cons,
    List.drop_zero, count, Nat.mod_eq_of_lt rev, Nat.mod_eq_of_lt gate, u16_bytes dist, u16_bytes sp, u16_bytes total,
    s16_bytes dp, s16_bytes gc, s16_bytes wc, s1, w1, w2, Bool.and_self, decide_true, if_true]
  exact congrArg (fun v => some (Body.result { r with speed := v })) s2

/-! ## Payloads and frames -/

/-- What follows the attempt header of an attempt-bearing frame. -/
def Body.afterHdr : Body → List Byte
  | .call _ g => [byte g]
  | .gate _ g a => [byte g, boolByte a]
  | .phase _ p g sec n => [byte p.code, byte g, byte sec, byte n]
  | .coach _ g q w => [byte g, byte q, boolByte w]
  | .leave _ l => [packByte [l]]
  | .void _ r => [byte r.code]
  | .speed _ v => le16 v
  | .takeoff _ n => [packByte [n]]
  | .inView _ sp => [byte sp]
  | .viewLost _ sp r => [byte sp, byte r.code]
  | .contact _ sp t pos => [byte sp, byte t.code] ++ le16 pos
  | .landing _ d q n l => le16 d ++ [byte q.code, packByte [n, l]]
  | .mastMean _ m mean used p => [byte m] ++ le16s (mean.getD 0) ++ [byte used, packByte [p, mean.isNone]]
  | .result r => r.rest
  | _ => []

/-- An attempt-bearing payload opens with the attempt header (R35). -/
theorem Body.payload_eq {b : Body} {h : AttemptHdr} (e : b.hdr? = some h) : b.payload = h.bytes ++ b.afterHdr := by
  cases b with
  | result r => cases e; exact r.bytes_eq
  | _ => cases e <;> simp [Body.payload, Body.afterHdr]

/-- The header of an attempt-bearing frame in range is in range (R190). -/
theorem Body.hdr_inRange {b : Body} {h : AttemptHdr} (e : b.hdr? = some h) (k : b.inRange = true) :
    h.inRange = true := by
  cases b with
  | result r => cases e; exact (ResultPayload.inRange_fields k).1
  | go x | leave x | void x | takeoff x => cases e; exact k
  | _ =>
    cases e <;> (simp only [Body.inRange, Bool.and_eq_true] at k; tauto)

/-- What follows the attempt header reads back. -/
theorem readAttemptBody_afterHdr {b : Body} {h : AttemptHdr} (e : b.hdr? = some h) (k : b.inRange = true) :
    readAttemptBody b.kind h b.afterHdr = some b := by
  cases b with
  | result r =>
    cases e
    exact readResult_rest k
  | status | corridor | event | hold | round | text => cases e
  | go x =>
    cases e
    rfl
  | mastMean x m mean used p =>
    cases e
    simp only [Body.inRange, Bool.and_eq_true, decide_eq_true_eq, within] at k
    obtain ⟨⟨⟨-, -, hm⟩, hu⟩, hx⟩ := k
    have em : m % 256 = m := by omega
    have eu : used % 256 = used := by omega
    cases mean with
    | none => simp [readAttemptBody, Body.kind, Body.afterHdr, le16s, le16, em, eu, s16, u16]
    | some v => simp [readAttemptBody, Body.kind, Body.afterHdr, le16s, le16, em, eu, -BitVec.toNat_ofInt,
      s16_bytes (show fitsS16 v = true from hx)]
  | speed x v =>
    cases e
    simp only [Body.inRange, Bool.and_eq_true, decide_eq_true_eq, within] at k
    simp [readAttemptBody, Body.kind, Body.afterHdr, le16, u16_bytes (show v < 65536 by omega)]
  | contact x sp t pos =>
    cases e
    simp only [Body.inRange, Bool.and_eq_true, decide_eq_true_eq, within] at k
    have es : sp % 256 = sp := by omega
    simp [readAttemptBody, Body.kind, Body.afterHdr, le16, es, u16_bytes (show pos < 65536 by omega)]
  | landing x d q n l =>
    cases e
    simp only [Body.inRange, Bool.and_eq_true, decide_eq_true_eq] at k
    simp [readAttemptBody, Body.kind, Body.afterHdr, le16, u16_bytes (show d < 65536 by omega)]
  | call x g =>
    cases e
    simp only [Body.inRange, Bool.and_eq_true, decide_eq_true_eq, within] at k
    simp [readAttemptBody, Body.kind, Body.afterHdr, show g % 256 = g by omega]
  | gate x g a =>
    cases e
    simp only [Body.inRange, Bool.and_eq_true, decide_eq_true_eq, within] at k
    simp [readAttemptBody, Body.kind, Body.afterHdr, show g % 256 = g by omega]
  | phase x p g sec n =>
    cases e
    simp only [Body.inRange, Bool.and_eq_true, decide_eq_true_eq, within] at k
    simp [readAttemptBody, Body.kind, Body.afterHdr, show g % 256 = g by omega, show sec % 256 = sec by omega,
      show n % 256 = n by omega]
  | coach x g q w =>
    cases e
    simp only [Body.inRange, Bool.and_eq_true, decide_eq_true_eq, within] at k
    simp [readAttemptBody, Body.kind, Body.afterHdr, show g % 256 = g by omega, show q % 256 = q by omega]
  | leave x l | void x l | takeoff x l =>
    cases e
    simp [readAttemptBody, Body.kind, Body.afterHdr]
  | inView x sp =>
    cases e
    simp only [Body.inRange, Bool.and_eq_true, decide_eq_true_eq, within] at k
    simp [readAttemptBody, Body.kind, Body.afterHdr, show sp % 256 = sp by omega]
  | viewLost x sp r =>
    cases e
    simp only [Body.inRange, Bool.and_eq_true, decide_eq_true_eq, within] at k
    simp [readAttemptBody, Body.kind, Body.afterHdr, show sp % 256 = sp by omega]

/-- An attempt-bearing payload is read as its header and then the rest (R35). -/
theorem readBody_of_hdr {b : Body} {h : AttemptHdr} (e : b.hdr? = some h) (bs : List Byte) :
    readBody b.kind bs = (readHdr bs).bind fun p => readAttemptBody b.kind p.1 p.2 := by
  cases b with
  | status | corridor | event | hold | round | text => cases e
  | _ => simp only [readBody, Body.kind]; cases readHdr bs <;> rfl

/-- The bytes of every payload in range read back as its content. -/
theorem readBody_payload {b : Body} (k : b.inRange = true) : readBody b.kind b.payload = some b := by
  cases e : b.hdr? with
  | some h =>
    have rest := readAttemptBody_afterHdr e k
    have hdr := readHdr_bytes (Body.hdr_inRange e k) b.afterHdr
    rw [readBody_of_hdr e, Body.payload_eq e, hdr]
    exact rest
  | none =>
    cases b with
    | status p => exact congrArg (Option.map Body.status) (readStatus_bytes k)
    | corridor m x y u f =>
      simp only [Body.inRange, Bool.and_eq_true, decide_eq_true_eq, within] at k
      obtain ⟨⟨⟨⟨-, hm⟩, hx⟩, hy⟩, hu⟩ := k
      simp [readBody, Body.kind, Body.payload, le16s, le16, -BitVec.toNat_ofInt, s16_bytes hx, s16_bytes hy,
        show m % 256 = m by omega,
        show u % 256 = u by omega]
    | event n m r =>
      simp only [Body.inRange, Bool.and_eq_true, decide_eq_true_eq, within] at k
      simp [readBody, Body.kind, Body.payload, show n % 256 = n by omega, show r % 256 = r by omega]
    | hold set => simp [readBody, Body.kind, Body.payload]
    | round r m g =>
      have small : r < 256 ∧ g < 256 := by
        cases m <;> simp [Body.inRange, within] at k <;> omega
      simp [readBody, Body.kind, Body.payload, Nat.mod_eq_of_lt small.1, Nat.mod_eq_of_lt small.2]
    | text cs => rfl
    | _ => cases e

/-- No payload in range is longer than 32 bytes (R2). -/
theorem Body.payload_length_le {b : Body} (k : b.inRange = true) : b.payload.length ≤ 32 := by
  cases b with
  | status p =>
    have start : (startBytes p.start).length ≤ 5 := by cases p.start <;> simp [startBytes, le16]
    have jury : (juryBytes p.jury).length ≤ 4 := by cases p.jury <;> simp [juryBytes, le16]
    have mast : (mastBytes p.mast).length ≤ 2 := by cases p.mast <;> simp [mastBytes]
    have span : (spanBytes p.span).length ≤ 2 := by cases p.span <;> simp [spanBytes]
    have edge : (edgeBytes p.edge).length ≤ 1 := by cases p.edge <;> simp [edgeBytes]
    simp only [Body.payload, StatusPayload.bytes, p.parts_eq, List.length_append, List.length_cons, List.length_nil, le16]
    omega
  | text cs =>
    simp only [Body.inRange, Bool.and_eq_true, decide_eq_true_eq, within] at k
    exact k.1.2
  | result r => simp [Body.payload, r.bytes_eq, ResultPayload.rest, AttemptHdr.bytes, le16, le16s, Seats.toList]
  | _ => simp [Body.payload, AttemptHdr.bytes, le16, le16s]

/-- Every kind is one of the manual's (section 12.1), and fits a byte. -/
theorem Body.kind_known (b : Body) : frameKinds.contains b.kind = true ∧ b.kind % 256 = b.kind := by
  cases b <;> exact ⟨rfl, rfl⟩

/-- The station byte gives the station number and the urgent mark back (R2). -/
theorem stationByte_fields {n : Nat} (h : n ≤ 15) (urgent : Bool) : ((stationByte n urgent).toNat / 128 == 1) = urgent ∧
    (stationByte n urgent).toNat % 128 = n ∧ (stationByte n urgent).toNat % 16 = n := by
  cases urgent <;> simp only [stationByte, byte_toNat, if_true, Bool.false_eq_true, if_false, beq_eq_false_iff_ne,
    beq_iff_eq] <;> omega

/-- Settles O54: the header bytes, the payload (`readBody_payload`), the age and the CRC read back. -/
theorem framesRoundTrip : Obligations.FramesRoundTrip := by
  intro sender event age b hs he k
  have short := Body.payload_length_le k
  obtain ⟨known, kind⟩ := b.kind_known
  obtain ⟨urgent, small, station⟩ := stationByte_fields hs b.urgent
  have length : b.payload.length % 256 = b.payload.length := by omega
  have number : event % 256 = event := by omega
  have core : (frameCore sender event age b).length = 6 + b.payload.length := by
    simp [frameCore, le16]; omega
  have crc : (frameBytes sender event age b).take (6 + b.payload.length) = frameCore sender event age b := by
    rw [frameBytes, ← core, List.take_left]
  have shape : frameBytes sender event age b = byte b.kind :: stationByte sender b.urgent :: byte b.payload.length ::
      byte event :: (b.payload ++ [byte age.toNat, byte (age.toNat / 256),
        byte (crc16 (frameCore sender event age b)).toNat, byte ((crc16 (frameCore sender event age b)).toNat / 256)]) := by
    simp [frameBytes, frameCore, le16]
  unfold decodeFrame
  rw [shape]
  dsimp only
  rw [← shape]
  simp only [byte_toNat, length, List.take_left, List.drop_left, crc, short, known, kind, urgent, small, station, number,
    word16_bytes, readBody_payload k, k, show urgentKind b.kind = b.urgent from rfl, show sender < 16 by omega, decide_true,
    beq_self_eq_true, Bool.and_self, if_true]

end Sys2Proof
end

section
/-! The hill line (chapter 1): offers, the access to the line, its guards, and what is not taken. -/

namespace Sys2Proof.Machine

open Sys2Proof

/-! ## Offers (R4, R9, R10) -/

/-- STATUS and CORRIDOR are of the routine class, and are the kinds of which one waits (section 1.4, R10). -/
theorem Body.replaces_iff (b : Body) : b.replaces = true ↔ b.kind = 0x01 ∨ b.kind = 0x02 := by
  simp [Body.replaces]

theorem Body.routine_of_replaces {b : Body} (h : b.kind = 0x01 ∨ b.kind = 0x02) : b.urgent = false := by
  unfold Body.urgent
  rcases h with h | h <;> rw [h] <;> rfl

/-- At a MUTED station an offered frame is discarded (R4). -/
theorem State.offer_muted {s : State} (h : s.loader.state.isMuted = true) (b : Body) (e : Option Tick) :
    s.offer b e = s := by
  rcases s.offer_cases b e with ⟨-, x⟩ | ⟨m, -⟩ | ⟨m, -⟩ | ⟨m, -⟩
  · exact x
  all_goals exact absurd (h.symm.trans m) (by simp)

/-- An offered frame that replaces none joins the tail of its queue, or is dropped where eight wait (R9). -/
theorem State.offer_joins {s : State} {b : Body} (m : s.loader.state.isMuted = false)
    (r : (b.replaces && (s.line.queue b.urgent).any (fun g => g.body.kind == b.kind)) = false) (e : Option Tick) :
    s.offer b e = if (s.line.queue b.urgent).length < 8 then
        { s with line := (s.line.withQueue b.urgent (s.line.queue b.urgent ++ [⟨b, s.line.eventNumber, e⟩])) }
      else s.report .txOverflow b.kind := by
  rcases s.offer_cases b e with ⟨x, -⟩ | ⟨-, x, y, -⟩ | ⟨-, x, y⟩ | ⟨-, x, -, y⟩
  · exact absurd (x.symm.trans m) (by simp)
  · rw [x, y] at r; exact absurd r (by simp)
  · rw [if_neg (by omega), y]
  · rw [if_pos x, y]

/-- An offered STATUS or CORRIDOR takes the place of one that waits (R10). -/
theorem State.offer_replaces {s : State} {b : Body} (m : s.loader.state.isMuted = false) (r : b.replaces = true)
    (a : ∃ g ∈ s.line.queue b.urgent, g.body.kind = b.kind) (e : Option Tick) :
    s.offer b e = { s with line := (s.line.withQueue b.urgent
      (replaceFrame ⟨b, s.line.eventNumber, e⟩ (s.line.queue b.urgent))) } := by
  have any : (s.line.queue b.urgent).any (fun g => g.body.kind == b.kind) = true := by simpa using a
  have f : s.offerFate b = .replaced := by simp [State.offerFate, m, r, any]
  simp [State.offer, f, LineState.offered]

/-- Settles O8: the cases of an offer that replaces nothing (`State.offer_muted`, `State.offer_joins`). -/
theorem offeredFrames : Obligations.OfferedFrames := by
  refine ⟨fun s b e h => State.offer_muted h b e, fun s b e m u => ?_, fun s b e m u k => ?_⟩
  · have r : b.replaces = false := by
      rw [Bool.eq_false_iff]
      intro r
      rw [Body.routine_of_replaces ((Body.replaces_iff b).1 r)] at u
      exact absurd u (by simp)
    rw [State.offer_joins m (by simp [r]), u]
    rfl
  · have r : (b.replaces && (s.line.queue b.urgent).any (fun g => g.body.kind == b.kind)) = false := by
      rw [u]
      rcases k with ⟨k1, k2⟩ | k
      · simp [Body.replaces, k1, k2]
      · simp [LineState.queue]; exact fun _ => k
    rw [State.offer_joins m r, u]
    rfl

/-- The first frame of the kind is the one replaced (R10). -/
theorem replaceFrame_append {f g : QueuedFrame} {front back : List QueuedFrame} (h : g.body.kind = f.body.kind)
    (n : ∀ x ∈ front, x.body.kind ≠ f.body.kind) : replaceFrame f (front ++ g :: back) = front ++ f :: back := by
  induction front with
  | nil => simp [replaceFrame, h]
  | cons x xs ih =>
    have x' : x.body.kind ≠ f.body.kind := n x (by simp)
    simp [replaceFrame, x', ih fun y m => n y (by simp [m])]

/-- Settles O9: a waiting frame of the kind is replaced in its place (`replaceFrame_append`), and at most one of each
kind waits after any offer (`State.offer_queuesSound`). -/
theorem statusAndCorridorReplace : Obligations.StatusAndCorridorReplace := by
  refine ⟨fun s b e front back g m k q hg hf => ?_, fun s b e m k none room => ?_, fun s b e h => ?_⟩
  · have u := Body.routine_of_replaces k
    rw [State.offer_replaces m ((Body.replaces_iff b).2 k) ⟨g, by simp [u, LineState.queue, q], hg⟩ e, u]
    simp only [LineState.queue, LineState.withQueue, q, Bool.false_eq_true, if_false]
    rw [replaceFrame_append hg hf]
  · have u := Body.routine_of_replaces k
    rw [State.offer_joins m (by simp [u, LineState.queue]; exact fun _ => none) e, u]
    simp [LineState.queue, LineState.withQueue, room]
  · obtain ⟨-, -, status, corridor⟩ := s.offer_queuesSound b e h
    exact ⟨status, corridor⟩

/-! ## The length of a frame (R1, R2) -/

/-- A frame has eight bytes beside its payload. -/
theorem frameBytes_length (sender event : Nat) (age : Word16) (b : Body) :
    (frameBytes sender event age b).length = 8 + b.payload.length := by
  simp [frameBytes, frameCore, le16]
  omega

/-- A frame lasts 20 µs a character (R1). -/
theorem lineUs_eq (b : Body) (sender event : Nat) (age : Word16) :
    b.lineUs = 20 * (frameBytes sender event age b).length := by
  rw [frameBytes_length]
  rfl

/-! ## Access to the line (R7, R11, R15) -/

/-- The candidate leaves its queue: the urgent one, or where that is empty the routine one. -/
theorem LineState.popCandidate_eq (l : LineState) : l.popCandidate = { l with
    urgent := l.urgent.tail, routine := if l.urgent = [] then l.routine.tail else l.routine } := by
  unfold LineState.popCandidate
  cases h : l.urgent with
  | nil => simp
  | cons f q => simp

/-- The quiet time that the candidate needs (R11, R15). -/
theorem LineState.neededQuiet_eq (l : LineState) (station : Nat) (f : QueuedFrame) :
    l.neededQuiet station f = (if l.resumeGuard then 1000 else 0) + 24 + 8 * (if f.body.urgent then station
      else if l.yieldMark then 32 + station else 16 + station) := by
  unfold LineState.neededQuiet LineState.gap LineState.slot
  split <;> omega

/-- The candidate is the head of the urgent queue, or else of the routine queue (R11). -/
theorem LineState.candidate_eq {l : LineState} {f : QueuedFrame}
    (h : l.urgent.head? = some f ∨ l.urgent = [] ∧ l.routine.head? = some f) : l.candidate = some f := by
  unfold LineState.candidate
  rcases h with h | ⟨h, k⟩
  · cases u : l.urgent with
    | nil => rw [u] at h; cases h
    | cons g q => rw [u] at h; exact h
  · rw [h]; exact k

/-- Empty queues have no candidate. -/
theorem LineState.candidate_none {l : LineState} (h : l.urgent = [] ∧ l.routine = []) : l.candidate = none := by
  obtain ⟨u, r⟩ := h
  unfold LineState.candidate
  rw [u, r]
  rfl

/-- What TRANSMISSION_START does: the candidate is sent from the quiet time that it needs, where the station may send. -/
theorem execTransmissionStart_eq {s : State} {f : QueuedFrame} (us : Nat) (c : s.line.candidate = some f) :
    exec (.transmissionStart us) s = .next
      (if s.maySend = true ∧ s.line.neededQuiet s.loader.station f ≤ min us s.line.quietUs then s.beginTx f else s) := by
  have e : s.startsFrame us =
      if s.maySend = true ∧ s.line.neededQuiet s.loader.station f ≤ min us s.line.quietUs then some f else none := by
    simp [State.startsFrame, c, LineState.quietOf]
  show execTransmissionStart us s = _
  unfold execTransmissionStart
  by_cases p : s.maySend = true ∧ s.line.neededQuiet s.loader.station f ≤ min us s.line.quietUs
  · rw [e, if_pos p, if_pos p]
  · rw [e, if_neg p, if_neg p]

/-- Without a candidate, or where the station may not send, TRANSMISSION_START does nothing. -/
theorem execTransmissionStart_idle {s : State} (us : Nat) (h : s.line.candidate = none ∨ s.maySend = false) :
    exec (.transmissionStart us) s = .next s := by
  cases c : s.line.candidate with
  | none =>
    have e : s.startsFrame us = none := by simp [State.startsFrame, c]
    show execTransmissionStart us s = _
    unfold execTransmissionStart
    rw [e]
  | some f =>
    have n : s.maySend = false := h.resolve_left (by simp [c])
    rw [execTransmissionStart_eq us c, if_neg (by simp [n])]

/-- The age of an event at a frame's start (R7; log entry 34). -/
theorem ageAt_toNat (now e : Tick) : (ageAt now (some e)).toNat = min 65535 (now - e).toNat := by
  unfold ageAt
  dsimp only
  split
  · rw [BitVec.toNat_ofNat]; omega
  · show 65535 = _; omega

/-- The age carries the event time to a receiver whose clock stands at an offset, unless it is saturated (R7, R8). -/
theorem eventTime_ageAt (sent event offset : Tick) (sender number : Nat) :
    ((sent - event).toNat ≤ 65534 →
      LineHdr.eventTime ⟨sender, number, ageAt sent (some event), sent + offset⟩ = event + offset ∧
      LineHdr.saturated ⟨sender, number, ageAt sent (some event), sent + offset⟩ = false) ∧
    (65534 < (sent - event).toNat →
      LineHdr.eventTime ⟨sender, number, ageAt sent (some event), sent + offset⟩ = sent + offset - 65535 ∧
      LineHdr.saturated ⟨sender, number, ageAt sent (some event), sent + offset⟩ = true) := by
  refine ⟨fun h => ?_, fun h => ?_⟩
  · have value := ageAt_toNat sent event
    have back : (ageAt sent (some event)).zeroExtend 32 = sent - event := by
      apply BitVec.eq_of_toNat_eq
      rw [BitVec.toNat_setWidth, value]
      omega
    refine ⟨?_, ?_⟩
    · unfold LineHdr.eventTime
      dsimp only
      rw [back]
      bv_omega
    · unfold LineHdr.saturated
      rw [beq_eq_false_iff_ne]
      intro e
      rw [show ageAt sent (some event) = 0xFFFF from e] at value
      have : (0xFFFF : Word16).toNat = 65535 := rfl
      omega
  · have e : ageAt sent (some event) = 0xFFFF := by
      unfold ageAt
      dsimp only
      rw [if_neg (by omega)]
    unfold LineHdr.eventTime LineHdr.saturated
    rw [e]
    exact ⟨rfl, rfl⟩

/-- Settles O10: the start of the candidate (`execTransmissionStart_eq`), and the age (`ageAt_toNat`,
`eventTime_ageAt`). -/
theorem transmissionCarriesTheAge : Obligations.TransmissionCarriesTheAge := by
  refine ⟨fun s f slot reset active tx busy hung cand hslot => ?_, fun s us h => ?_,
    fun sent event offset sender number => ?_⟩
  · have c := LineState.candidate_eq cand
    have may : s.maySend = true := by
      rcases active with a | a <;> simp [State.maySend, State.lineListens, StationState.isMuted, reset, a, tx, busy, hung]
    have needed : s.line.neededQuiet s.loader.station f =
        (if s.line.resumeGuard then 1000 else 0) + 24 + 8 * slot := by rw [LineState.neededQuiet_eq, hslot]
    refine ⟨fun enough => ⟨ageAt s.clock f.eventTime, fun e => by rw [e]; rfl, fun e h => by rw [h, ageAt_toNat],
      fun us hus => ?_⟩, fun us short => ?_⟩
    · rw [execTransmissionStart_eq us c, if_pos ⟨may, by omega⟩, State.beginTx, State.modLine, LineState.popCandidate_eq]
    · rw [execTransmissionStart_eq us c, if_neg (by omega)]
  · refine execTransmissionStart_idle us ?_
    rcases h with h | h | h
    · exact .inr (by simp [State.maySend, h])
    · exact .inr (by simp [State.maySend, h])
    · exact .inl (LineState.candidate_none h)
  · obtain ⟨near, far⟩ := eventTime_ageAt sent event offset sender number
    exact ⟨near, far, by simp [LineHdr.eventTime, ageAt]⟩

/-! ## The guards (R13 to R15) -/

/-- The frame commands. -/
def isFrame : Instr → Bool
  | .statusFrame .. | .corridorFrame .. | .eventFrame .. | .callFrame .. | .goFrame .. | .gateFrame .. | .holdFrame ..
  | .roundFrame .. | .textFrame .. | .phaseFrame .. | .coachFrame .. | .leaveFrame .. | .voidFrame .. | .speedFrame ..
  | .takeoffFrame .. | .inViewFrame .. | .viewLostFrame .. | .contactFrame .. | .landingFrame .. | .mastmeanFrame ..
  | .resultFrame .. => true
  | _ => false

theorem isFrame_frameCommand (h : RxHdr) (b : Body) : isFrame (frameCommand h b) = true := by cases b <;> rfl

theorem mem_whenDue {x c : Instr} {d : Bool} : x ∈ whenDue d c ↔ d = true ∧ x = c := by
  unfold whenDue; cases d <;> simp

/-- A list without frame commands. -/
def NoFrames (cs : List Instr) : Prop := ∀ c ∈ cs, isFrame c = false

theorem NoFrames.append {as bs : List Instr} (h : NoFrames as) (k : NoFrames bs) : NoFrames (as ++ bs) :=
  fun c m => (List.mem_append.1 m).elim (h c) (k c)

theorem NoFrames.whenDue {d : Bool} {c : Instr} (h : isFrame c = false) : NoFrames (whenDue d c) :=
  fun x m => by rw [(mem_whenDue.1 m).2]; exact h

theorem NoFrames.map {α : Type} {f : α → Instr} (h : ∀ a, isFrame (f a) = false) (as : List α) : NoFrames (as.map f) :=
  fun x m => by obtain ⟨a, -, rfl⟩ := List.mem_map.1 m; exact h a

/-- The commands that fall due beside the echo are not frame commands. -/
theorem State.due_noFrames (s : State) : NoFrames s.dueGuards ∧ NoFrames s.dueStart ∧ NoFrames s.dueEdge ∧
    NoFrames s.dueFlight ∧ NoFrames s.dueScore ∧ NoFrames s.dueBoard := by
  have w : ∀ {d c}, isFrame c = false → NoFrames (whenDue d c) := .whenDue
  have contexts : NoFrames (s.contexts.flatMap (·.dueCommands s.clock)) := by
    intro x m
    obtain ⟨c, -, m⟩ := List.mem_flatMap.1 m
    have claims : NoFrames (if c.phase = .flightWait then
        (c.claims.filter (·.due s.clock)).map (fun k => .claimLimitReached c.attempt k.span) else []) := by
      split
      · exact .map (fun _ => rfl) _
      · exact fun _ m => absurd m (by simp)
    exact (((((w rfl).append (w rfl)).append claims).append (w rfl)).append (w rfl)) x m
  refine ⟨(w rfl).append (w rfl), ?_, (NoFrames.map (fun _ => rfl) _).append (w rfl),
    ((w rfl).append (w rfl)).append contexts, ?_, (((w rfl).append (w rfl)).append (w rfl)).append (w rfl)⟩
  · exact (((((((w rfl).append (w rfl)).append (w rfl)).append (w rfl)).append (.map (fun _ => rfl) _)).append
      (w rfl)).append (w rfl)).append (w rfl)
  · exact (((NoFrames.map (fun _ => rfl) _).append (.map (fun _ => rfl) _)).append (.map (fun _ => rfl) _)).append (w rfl)

/-- Of what falls due, only the echo is a frame command. -/
theorem State.frame_mem_dueCommands {s : State} (reset : s.resetAsserted = false) (h : RxHdr) (b : Body) :
    frameCommand h b ∈ s.dueCommands ↔ frameCommand h b ∈ s.dueEcho := by
  have out : ∀ {cs}, NoFrames cs → frameCommand h b ∉ cs := fun n m =>
    absurd ((isFrame_frameCommand h b).symm.trans (n _ m)) (by simp)
  have w : ∀ {d c}, isFrame c = false → frameCommand h b ∉ whenDue d c := fun e => out (.whenDue e)
  obtain ⟨guards, start, edge, flight, score, board⟩ := s.due_noFrames
  have silent := out (NoFrames.map (f := Instr.stationSilent) (fun _ => rfl)
    ((List.range 16).filter (fun n => (s.rosterAt n).silentDue s.clock)))
  unfold State.dueCommands State.dueLine
  rw [if_neg (by simp [reset])]
  simp only [List.mem_append, out guards, out start, out edge, out flight, out score, out board, silent, or_false,
    w (c := .eepromRetryTimer) rfl, w (c := .statusOffer) rfl, w (c := .corridorOffer) rfl,
    w (c := .transmissionStart s.line.quietUs) rfl, false_or]

/-- The echo falls due when the frame in transmission has gone out whole (R13; log entry 58). -/
theorem State.echo_mem_dueCommands {s : State} (reset : s.resetAsserted = false) {g : LineFrame}
    (tx : s.line.tx = some g) :
    frameCommand g.line.rx g.body ∈ s.dueCommands ↔ s.line.sentWhole g = true := by
  rw [State.frame_mem_dueCommands reset, State.dueEcho, tx]
  simp [mem_whenDue]

/-- The guards of the frame in transmission (R12 to R14). -/
theorem lineGuards_tx :
    (∀ (s : State) (g : LineFrame), s.line.tx = some g →
     let ended := { s with line := { s.line with
       tx := none, quietUs := 0, rx := {}, yieldMark := s.line.yieldMark || !g.body.urgent } }
     exec .txEcho s = .next (ended.report .txEcho g.body.kind) ∧
     (∀ us, 1000 < us → exec (.txJabber us) s = .next (ended.report .txJabber g.body.kind))) ∧
   (∀ (s : State) (us : Nat), us ≤ 1000 → exec (.txJabber us) s = .next s) ∧
   (∀ (s : State) (us : Nat), s.line.tx = none →
     exec .txEcho s = .next s ∧ exec (.txJabber us) s = .next s ∧ s.driverEnable = false) ∧
   (∀ (s : State) (g : LineFrame) (us : Nat), s.line.tx = some g → s.line.busyUs = some us →
     ∀ length, length = 20 * (frameBytes g.line.sender g.line.event g.line.age g.body).length →
     s.driverEnable = decide (us < length) ∧
     (s.resetAsserted = false → (frameCommand g.line.rx g.body ∈ s.dueCommands ↔ length ≤ us))) := by
  have jabber : ∀ (s : State) us, exec (.txJabber us) s = .next (if 1000 < us then s.abandonTx .txJabber else s) :=
    fun _ _ => rfl
  have echo : ∀ s : State, exec .txEcho s = .next (s.abandonTx .txEcho) := fun _ => rfl
  refine ⟨fun s g tx => ?_, fun s us h => ?_, fun s us tx => ?_, fun s g us tx busy length hl => ?_⟩
  · have abandon : ∀ k, s.abandonTx k = (s.modLine (·.endTx g.body)).report k g.body.kind := fun k => by
      unfold State.abandonTx; rw [tx]
    exact ⟨by rw [echo, abandon]; rfl, fun us h => by rw [jabber, if_pos h, abandon]; rfl⟩
  · rw [jabber, if_neg (by omega)]
  · have abandon : ∀ k, s.abandonTx k = s := fun k => by unfold State.abandonTx; rw [tx]
    exact ⟨by rw [echo, abandon], by rw [jabber, abandon, ite_self], by simp [State.driverEnable, tx]⟩
  · have sent : s.line.sentWhole g = decide (length ≤ us) := by
      unfold LineState.sentWhole
      rw [busy, Option.getD_some, lineUs_eq, ← hl]
    refine ⟨?_, fun reset => by rw [State.echo_mem_dueCommands reset tx, sent, decide_eq_true_eq]⟩
    unfold State.driverEnable
    rw [tx, Option.any_some, sent, ← decide_not]
    simp only [Nat.not_le]

/-- The hung-line guard (R15). -/
theorem lineGuards_hung :
    (∀ (s : State) (us : Nat), s.resetAsserted = false → s.loader.state ≠ .loading →
     s.line.hung = false → 2000 < us →
     exec (.lineHung us) s =
       .next (({ s with line := { s.line with
         hung := true, quietUs := 0, busyUs := some us } }).report .lineHung 0)) ∧
   (∀ (s : State) (us : Nat), s.resetAsserted = false → s.line.hung = true ∨ s.loader.state = .loading →
     2000 < us →
     exec (.lineHung us) s = .next { s with line := { s.line with quietUs := 0, busyUs := some us } }) ∧
   (∀ (s : State) (us : Nat), us ≤ 2000 → exec (.lineHung us) s = .next s) ∧
   (∀ (s : State) (us : Nat), s.line.hung = true → 1000 ≤ us → 1000 ≤ s.line.quietUs →
     exec (.lineHungEnd us) s = .next { s with line := { s.line with
       hung := false, resumeGuard := true, busyUs := none, rx := {} } }) ∧
   (∀ (s : State) (us : Nat), s.line.hung = false ∨ us < 1000 ∨ s.line.quietUs < 1000 →
     exec (.lineHungEnd us) s = .next s) ∧
   (∀ (s : State) (us : Nat), s.line.hung = true → exec (.transmissionStart us) s = .next s) := by
  have hung : ∀ (s : State) us, exec (.lineHung us) s = execLineHung us s := fun _ _ => rfl
  have ends : ∀ (s : State) us, s.line.hungEnds us = (s.line.hung && decide (1000 ≤ min us s.line.quietUs)) :=
    fun _ _ => rfl
  have hungEnd : ∀ (s : State) us, exec (.lineHungEnd us) s = .next (if s.line.hungEnds us then
      s.modLine (fun l => { l with hung := false, resumeGuard := true, busyUs := none, rx := {} }) else s) :=
    fun _ _ => rfl
  refine ⟨fun s us reset load free long => ?_, fun s us reset h long => ?_, fun s us short => ?_,
    fun s us h a b => ?_, fun s us h => ?_, fun s us h => ?_⟩
  · have listens : s.lineListens = true := by simp [State.lineListens, reset, load]
    rw [hung, execLineHung, if_pos (by simp [reset, busyLimitUs, long])]
    simp [State.modLine, LineState.busyFor, State.lineListens, reset, load, free]
  · rw [hung, execLineHung, if_pos (by simp [reset, busyLimitUs, long])]
    rcases h with h | h <;> simp [State.modLine, LineState.busyFor, State.lineListens, h]
  · rw [hung, execLineHung, if_neg (by simp [busyLimitUs, Nat.not_lt.2 short])]
  · rw [hungEnd, if_pos (by rw [ends]; simp [h, a, b])]
    rfl
  · rw [hungEnd, if_neg]
    rw [ends]
    rcases h with h | h | h
    · simp [h]
    · simp; omega
    · simp; omega
  · exact execTransmissionStart_idle us (.inr (by simp [State.maySend, h]))

/-- Settles O11. -/
theorem lineGuards : Obligations.LineGuards := ⟨lineGuards_tx, lineGuards_hung⟩

/-! ## What is not taken (R1, R3, R16, R20, R190) -/

/-- What the receive assembler drops (R3). -/
theorem assemblerDrops (s : State) (reset : s.resetAsserted = false) (tx : s.line.tx = none) :
    (∀ us, 20 ≤ us → exec (.rxCharacterGap us) s =
       .next { s with line := { s.line with
         quietUs := us, busyUs := none
         rx := { gathered := if 20 < us then [] else s.line.rx.gathered, skipping := false } } }) ∧
     (∀ us, us < 20 → exec (.rxCharacterGap us) s = .next s) ∧
     (s.loader.state ≠ .loading →
       (∀ bytes, decodeFrame bytes = none → exec (.invalidFrame bytes) s =
         .next { s with line := { s.line with
           quietUs := 0, busyUs := some (s.line.busyUs.getD 0 + 20 * bytes.length)
           rx := { gathered := [], skipping := s.line.rx.skipping || overlong bytes } } }) ∧
       exec .rxFramingError s = .next { s with line := { s.line with
         quietUs := 0, busyUs := some (s.line.busyUs.getD 0 + 20)
         rx := { gathered := [], skipping := true } } }) ∧
     (∀ kind station len rest, 32 < len.toNat → overlong (kind :: station :: len :: rest) = true) := by
  have gap : ∀ us, exec (.rxCharacterGap us) s = execRxCharacterGap us s := fun _ => rfl
  refine ⟨fun us h => ?_, fun us h => ?_, fun load => ⟨fun bytes none => ?_, ?_⟩, fun kind station len rest h => ?_⟩
  · rw [gap, execRxCharacterGap, if_pos (by simp [reset, tx, characterGapUs, h])]
    have d : ¬us < 20 := by omega
    simp [State.modLine, LineState.quietFor, characterGapUs, h, d] <;> rfl
  · rw [gap, execRxCharacterGap, if_neg (by simp [characterGapUs, Nat.not_le.2 h])]
  · show execInvalidFrame bytes s = _
    rw [execInvalidFrame, if_pos (by simp [reset, tx, none])]
    simp [State.modLine, LineState.activity, State.lineListens, reset, load, charUs, bitUs]
  · show execRxFramingError s = _
    rw [execRxFramingError, if_pos (by simp [reset, tx])]
    simp [State.modLine, LineState.activity, State.lineListens, reset, load, charUs, bitUs]
  · simpa [overlong] using h

/-- Settles O12: the assembler (`assemblerDrops`), and the frames that `State.receive` does not hand on. -/
theorem whatTheLineDoesNotTake : Obligations.WhatTheLineDoesNotTake := by
  refine ⟨assemblerDrops, fun s l b us hus => ?_⟩
  rw [exec_frameCommand]
  have length : b.lineUs = us := by rw [hus]; exact lineUs_eq ..
  have range : (l.rx.stamped (s.startStamp b)).inRange = l.inRange := rfl
  refine ⟨fun reset => by rw [State.receive, if_pos reset], fun reset => ⟨fun h => ?_, fun load tx rx out => ?_⟩⟩
  · rcases h with h | ⟨tx, rx⟩
    · simp [State.receive, reset, h, LineState.activity, length]
    · simp [State.receive, reset, tx, rx, LineState.activity, length]
  · simp [State.receive, reset, load, tx, rx, range, out, LineState.heard, length]

end Sys2Proof.Machine
end

section
/-! The end of the load in RUN (R16, R17, R25, R81). -/

namespace Sys2Proof.Machine

open Sys2Proof

/-! ## The hold list in IDLE: no phase changes, and nothing is offered (R59, R62, R64) -/

/-- `t` with the hold list, the settle timer and the notices of `s`. -/
def restoreHoldList (s t : State) : State :=
  { t with
    start := { t.start with holds := s.start.holds, settleAt := s.start.settleAt }
    console := { t.console with notices := s.console.notices, overrun := s.console.overrun } }

/-- In IDLE and in GONE no cause of the hold list opens or closes the start (R62, R64). -/
def StartState.atRest (st : StartState) : Bool := st.phase == .idle || st.phase == .gone

/-- From `s` to `t` nothing changes but the hold list, the settle timer and the notices. -/
structure HoldListOnly (s t : State) : Prop where
  same : restoreHoldList s t = s

namespace HoldListOnly

variable {s t u : State}

theorem refl (s : State) : HoldListOnly s s := ⟨rfl⟩

theorem trans (h : HoldListOnly s t) (k : HoldListOnly t u) : HoldListOnly s u :=
  ⟨calc restoreHoldList s u = restoreHoldList s (restoreHoldList t u) := rfl
    _ = s := by rw [k.same, h.same]⟩

theorem start (h : HoldListOnly s t) :
    t.start = { s.start with holds := t.start.holds, settleAt := t.start.settleAt } :=
  (congrArg (fun u => { u.start with holds := t.start.holds, settleAt := t.start.settleAt }) h.same :)

theorem phase (h : HoldListOnly s t) : t.start.phase = s.start.phase := by rw [h.start]

theorem idle (h : HoldListOnly s t) (i : s.start.phase = .idle) : t.start.phase = .idle := h.phase.trans i

/-- All but the sequencer and the console is as before. -/
theorem form (h : HoldListOnly s t) : t = { s with start := t.start, console := t.console } :=
  (congrArg (fun u => { u with start := t.start, console := t.console }) h.same :)

theorem raise (h : HoldListOnly s t) (n : NoticeBody) : HoldListOnly s (t.raise n) := by
  refine h.trans ⟨?_⟩
  unfold restoreHoldList State.raise
  rcases t.console.raise_cases t.loader.state t.clock n with e | e | ⟨-, e⟩ <;> rw [e]

theorem holds (h : HoldListOnly s t) (v : List Hold) : HoldListOnly s (t.modStart (fun st => { st with holds := v })) :=
  h.trans ⟨rfl⟩

/-- At rest a cause raised closes no start (R64). -/
theorem closeStart (h : HoldListOnly s t) (i : s.start.atRest = true) : HoldListOnly s t.closeStart := by
  rw [StartState.atRest, ← h.phase] at i
  unfold State.closeStart
  split
  · rename_i p; exact absurd i (by simp [p])
  · rename_i p; exact absurd i (by simp [p])
  · exact h

/-- At rest a list that empties opens no start (R62). -/
theorem openStart (h : HoldListOnly s t) (i : s.start.atRest = true) : HoldListOnly s t.openStart := by
  rw [StartState.atRest, ← h.phase] at i
  have red : t.start.phase ≠ .red := fun p => absurd i (by simp [p])
  unfold State.openStart
  simpa [red] using h

theorem settle (h : HoldListOnly s t) (v : Option Tick) :
    HoldListOnly s (t.modStart (fun st => { st with settleAt := v })) := h.trans ⟨rfl⟩

theorem raiseHold (h : HoldListOnly s t) (i : s.start.atRest = true) (c : HoldCause) (a b : Nat) :
    HoldListOnly s (t.raiseHold c a b) := by
  unfold State.raiseHold
  split
  · exact h.holds _
  · exact ((h.holds _).raise _).closeStart i

theorem removeHold (h : HoldListOnly s t) (c : HoldCause) : HoldListOnly s (t.removeHold c) := by
  unfold State.removeHold
  split
  · exact h
  · exact (h.holds _).raise _

theorem releaseHold (h : HoldListOnly s t) (i : s.start.atRest = true) (c : HoldCause) :
    HoldListOnly s (t.releaseHold c) := by
  unfold State.releaseHold
  split
  · exact (h.removeHold c).openStart i
  · exact h

theorem holdWhile (h : HoldListOnly s t) (i : s.start.atRest = true) (c : HoldCause) (w : Option (Nat × Nat)) :
    HoldListOnly s (t.holdWhile c w) := by
  unfold State.holdWhile
  split
  · exact h.raiseHold i _ _ _
  · exact h.releaseHold i _

theorem evalWind (h : HoldListOnly s t) (i : s.start.atRest = true) : HoldListOnly s t.evalWind := by
  unfold State.evalWind
  split
  · exact (h.settle none).raiseHold i _ _ _
  · split
    · split
      · exact h.releaseHold i _
      · split
        · exact h
        · exact h.settle _
    · exact h

theorem evalRosterHolds (h : HoldListOnly s t) (i : s.start.atRest = true) : HoldListOnly s t.evalRosterHolds :=
  (h.holdWhile i _ _).holdWhile i _ _

theorem evalBacklog (h : HoldListOnly s t) (i : s.start.atRest = true) : HoldListOnly s t.evalBacklog :=
  h.holdWhile i _ _

end HoldListOnly

/-! ## The blocks at entry into RUN (R81, R90, R112, R115, R183) -/

/-- The sequencer at entry is in IDLE, with the barrier as its input shows it, and only notices go out (R81). -/
theorem State.startEntry_form (s : State) (broken : Bool) : ∃ start console,
    s.startEntry broken = { s with start := start, console := console } ∧ start.phase = .idle ∧
    start.current = none ∧ start.barrier = startBarrier broken s.clock := by
  have h := HoldListOnly.refl (s.modStart (fun _ => { barrier := startBarrier broken s.clock }))
  have k := ((h.evalWind rfl).evalRosterHolds rfl).evalBacklog rfl
  refine ⟨_, _, k.form, k.idle rfl, ?_, ?_⟩ <;> rw [k.start] <;> rfl

/-- The board unit at entry shows the first STANDINGS page, and its first row falls due now (R183). -/
theorem State.boardEntry_form (s : State) : ∃ board, s.boardEntry = { s with board := board } ∧
    board.nextRow = some s.clock ∧ board.current.map (·.entry.page) = some (.standings 0) := ⟨_, rfl, rfl, rfl⟩

/-- The blocks at entry: each that the roles give from its values at entry, and nothing else but notices. -/
theorem State.startBlocks_form (s : State) (broken : BarrierInputs) : ∃ start board console judge,
    s.startBlocks broken = { s with
      start := start, board := board, console := console, judge := judge
      edge := if s.loader.roles.edge then
          { a := startBarrier broken.first s.clock, b := startBarrier broken.second s.clock
            t := startBarrier broken.third s.clock } else s.edge
      wind := if s.loader.roles.mast then { nextPoll := some s.clock } else s.wind
      span := if s.loader.roles.span then { heard := true, lastRecord := s.clock } else s.span } ∧
    (s.loader.roles.start = true → start.phase = .idle ∧ start.current = none ∧
      start.barrier = startBarrier broken.first s.clock) ∧
    (s.loader.roles.board = true → board.nextRow = some s.clock ∧
      board.current.map (·.entry.page) = some (.standings 0)) := by
  obtain ⟨start, console, e1, h1⟩ : ∃ start console, s.ifRole (·.start) (·.startEntry broken.first) =
      { s with start := start, console := console } ∧ (s.loader.roles.start = true → start.phase = .idle ∧
        start.current = none ∧ start.barrier = startBarrier broken.first s.clock) := by
    unfold State.ifRole
    split
    · obtain ⟨a, b, e, h⟩ := s.startEntry_form broken.first
      exact ⟨a, b, e, fun _ => h⟩
    · rename_i r; exact ⟨_, _, rfl, fun k => absurd k r⟩
  have e2 : ∀ t : State, t.ifRole (·.edge) (·.edgeEntry broken) = { t with
      edge := if t.loader.roles.edge then
        { a := startBarrier broken.first t.clock, b := startBarrier broken.second t.clock
          t := startBarrier broken.third t.clock } else t.edge } := fun t => by unfold State.ifRole; split <;> rfl
  have e3 : ∀ t : State, t.ifRole (·.mast) (·.windEntry) = { t with
      wind := if t.loader.roles.mast then { nextPoll := some t.clock } else t.wind } := fun t => by
    unfold State.ifRole; split <;> rfl
  have e4 : ∀ t : State, t.ifRole (·.span) (·.spanEntryRun) = { t with
      span := if t.loader.roles.span then { heard := true, lastRecord := t.clock } else t.span } := fun t => by
    unfold State.ifRole; split <;> rfl
  have e5 : ∀ t : State, t.ifRole (·.jury) (fun s => { s with judge := {} }) = { t with
      judge := if t.loader.roles.jury then {} else t.judge } := fun t => by unfold State.ifRole; split <;> rfl
  have e6 : ∀ t : State, ∃ board, t.ifRole (·.board) (·.boardEntry) = { t with board := board } ∧
      (t.loader.roles.board = true → board.nextRow = some t.clock ∧
        board.current.map (·.entry.page) = some (.standings 0)) := fun t => by
    unfold State.ifRole
    split
    · obtain ⟨b, e, h⟩ := t.boardEntry_form
      exact ⟨b, e, fun _ => h⟩
    · rename_i r; exact ⟨_, rfl, fun k => absurd k r⟩
  unfold State.startBlocks
  dsimp only
  rw [e1, e2, e3, e4, e5]
  obtain ⟨board, e, h⟩ := e6 { s with
      start := start, console := console, judge := _
      edge := _, wind := _, span := _ }
  exact ⟨start, board, console, _, e, h1, h⟩

/-- The first STATUS is offered, and its cadence starts (R16, R25). -/
theorem State.firstStatus_eq {s : State} (m : s.loader.state.isMuted = false) (r : s.line.routine = []) :
    s.firstStatus = { s with line := { s.line with
      nextStatus := some (s.clock + 2500), routine := [⟨.status s.statusNow, s.line.eventNumber, none⟩] } } := by
  have u : (Body.status s.statusNow).urgent = false := rfl
  have e := State.offer_joins (s := s.modLine (fun l => { l with nextStatus := some (s.clock + statusPeriod) }))
    (b := .status s.statusNow) m (by simp [u, State.modLine, LineState.queue, r]) none
  simpa [u, State.firstStatus, State.modLine, LineState.queue, LineState.withQueue, r, statusPeriod, ticks] using e

/-! ## O4 -/

/-- A load that ends in RUN holds an entry of the station itself (R24, row 6). -/
theorem own_entry_of_loadImage {own : Nat} {bytes : List Byte} {digest : Word16} {k : Constants}
    (h : loadImage own bytes = .run digest k) : ∃ e, k.stations.find? (fun e => e.station == own) = some e := by
  have c : ∀ ps, readConstants own ps = .ok k → crossCheck own k = none := fun ps e => by
    unfold readConstants at e
    split at e
    · exact absurd e (by simp)
    · split at e
      · exact absurd e (by simp)
      · split at e
        · exact absurd e (by simp)
        · rename_i x
          injection e with e
          exact e ▸ x
  obtain ⟨ps, e⟩ : ∃ ps, readConstants own ps = .ok k := by
    simp only [loadImage] at h
    repeat' split at h
    all_goals simp at h
    rename_i x
    exact ⟨_, h.2 ▸ x⟩
  have o := c ps e
  unfold crossCheck at o
  split at o
  · exact absurd o (by simp)
  · rename_i ok
    simp only [stationsOk, Bool.not_eq_true', Bool.not_eq_false, Bool.and_eq_true, List.any_eq_true] at ok
    obtain ⟨-, e, me, he⟩ := ok
    exact Option.isSome_iff_exists.mp (List.find?_isSome.mpr ⟨e, me, he⟩)

/-- The entry into RUN, as one change of the state (R16, R25). -/
theorem State.enterRun_form {s : State} (r : s.line.routine = []) (digest : Word16) (k : Constants)
    (broken : BarrierInputs) (l : Loader) (hl : l = s.loader.enterRun digest k) : ∃ start board console judge p,
    s.enterRun digest k broken = { s with
      loader := l, start := start, board := board, console := console, judge := judge
      edge := if l.roles.edge then
          { a := startBarrier broken.first s.clock, b := startBarrier broken.second s.clock
            t := startBarrier broken.third s.clock } else s.edge
      wind := if l.roles.mast then { nextPoll := some s.clock } else s.wind
      span := if l.roles.span then { heard := true, lastRecord := s.clock } else s.span
      line := { s.line with
        nextStatus := some (s.clock + 2500)
        nextCorridor := if l.roles.mast then some (s.clock + 10000) else s.line.nextCorridor
        routine := [⟨.status p, s.line.eventNumber, none⟩] } } ∧
    (l.roles.start = true → start.phase = .idle ∧ start.current = none ∧
      start.barrier = startBarrier broken.first s.clock) ∧
    (l.roles.board = true → board.nextRow = some s.clock ∧
      board.current.map (·.entry.page) = some (.standings 0)) := by
  obtain ⟨start, board, console, judge, e, h1, h2⟩ := ({ s with loader := l }).startBlocks_form broken
  have c : ∀ t : State, t.startCorridorCadence = { t with line := { t.line with
      nextCorridor := if t.loader.roles.mast then some (t.clock + 10000) else t.line.nextCorridor } } := fun t => by
    unfold State.startCorridorCadence State.ifRole
    split <;> rfl
  have f := State.firstStatus_eq (s := (({ s with loader := l }).startBlocks broken).startCorridorCadence)
    (by rw [c, e, hl]; rfl) (by rw [c, e]; exact r)
  refine ⟨start, board, console, judge,
    ((({ s with loader := l }).startBlocks broken).startCorridorCadence).statusNow, ?_, h1, h2⟩
  unfold State.enterRun
  rw [← hl, f, c, e]

/-- Settles O4: the entry into RUN is `State.enterRun_form`, and the bytes read are those that decide the load
(`loadImage_bytesTaken`). -/
theorem loadEndsInRun : Obligations.LoadEndsInRun := by
  intro s bytes broken digest k hr hs hw hq _ hl
  obtain ⟨e, he⟩ := own_entry_of_loadImage hl
  have reading : s.reading = true := by simp [State.reading, hr, hs, hw]
  obtain ⟨start, board, console, judge, p, form, h1, h2⟩ :=
    (s.sendOnEeprom (eepromSends s.loader.station bytes)).enterRun_form hq digest k broken _ rfl
  obtain ⟨hn, hb, hm⟩ := loadImage_bytesTaken s.loader.station bytes
  have own : (s.sendOnEeprom (eepromSends s.loader.station bytes)).loader.enterRun digest k =
      { s.loader with
        state := .run, retryAt := none, failedReads := 0, digest := digest, consts := k
        roles := e.roles, mast := e.mast, span := e.span
        eeprom := eepromSends s.loader.station bytes } := by
    simp [Loader.enterRun, State.sendOnEeprom, he]
  rw [own] at form h1 h2
  have run : exec (.eepromReadEnd bytes broken) s =
      .next ((s.sendOnEeprom (eepromSends s.loader.station bytes)).enterRun digest k broken) := by
    simp [exec, execEepromReadEnd, reading, hl]
  refine ⟨_, run, ?_⟩
  rw [form]
  refine ⟨rfl, rfl, rfl, rfl, ⟨e, List.mem_of_find?_eq_some he, ?_, rfl, rfl, rfl⟩, ⟨_, rfl, rfl, rfl⟩, rfl,
    fun r => ⟨if_pos r, if_pos r⟩, h1, fun r => ?_, fun r => if_pos r, h2,
    ⟨bytesTaken s.loader.station bytes, hn, hb.trans hl, hm, rfl⟩, rfl, rfl, rfl, rfl, rfl⟩
  · simpa using List.find?_some he
  · exact ⟨congrArg EdgeState.micros (if_pos r), congrArg EdgeState.run (if_pos r)⟩

end Sys2Proof.Machine
end

section
/-! RESTART (R18, R34, R57, R81, R112, R153, R169, R183, R186). -/

namespace Sys2Proof.Machine

open Sys2Proof

/-! ## The hold list at a restart (R81) -/

namespace HoldListOnly

variable {s t : State}

/-- Of the console only the notices change. -/
theorem console (h : HoldListOnly s t) :
    t.console = { s.console with notices := t.console.notices, overrun := t.console.overrun } :=
  (congrArg (fun u => { u.console with notices := t.console.notices, overrun := t.console.overrun }) h.same :)

/-- What changes, written out. -/
theorem explicit (h : HoldListOnly s t) : ∃ holds settleAt notices overrun, t = { s with
    start := { s.start with holds := holds, settleAt := settleAt }
    console := { s.console with notices := notices, overrun := overrun } } := by
  refine ⟨t.start.holds, t.start.settleAt, t.console.notices, t.console.overrun, ?_⟩
  rw [← h.start, ← h.console]
  exact h.form

theorem removeHolds (h : HoldListOnly s t) (cs : List HoldCause) :
    HoldListOnly s (cs.foldl (fun u c => u.removeHold c) t) := by
  induction cs generalizing t with
  | nil => exact h
  | cons c cs ih => exact ih (h.removeHold c)

end HoldListOnly

/-- Causes taken out one after another. -/
theorem removeHolds_holds (cs : List HoldCause) (s : State) :
    (cs.foldl (fun u c => u.removeHold c) s).start.holds = s.start.holds.filter (fun x => x.cause ∉ cs) := by
  induction cs generalizing s with
  | nil => simp
  | cons c cs ih =>
    rw [List.foldl_cons, ih, State.removeHold_holds, List.filter_filter]
    exact List.filter_congr fun x _ => by simp [Bool.and_comm]

/-- A cause stands where the entries of it are not empty. -/
theorem StartState.standing_of_filter {st u : StartState} {c : HoldCause}
    (h : st.holds.filter (fun x => x.cause = c) = u.holds.filter (fun x => x.cause = c)) :
    st.standing c = u.standing c := by
  have e : ∀ v : StartState, v.standing c = (v.holds.filter (fun x => x.cause = c)).any (fun _ => true) := fun v => by
    simp [StartState.standing, List.any_filter, beq_eq_decide]
  rw [e st, e u, h]

/-- The evaluation of WIND leaves the entries of every other cause. -/
theorem State.evalWind_other (s : State) {d : HoldCause} (ne : .wind ≠ d) :
    s.evalWind.start.holds.filter (fun x => x.cause = d) = s.start.holds.filter (fun x => x.cause = d) := by
  unfold State.evalWind
  split
  · exact State.raiseHold_other _ ne _ _
  · split
    · split
      · exact State.releaseHold_other _ ne
      · split <;> rfl
    · rfl

/-- The evaluations of WIND, STATION, CONFIG and BACKLOG leave the entries of JURY, TRACK, COACH and LAMP. -/
theorem State.evals_other (s : State) {d : HoldCause} (w : .wind ≠ d) (st : .station ≠ d) (c : .config ≠ d)
    (b : .backlog ≠ d) : s.evalWind.evalRosterHolds.evalBacklog.start.standing d = s.start.standing d :=
  StartState.standing_of_filter
    ((((State.holdWhile_other _ b _).trans (State.holdWhile_other _ c _)).trans (State.holdWhile_other _ st _)).trans
      (s.evalWind_other w))

/-- The sequencer at a restart, before its causes are evaluated. -/
def State.emptied (s : State) : State :=
  ((s.endCycle.start.holds.map (·.cause)).foldl (fun s c => s.removeHold c) s.endCycle).modStart (fun st => { st with
    keptVoid := none, corridor := [], settleAt := none, rejectUntil := none
    backlog := ((s.endCycle.start.holds.map (·.cause)).foldl (fun s c => s.removeHold c) s.endCycle).countBacklog })

/-- A failed lamp raises LAMP again at a restart. -/
def State.raiseLamp (s : State) : State :=
  if s.start.failed.isEmpty then s
  else s.raiseHold .lamp s.loader.station (firstLamp s.start.failed).code

/-- A restart evaluates every cause but LAMP of an emptied sequencer, and raises LAMP for a failed lamp (R81). -/
theorem State.startRestart_eq (s : State) :
    s.startRestart = s.emptied.evalWind.evalRosterHolds.evalBacklog.raiseLamp := by
  unfold State.startRestart State.raiseLamp State.emptied
  rfl

theorem HoldListOnly.raiseLamp {s t : State} (h : HoldListOnly s t) (i : s.start.atRest = true) :
    HoldListOnly s t.raiseLamp := by
  unfold State.raiseLamp
  split
  · exact h
  · exact h.raiseHold i _ _ _

/-- The emptied sequencer is in IDLE with an empty hold list. -/
theorem State.emptied_form {s : State} (e : s.table = []) : ∃ notices overrun, s.emptied = { s with
    start := { s.start.atIdle with
      holds := [], keptVoid := none, corridor := [], settleAt := none, rejectUntil := none, backlog := 0 }
    console := { s.console with notices := notices, overrun := overrun } } := by
  have k1 : HoldListOnly (s.modStart (·.atIdle)) s.endCycle :=
    (HoldListOnly.refl (s.modStart (·.atIdle))).releaseHold rfl .coach
  have k2 := k1.removeHolds (s.endCycle.start.holds.map (·.cause))
  have empty := removeHolds_holds (s.endCycle.start.holds.map (·.cause)) s.endCycle
  unfold State.emptied
  generalize (s.endCycle.start.holds.map (·.cause)).foldl (fun s c => s.removeHold c) s.endCycle = u at k2 empty ⊢
  obtain ⟨holds, settleAt, notices, overrun, rfl⟩ := k2.explicit
  have none : (s.modStart (·.atIdle)).countBacklog = 0 := by simp [State.countBacklog, State.modStart, e]
  have nil : holds = [] := by
    refine empty.trans (List.filter_eq_nil_iff.2 fun x m => ?_)
    simpa using ⟨x, m, rfl⟩
  subst nil
  refine ⟨notices, overrun, ?_⟩
  rw [← none]
  rfl

/-- No lamp has failed where the set is empty. -/
theorem LampSet.isEmpty_iff (f : LampSet) : f.isEmpty = true ↔ f = {} := by
  obtain ⟨r, a, g⟩ := f
  cases r <;> cases a <;> cases g <;> decide

/-- LAMP is raised where a lamp has failed, and touches no other cause. -/
theorem State.raiseLamp_standing (s : State) (d : HoldCause) : s.raiseLamp.start.standing d = true ↔
    s.start.standing d = true ∨ (d = .lamp ∧ s.start.failed ≠ {}) := by
  unfold State.raiseLamp
  split
  · rename_i f
    simp [(LampSet.isEmpty_iff _).1 f]
  · rename_i f
    rw [LampSet.isEmpty_iff] at f
    by_cases e : .lamp = d
    · subst e; simp [State.raiseHold_standing, f]
    · rw [StartState.standing_of_filter (State.raiseHold_other _ e _ _)]
      simp [Ne.symm e]

/-- The sequencer at a restart: IDLE, an empty table's backlog, and no cause but the evaluated ones and LAMP. -/
theorem State.startRestart_form {s : State} (e : s.table = []) : ∃ start notices overrun,
    s.startRestart = { s with
      start := start, console := { s.console with notices := notices, overrun := overrun } } ∧
    (start.phase = .idle ∧ start.current = none ∧ start.corridor = [] ∧ start.backlog = 0 ∧
    start.barrier = s.start.barrier ∧ start.failed = s.start.failed) ∧ start.standing .jury = false ∧
    start.standing .track = false ∧ start.standing .coach = false ∧
    (start.standing .lamp = true ↔ s.start.failed ≠ {}) := by
  obtain ⟨notices, overrun, h⟩ := State.emptied_form e
  have idle : s.emptied.start.atRest = true := by rw [h]; rfl
  have k := (((HoldListOnly.refl s.emptied).evalWind idle).evalRosterHolds idle).evalBacklog idle
  have failed : s.emptied.evalWind.evalRosterHolds.evalBacklog.start.failed = s.start.failed := by
    rw [k.start, h]; rfl
  have stands : ∀ d, .wind ≠ d → .station ≠ d → .config ≠ d → .backlog ≠ d →
      (s.startRestart.start.standing d = true ↔ d = .lamp ∧ s.start.failed ≠ {}) := fun d a b c f => by
    rw [State.startRestart_eq, State.raiseLamp_standing, State.evals_other _ a b c f, failed, h]
    simp [StartState.standing]
  have j := stands .jury (by decide) (by decide) (by decide) (by decide)
  have t := stands .track (by decide) (by decide) (by decide) (by decide)
  have c := stands .coach (by decide) (by decide) (by decide) (by decide)
  have lamp := stands .lamp (by decide) (by decide) (by decide) (by decide)
  have k' := k.raiseLamp idle
  rw [← State.startRestart_eq] at k'
  generalize s.startRestart = t at *
  obtain ⟨holds, settleAt, n, o, rfl⟩ := k'.explicit
  rw [h] at j c t lamp ⊢
  exact ⟨_, n, o, rfl, ⟨rfl, rfl, rfl, rfl, rfl, rfl⟩, by simpa using j, by simpa using t, by simpa using c,
    by simpa using lamp⟩

/-! ## The removal of records, handed to the blocks (R42, R57) -/

/-- What holds of every step of removals holds of all of them. -/
theorem foldl_removed {P : State → State → Prop} {f : State → Change → State} (refl : ∀ s, P s s)
    (trans : ∀ s t u, P s t → P t u → P s u) (step : ∀ s r, P s (f s (.removed r))) (rs : List AttemptRecord) :
    ∀ s, P s ((rs.map .removed).foldl f s) := by
  induction rs with
  | nil => exact refl
  | cons r rs ih => exact fun s => trans _ _ _ (step s r) (ih _)

/-- Only the board unit changes, and its front buffer, its scanner and what is known of the start stay. -/
structure PagesOnly (s t : State) : Prop where
  form : t = { s with board := t.board }
  front : t.board.front = s.board.front

namespace PagesOnly

variable {s t : State}

theorem refl (s : State) : PagesOnly s s := ⟨rfl, rfl⟩

theorem trans {s t u : State} (h : PagesOnly s t) (k : PagesOnly t u) : PagesOnly s u :=
  ⟨calc u = { t with board := u.board } := k.form
    _ = { s with board := u.board } := by rw [h.form], k.front.trans h.front⟩

theorem modBoard (h : PagesOnly s t) {f : BoardState → BoardState} (e : (f t.board).front = t.board.front) :
    PagesOnly s (t.modBoard f) := h.trans ⟨rfl, e⟩

theorem showPage (h : PagesOnly s t) (e : PageEntry) : PagesOnly s (t.showPage e) :=
  h.trans ⟨rfl, rfl⟩

theorem rotate (h : PagesOnly s t) : PagesOnly s t.rotate := PagesOnly.showPage (h.modBoard rfl) _

theorem endPage (h : PagesOnly s t) : PagesOnly s t.endPage := by
  unfold State.endPage State.nextPage
  split
  · exact PagesOnly.showPage (PagesOnly.modBoard (h.modBoard rfl) rfl) _
  · exact PagesOnly.rotate (h.modBoard rfl)

theorem removePages (h : PagesOnly s t) (test : Page → Bool) : PagesOnly s (t.removePages test) := by
  unfold State.removePages
  dsimp only
  split
  · exact PagesOnly.endPage (h.modBoard rfl)
  · exact h.modBoard rfl

end PagesOnly

/-- A removal leaves the barriers and the timer of an edge timer. -/
theorem State.edgeRemovals (s : State) (rs : List AttemptRecord) : ∃ edge,
    (rs.map .removed).foldl State.edgeChange s = { s with edge := edge } ∧ edge.a = s.edge.a ∧ edge.b = s.edge.b ∧
      edge.t = s.edge.t ∧ edge.micros = s.edge.micros := by
  refine foldl_removed (P := fun s t => ∃ edge, t = { s with edge := edge } ∧ edge.a = s.edge.a ∧
    edge.b = s.edge.b ∧ edge.t = s.edge.t ∧ edge.micros = s.edge.micros)
    (fun s => ⟨_, rfl, rfl, rfl, rfl, rfl⟩) ?_ (fun s r => ?_) rs s
  · rintro s _ _ ⟨_, rfl, a, b, c, d⟩ ⟨e, rfl, a', b', c', d'⟩
    exact ⟨e, rfl, a'.trans a, b'.trans b, c'.trans c, d'.trans d⟩
  · unfold State.edgeChange
    dsimp only
    split
    · exact ⟨_, rfl, rfl, rfl, rfl, rfl⟩
    · exact ⟨_, rfl, rfl, rfl, rfl, rfl⟩

/-- A removal changes the mean records of a wind unit alone. -/
theorem State.windRemovals (s : State) (rs : List AttemptRecord) : ∃ means,
    (rs.map .removed).foldl State.windChange s = { s with wind := { s.wind with means := means } } := by
  refine foldl_removed (P := fun s t => ∃ means, t = { s with wind := { s.wind with means := means } })
    (fun s => ⟨_, rfl⟩) ?_ (fun s r => ⟨_, rfl⟩) rs s
  rintro s _ _ ⟨_, rfl⟩ ⟨m, rfl⟩
  exact ⟨m, rfl⟩

/-- A removal takes the flight record of a span unit and its copies, at most. -/
theorem State.spanRemovals (s : State) (rs : List AttemptRecord) : ∃ flight kept,
    (rs.map .removed).foldl State.spanChange s =
      { s with span := { s.span with flight := flight, kept := kept } } := by
  refine foldl_removed (P := fun s t => ∃ flight kept, t = { s with span := { s.span with
    flight := flight, kept := kept } }) (fun s => ⟨_, _, rfl⟩) ?_ (fun s r => ?_) rs s
  · rintro s _ _ ⟨_, _, rfl⟩ ⟨f, k, rfl⟩
    exact ⟨f, k, rfl⟩
  · unfold State.spanChange
    dsimp only
    split
    · exact ⟨_, _, rfl⟩
    · exact ⟨_, _, rfl⟩

/-- The removals of records take their contexts from the landing resolver. -/
theorem State.landingRemovals (l : LineHdr) (rs : List AttemptRecord) (s : State) :
    (rs.map .removed).foldl (fun s c => s.landingChange l c) s =
      { s with contexts := s.contexts.filter (fun c => rs.all (fun r => r.hdr.attempt != c.attempt)) } := by
  induction rs generalizing s with
  | nil => simp
  | cons r rs ih =>
    have e : s.landingChange l (.removed r) = s.dropContext r.hdr.attempt := rfl
    rw [List.map_cons, List.foldl_cons, e, ih]
    simp only [State.dropContext, List.filter_filter, List.all_cons]
    congr 1
    exact List.filter_congr fun c _ => by rw [Bool.and_comm, bne_comm]

/-- The removals of records change the VOID copies of the scoring unit alone. -/
theorem State.scoringRemovals (s : State) (rs : List AttemptRecord) : ∃ scoring,
    (rs.map .removed).foldl State.scoringChange s = { s with scoring := scoring } := by
  refine foldl_removed (P := fun s t => ∃ scoring, t = { s with scoring := scoring })
    (fun s => ⟨_, rfl⟩) ?_ (fun s r => ⟨_, rfl⟩) rs s
  rintro s _ _ ⟨_, rfl⟩ ⟨m, rfl⟩
  exact ⟨m, rfl⟩

/-- The removals of records change the pages of the board alone. -/
theorem State.boardRemovals (s : State) (byLanding : Bool) (rs : List AttemptRecord) :
    PagesOnly s ((rs.map .removed).foldl (fun s c => s.boardChange byLanding c) s) :=
  foldl_removed (f := fun s c => s.boardChange byLanding c) PagesOnly.refl (fun _ _ _ => PagesOnly.trans)
    (fun s _ => (PagesOnly.refl s).removePages _) rs s

/-- No change of the round record and of the results list reaches the board where both stay. -/
theorem State.boardListChange_of_same {s : State} {before : StandingsState} (h : s.standings = before) :
    s.boardListChange before = s := by simp [State.boardListChange, h]

/-- A round that is not CLOSING does not close. -/
theorem State.testClosing_of_not_closing {s : State} (h : s.standings.round.state ≠ .closing) :
    s.testClosing = s := by simp [State.testClosing, h]

/-- The removals of records handed to the blocks, where the backlog count stands and no round is CLOSING: nothing is
offered or raised, and each block's state changes as it does at a removal. -/
theorem State.handRemovals_form (s : State) (l : LineHdr) (byLanding : Bool) (rs : List AttemptRecord)
    (b : s.loader.roles.start = true → s.countBacklog = s.start.backlog) (c : s.standings.round.state ≠ .closing) :
    ∃ edge means flight kept contexts scoring board,
      s.handChanges l byLanding (rs.map .removed) = { s with
        edge := edge, wind := { s.wind with means := means }, span := { s.span with flight := flight, kept := kept }
        contexts := contexts, scoring := scoring, board := board } ∧
      (edge.a = s.edge.a ∧ edge.b = s.edge.b ∧ edge.t = s.edge.t ∧ edge.micros = s.edge.micros) ∧
      (s.loader.roles.jury = true → ∀ c ∈ contexts, ∀ r ∈ rs, r.hdr.attempt ≠ c.attempt) ∧
      board.front = s.board.front := by
  unfold State.handChanges
  extract_lets before s1 s2 s3 s4 s5 s6 s7
  have h1 : s1 = s := by
    unfold s1 State.ifRole State.recountBacklog
    split
    · rename_i r; simp [b r]
    · rfl
  have h2 : ∃ edge, s2 = { s with edge := edge } ∧ edge.a = s.edge.a ∧ edge.b = s.edge.b ∧
      edge.t = s.edge.t ∧ edge.micros = s.edge.micros := by
    unfold s2 State.ifRole
    rw [h1]
    split
    · exact s.edgeRemovals rs
    · exact ⟨_, rfl, rfl, rfl, rfl, rfl⟩
  obtain ⟨edge, h2, barriers⟩ := h2
  have h3 : ∃ means, s3 = { s2 with wind := { s2.wind with means := means } } := by
    unfold s3 State.ifRole
    split
    · exact s2.windRemovals rs
    · exact ⟨_, rfl⟩
  obtain ⟨means, h3⟩ := h3
  have h4 : ∃ flight kept, s4 = { s3 with span := { s3.span with flight := flight, kept := kept } } := by
    unfold s4 State.ifRole
    split
    · exact s3.spanRemovals rs
    · exact ⟨_, _, rfl⟩
  obtain ⟨flight, kept, h4⟩ := h4
  have h5 : ∃ contexts, s5 = { s4 with contexts := contexts } ∧
      (s4.loader.roles.jury = true → ∀ c ∈ contexts, ∀ r ∈ rs, r.hdr.attempt ≠ c.attempt) := by
    unfold s5 State.ifRole
    split
    · exact ⟨_, State.landingRemovals l rs s4, fun _ c m r mr => by
        have := (List.mem_filter.1 m).2
        simpa using List.all_eq_true.1 this r mr⟩
    · rename_i r; exact ⟨_, rfl, fun k => absurd k r⟩
  obtain ⟨contexts, h5, gone⟩ := h5
  have h6 : ∃ scoring, s6 = { s5 with scoring := scoring } := by
    unfold s6 State.ifRole
    split
    · exact s5.scoringRemovals rs
    · exact ⟨_, rfl⟩
  obtain ⟨scoring, h6⟩ := h6
  have st : s6.standings = s.standings := by rw [h6, h5, h4, h3, h2]
  have h7 : s7 = s6 := by
    unfold s7 State.ifRole
    split
    · split
      · rfl
      · exact State.testClosing_of_not_closing (st ▸ c)
    · rfl
  have h8 : PagesOnly s7 (s7.ifRole (·.board) (fun s =>
      ((rs.map .removed).foldl (fun s c => s.boardChange byLanding c) s).boardListChange before)) := by
    unfold State.ifRole
    split
    · have k := s7.boardRemovals byLanding rs
      dsimp only
      rw [State.boardListChange_of_same (by rw [k.form, h7]; exact st)]
      exact k
    · exact .refl _
  generalize s7.ifRole (·.board) _ = t at h8 ⊢
  have form := h8.form
  rw [h7, h6, h5, h4, h3, h2] at form
  refine ⟨edge, means, flight, kept, contexts, scoring, _, form, barriers, ?_, ?_⟩
  · rw [h4, h3, h2] at gone
    exact gone
  · rw [h8.front, h7, h6, h5, h4, h3, h2]

/-! ## RESTART -/

/-- The table is emptied at a restart: each removal reaches the blocks, and the sequencer begins again (R57, R81). -/
theorem State.emptyTable_form (s : State) (c : s.standings.round.state ≠ .closing) :
    ∃ start edge means flight kept contexts scoring board notices overrun,
      s.emptyTable = { s with
        table := [], start := start, edge := edge, wind := { s.wind with means := means }
        span := { s.span with flight := flight, kept := kept }, contexts := contexts, scoring := scoring
        board := board, console := { s.console with notices := notices, overrun := overrun } } ∧
      (s.loader.roles.start = true → (start.phase = .idle ∧ start.current = none ∧ start.corridor = [] ∧
        start.backlog = 0 ∧ start.barrier = s.start.barrier ∧ start.failed = s.start.failed) ∧
        start.standing .jury = false ∧ start.standing .track = false ∧ start.standing .coach = false ∧
        (start.standing .lamp = true ↔ s.start.failed ≠ {})) ∧
      (edge.a = s.edge.a ∧ edge.b = s.edge.b ∧ edge.t = s.edge.t ∧ edge.micros = s.edge.micros) ∧
      (s.loader.roles.jury = true → ∀ c ∈ contexts, ∀ r ∈ s.table, r.hdr.attempt ≠ c.attempt) ∧
      board.front = s.board.front := by
  obtain ⟨start, notices, overrun, e, facts⟩ : ∃ start notices overrun,
      ({ s with table := [] }).ifRole (·.start) (·.startRestart) = { s with
        table := [], start := start, console := { s.console with notices := notices, overrun := overrun } } ∧
      (s.loader.roles.start = true → (start.phase = .idle ∧ start.current = none ∧ start.corridor = [] ∧
        start.backlog = 0 ∧ start.barrier = s.start.barrier ∧ start.failed = s.start.failed) ∧
        start.standing .jury = false ∧ start.standing .track = false ∧ start.standing .coach = false ∧
        (start.standing .lamp = true ↔ s.start.failed ≠ {})) := by
    unfold State.ifRole
    split
    · obtain ⟨start, n, o, e, facts⟩ := State.startRestart_form (s := { s with table := [] }) rfl
      exact ⟨start, n, o, e, fun _ => facts⟩
    · rename_i r; exact ⟨_, _, _, rfl, fun k => absurd k r⟩
  unfold State.emptyTable
  dsimp only
  rw [e]
  obtain ⟨edge, means, flight, kept, contexts, scoring, board, h, barriers, gone, front⟩ :=
    State.handRemovals_form ({ s with
      table := [], start := start, console := { s.console with notices := notices, overrun := overrun } })
      (noLine s.clock) false s.table
      (fun r => (facts r).1.2.2.2.1 ▸ rfl) c
  exact ⟨start, edge, means, flight, kept, contexts, scoring, board, notices, overrun, h, facts, barriers, gone, front⟩

/-- A MAST station's wind unit at a restart: the poll and the samples begin again, and a report of STABLE may go out. -/
theorem State.windRestart_form (s : State) : ∃ console, s.windRestart = { s with
    wind := { s.wind with
      lastSequence := none, lastGood := none, heldCount := 0, goodCount := 0, noAnswer := 0, ring := []
      means := [], stable := false }
    console := console } ∧ console.replies = s.console.replies ∧ console.unit = s.console.unit ∧
      console.sending = s.console.sending ∧ console.mask = s.console.mask := by
  unfold State.windRestart State.setStable
  split
  · rename_i h
    refine ⟨s.console, ?_, rfl, rfl, rfl, rfl⟩
    rw [← h]; rfl
  · exact ⟨_, rfl, by simp, by simp, by simp, by simp⟩

/-- The event number 0 takes every frame of an event from the queues, STATUS apart (R6). -/
theorem LineState.setEvent_zero (l : LineState) : (l.setEvent 0).eventNumber = 0 ∧ (l.setEvent 0).tx = l.tx ∧
    (l.eventNumber ≠ 0 → ∀ f ∈ (l.setEvent 0).urgent ++ (l.setEvent 0).routine, f.body.kind = 0x01 ∨ f.event = 0) := by
  unfold LineState.setEvent
  split
  · rename_i h; exact ⟨h, rfl, fun n => absurd h n⟩
  · refine ⟨rfl, rfl, fun _ f m => ?_⟩
    rw [List.mem_append, List.mem_filter, List.mem_filter] at m
    rcases m with ⟨-, h⟩ | ⟨-, h⟩ <;> simpa [QueuedFrame.isStatus] using h

/-- Settles O53: the table is emptied (`State.emptyTable_form`), and the wind unit, the scoring unit, the board, the line
and the judge port begin again. -/
theorem restartEmptiesTheCompetition : Obligations.RestartEmptiesTheCompetition := by
  intro s h
  have run : exec .restart s = .next (s.clearAssembler.restart.answer 0x02 .ok) := by
    have e := h.command 0x02 anyRole (fun s => s.restart.answer 0x02 .ok) rfl
    exact congrArg Host.Outcome.next e
  refine ⟨_, run, ?_⟩
  obtain ⟨start, edge, means, flight, kept, contexts, scoring, board, notices, overrun, e, facts, edgeFacts, gone, front⟩ :=
    s.clearAssembler.emptyConsole.standingsRestart.emptyTable_form RoundState.noConfusion
  obtain ⟨wind, con, e2, w2, replies, unit, sending, mask⟩ : ∃ wind con,
      s.clearAssembler.emptyConsole.standingsRestart.emptyTable.ifRole (·.mast) (·.windRestart) =
        { s.clearAssembler.emptyConsole.standingsRestart.emptyTable with wind := wind, console := con } ∧
      (s.loader.roles.mast = true → wind = { s.wind with
        lastSequence := none, lastGood := none, heldCount := 0, goodCount := 0, noAnswer := 0, ring := []
        means := [], stable := false }) ∧ con.replies = [] ∧ con.unit = [] ∧ con.sending = s.console.sending ∧
      con.mask = s.console.mask := by
    rw [e]
    unfold State.ifRole
    split
    · obtain ⟨con, f, a, b, c, d⟩ := State.windRestart_form _
      exact ⟨_, con, f, fun _ => rfl, a, b, c, d⟩
    · rename_i r; exact ⟨_, _, rfl, fun k => absurd k r, rfl, rfl, rfl, rfl⟩
  obtain ⟨board', e3, b3⟩ : ∃ board', ({ s.clearAssembler.emptyConsole.standingsRestart.emptyTable with
        wind := wind, console := con }).scoringRestart.ifRole (·.board) (·.boardRestart) =
        { s.clearAssembler.emptyConsole.standingsRestart.emptyTable with
          wind := wind, console := con, scoring := {}, board := board' } ∧
      (s.loader.roles.board = true → board'.knownHolds = {} ∧ board'.knownAttempt = none ∧
        board'.front = s.board.front ∧ board'.current.map (·.entry.page) = some (.standings 0)) := by
    rw [e]
    unfold State.ifRole
    split
    · exact ⟨_, rfl, fun _ => ⟨rfl, rfl, front, rfl⟩⟩
    · rename_i r; exact ⟨_, rfl, fun k => absurd k r⟩
  obtain ⟨number, tx, filter⟩ := s.line.setEvent_zero
  have form : s.clearAssembler.restart = { s.clearAssembler with
      table := [], standings := {}, scoring := {}, judge := {}, line := s.line.setEvent 0, start := start, edge := edge
      wind := wind, span := { s.span with flight := flight, kept := kept }, contexts := contexts, board := board'
      console := con } := by
    unfold State.restart
    dsimp only
    rw [e2, e3, e]
    rfl
  rw [form]
  have answered : ({ s.clearAssembler with
      table := [], standings := {}, scoring := {}, judge := {}, line := s.line.setEvent 0, start := start, edge := edge
      wind := wind, span := { s.span with flight := flight, kept := kept }, contexts := contexts, board := board'
      console := con } : State).answer 0x02 .ok = { s.clearAssembler with
      table := [], standings := {}, scoring := {}, judge := {}, line := s.line.setEvent 0, start := start, edge := edge
      wind := wind, span := { s.span with flight := flight, kept := kept }, contexts := contexts, board := board'
      console := { con with replies := [{ command := 0x02, code := .ok }] } } := by
    simp [State.answer, State.reply, ConsoleState.reply, replies, replyLimit]
  rw [answered]
  refine ⟨rfl, rfl, rfl, rfl, number, filter, rfl, unit, sending, mask, rfl, rfl, rfl, tx, fun r => ?_,
    fun _ => edgeFacts, w2, fun _ => ⟨rfl, rfl, rfl⟩, gone, b3⟩
  obtain ⟨⟨a, b, c, d, e, f⟩, g⟩ := facts r
  exact ⟨a, b, c, d, e, f, g⟩

end Sys2Proof.Machine
end

section
/-! A delivered frame, block by block: what each stage of the delivery may change (R5, R28, R35, R42). -/

namespace Sys2Proof.Machine

open Sys2Proof

/-! ## The stages of a delivery -/

/-- A relation that a change of the outbox or of the attempt table keeps, and a change of any block but the sequencer
that the station's roles give. -/
structure BlockRel (R : State → State → Prop) : Prop where
  refl : ∀ s, R s s
  trans : ∀ {s t u}, R s t → R t u → R s u
  out : ∀ {s t}, OnlyOut s t → R s t
  table : ∀ s v, R s { s with table := v }
  edge : ∀ {s t : State}, s.loader.roles.edge = true → OnlyEdge s t → R s t
  wind : ∀ {s t : State}, s.loader.roles.mast = true → OnlyWind s t → R s t
  span : ∀ {s t : State}, s.loader.roles.span = true → OnlySpan s t → R s t
  landing : ∀ {s t : State}, s.loader.roles.jury = true → OnlyLanding s t → R s t
  scoring : ∀ {s t : State}, s.loader.roles.jury = true → OnlyScoring s t → R s t
  standings : ∀ {s t : State}, (s.loader.roles.jury || s.loader.roles.board) = true → OnlyStandings s t → R s t
  board : ∀ {s t : State}, s.loader.roles.board = true → OnlyBoard s t → R s t

namespace BlockRel

variable {R : State → State → Prop} {s t : State}

theorem ifRole (h : BlockRel R) (k : R s t) (role : RoleSet → Bool) {act : State → State}
    (a : ∀ u, role u.loader.roles = true → R u (act u)) : R s (t.ifRole role act) := by
  unfold State.ifRole
  split
  · rename_i r; exact h.trans k (a t r)
  · exact k

theorem raise (h : BlockRel R) (k : R s t) (n : NoticeBody) : R s (t.raise n) :=
  h.trans k (h.out ((Only.refl blockOut t).raise n))

theorem report (h : BlockRel R) (k : R s t) (f : FaultKind) (d : Nat) : R s (t.report f d) :=
  h.trans k (h.out ((Only.refl blockOut t).report f d))

theorem handChanges (h : BlockRel R)
    (start : ∀ u : State, u.loader.roles.start = true → R u u.recountBacklog) (k : R s t) (l : LineHdr)
    (byLanding : Bool) (cs : List Change) : R s (t.handChanges l byLanding cs) := by
  unfold State.handChanges
  refine h.ifRole (h.ifRole (h.ifRole (h.ifRole (h.ifRole (h.ifRole (h.ifRole (h.ifRole k _ start) _
    fun u r => ?_) _ fun u r => ?_) _ fun u r => ?_) _ fun u r => ?_) _ fun u r => ?_) _ fun u r => ?_) _ fun u r => ?_
  · exact h.edge r (Only.foldl (fun h _ => h.edgeChange _) cs (.refl blockEdge u))
  · exact h.wind r (Only.foldl (fun h _ => h.windChange _) cs (.refl blockWind u))
  · exact h.span r (Only.foldl (fun h _ => h.spanChange _) cs (.refl blockSpan u))
  · exact h.landing r (Only.foldl (f := fun s c => s.landingChange l c) (fun h _ => h.landingChange _ _) cs
      (.refl blockLanding u))
  · exact h.scoring r (OnlyScoring.foldl (fun h _ => h.scoringChange _) cs (.refl u))
  · refine h.standings (by simp [r]) ?_
    split
    · exact .refl blockStandings u
    · exact (Only.refl blockStandings u).testClosing
  · exact h.board r ((Only.foldl (f := fun s c => s.boardChange byLanding c) (fun h _ => h.boardChange _ _) cs
      (.refl blockBoard u)).boardListChange _)

theorem handFrame (h : BlockRel R) (l : LineHdr) (b : Body)
    (start : ∀ u : State, u.loader.roles.start = true → R u (u.startTake l b)) (k : R s t) (cs : List Change) :
    R s (t.handFrame l b cs) := by
  unfold State.handFrame
  refine h.ifRole (h.ifRole (h.ifRole (h.ifRole (h.ifRole (h.ifRole (h.ifRole (h.ifRole k _ start) _
    fun u r => ?_) _ fun u r => ?_) _ fun u r => ?_) _ fun u r => ?_) _ fun u r => ?_) _ fun u r => ?_) _ fun u r => ?_
  · exact h.edge r ((Only.foldl (fun h _ => h.edgeChange _) cs (.refl blockEdge u)).edgeFrame l b)
  · exact h.wind r ((Only.foldl (fun h _ => h.windChange _) cs (.refl blockWind u)).windFrame l b)
  · exact h.span r ((Only.foldl (fun h _ => h.spanChange _) cs (.refl blockSpan u)).spanFrame l b)
  · exact h.landing r ((Only.foldl (f := fun s c => s.landingChange l c) (fun h _ => h.landingChange _ _) cs
      (.refl blockLanding u)).landingFrame l b)
  · exact h.scoring r ((OnlyScoring.foldl (fun h _ => h.scoringChange _) cs (.refl u)).scoringFrame l b _)
  · exact h.standings r ((Only.refl blockStandings u).standingsTake l b cs)
  · exact h.board r ((Only.refl blockBoard u).boardTake _ l b cs)

theorem raiseChanges (h : BlockRel R) (cs : List Change) : ∀ {t : State}, R s t → R s (t.raiseChanges cs) := by
  unfold State.raiseChanges
  induction cs with
  | nil => exact id
  | cons c cs ih =>
    intro t k
    refine ih ?_
    unfold State.raiseChange
    split
    · exact k
    · exact h.raise k _

theorem withTable (h : BlockRel R) (k : R s t) (v : List AttemptRecord) : R s { t with table := v } :=
  h.trans k (h.table t v)

theorem forceOthers (h : BlockRel R) (k : R s t) (n : Nat) (put : Bool) : R s (t.forceOthers n put).1 := by
  unfold State.forceOthers
  split
  · exact h.withTable k _
  · exact k

theorem addRecord (h : BlockRel R) (k : R s t) (r : AttemptRecord) : R s (t.addRecord r).1 :=
  h.raiseChanges _ (h.forceOthers (h.withTable k _) _ _)

theorem takeKnown (h : BlockRel R) (k : R s t) (own : Bool) (l : LineHdr) (b : Body) (hd : AttemptHdr)
    (r : AttemptRecord) : R s (t.takeKnown own l b hd r).1 := by
  unfold State.takeKnown
  extract_lets s1 r' s2
  have k1 : R s s1 := by
    unfold s1
    split
    · exact k
    · exact h.raise k _
  have k2 : R s s2 := h.withTable k1 _
  split
  · exact k2
  · exact h.raiseChanges _ (h.forceOthers k2 _ _)

theorem removeRecord (h : BlockRel R)
    (start : ∀ u : State, u.loader.roles.start = true → R u u.recountBacklog) (k : R s t) (l : LineHdr)
    (r : AttemptRecord) : R s (t.removeRecord l r) :=
  h.handChanges start (h.withTable k _) _ _ _

theorem createRecord (h : BlockRel R)
    (start : ∀ u : State, u.loader.roles.start = true → R u u.recountBacklog) (k : R s t) (l : LineHdr) (b : Body)
    (hd : AttemptHdr) : R s (t.createRecord l b hd).1 := by
  unfold State.createRecord
  dsimp only
  split
  · exact h.addRecord k _
  · exact h.addRecord (h.removeRecord start k _ _) _
  · exact h.addRecord (h.removeRecord start (h.report k _ _) _ _) _
  · exact h.raise k _

theorem track (h : BlockRel R)
    (start : ∀ u : State, u.loader.roles.start = true → R u u.recountBacklog) (k : R s t) (l : LineHdr) (b : Body) :
    R s (t.track l b).1 := by
  unfold State.track
  split
  · exact h.withTable k _
  · split
    · exact k
    · split
      · exact h.takeKnown k _ _ _ _ _
      · split
        · exact h.createRecord start k _ _ _
        · exact h.raise k _

end BlockRel

/-- A delivered frame that does not pass the filter, and any at a station that is not in RUN, is for the roster alone
(R5, R26). -/
theorem State.deliver_filtered {s : State} {l : LineHdr} {b : Body}
    (h : s.loader.state.base ≠ .run ∨ s.passesFilter l b = false) : s.deliver l b = s.rosterTake l b := by
  have o := (OnlyDelivery.rosterTake (.refl blockDelivery s) l b).same
  have d : (s.rosterTake l b).loader = s.loader := (congrArg State.loader o :)
  have e := (KeepsEvent.rosterTake s l b).event
  have p : (s.rosterTake l b).passesFilter l b = s.passesFilter l b := by unfold State.passesFilter; rw [e]
  unfold State.deliver
  dsimp only
  rw [d, p]
  rcases h with h | h
  · rw [if_neg h]
  · simp [h]

/-- A frame of the current event in RUN reaches the line interface, the tracker and the blocks (R5, R35). -/
theorem State.deliver_passed {s : State} {l : LineHdr} {b : Body} (h : s.loader.state.base = .run)
    (f : s.passesFilter l b = true) : s.deliver l b =
      (((s.rosterTake l b).lineTake l b).track l b).1.handFrame l b
        (((s.rosterTake l b).lineTake l b).track l b).2 := by
  have o := (OnlyDelivery.rosterTake (.refl blockDelivery s) l b).same
  have d : (s.rosterTake l b).loader = s.loader := (congrArg State.loader o :)
  have e := (KeepsEvent.rosterTake s l b).event
  have p : (s.rosterTake l b).passesFilter l b = s.passesFilter l b := by unfold State.passesFilter; rw [e]
  unfold State.deliver
  dsimp only
  rw [d, p, if_pos h, if_pos f]

/-- What holds of the roster's part of a delivery, and is kept by the stages that follow it, holds of the delivery. -/
theorem BlockRel.deliver {R : State → State → Prop} (h : BlockRel R)
    (line : ∀ (s : State) v, R s { s with line := v })
    (count : ∀ u : State, u.loader.roles.start = true → R u u.recountBacklog) (l : LineHdr) (b : Body)
    (start : ∀ u : State, u.loader.roles.start = true → R u (u.startTake l b)) (s : State) :
    R (s.rosterTake l b) (s.deliver l b) := by
  by_cases r : s.loader.state.base = .run
  · by_cases f : s.passesFilter l b = true
    · rw [State.deliver_passed r f]
      refine h.handFrame l b start (h.track count ?_ l b) _
      unfold State.lineTake
      split
      · exact line _ _
      · split
        · exact line _ _
        · exact h.refl _
      · exact h.refl _
    · rw [State.deliver_filtered (.inr (by simpa using f))]; exact h.refl _
  · rw [State.deliver_filtered (.inl r)]; exact h.refl _

/-! ## Blocks whose role the station does not hold -/

/-- A block whose role the station does not hold keeps its state. -/
structure RoleKeeps (s t : State) : Prop where
  loader : t.loader = s.loader
  start : s.loader.roles.start = false → t.start = s.start
  edge : s.loader.roles.edge = false → t.edge = s.edge
  wind : s.loader.roles.mast = false → t.wind = s.wind
  span : s.loader.roles.span = false → t.span = s.span
  contexts : s.loader.roles.jury = false → t.contexts = s.contexts
  scoring : s.loader.roles.jury = false → t.scoring = s.scoring
  standings : s.loader.roles.jury = false → s.loader.roles.board = false → t.standings = s.standings
  board : s.loader.roles.board = false → t.board = s.board

namespace RoleKeeps

variable {s t u : State}

theorem refl (s : State) : RoleKeeps s s :=
  ⟨rfl, fun _ => rfl, fun _ => rfl, fun _ => rfl, fun _ => rfl, fun _ => rfl, fun _ => rfl, fun _ _ => rfl, fun _ => rfl⟩

theorem trans (h : RoleKeeps s t) (k : RoleKeeps t u) : RoleKeeps s u := by
  have e := h.loader
  refine ⟨k.loader.trans e, fun r => (k.start ?_).trans (h.start r), fun r => (k.edge ?_).trans (h.edge r),
    fun r => (k.wind ?_).trans (h.wind r), fun r => (k.span ?_).trans (h.span r),
    fun r => (k.contexts ?_).trans (h.contexts r), fun r => (k.scoring ?_).trans (h.scoring r),
    fun r q => (k.standings ?_ ?_).trans (h.standings r q), fun r => (k.board ?_).trans (h.board r)⟩ <;>
  rw [e] <;> assumption

/-- A change of the sequencer at a station that holds START. -/
theorem of_start (r : s.loader.roles.start = true) (h : OnlyStart s t) : RoleKeeps s t where
  loader := (congrArg State.loader h.same :)
  start := fun k => absurd (k.symm.trans r) (by decide)
  edge := fun _ => (congrArg State.edge h.same :)
  wind := fun _ => (congrArg State.wind h.same :)
  span := fun _ => (congrArg State.span h.same :)
  contexts := fun _ => (congrArg State.contexts h.same :)
  scoring := fun _ => (congrArg State.scoring h.same :)
  standings := fun _ _ => (congrArg State.standings h.same :)
  board := fun _ => (congrArg State.board h.same :)

theorem rel : BlockRel RoleKeeps where
  refl := refl
  trans := trans
  out h := ⟨(congrArg State.loader h.same :), fun _ => (congrArg State.start h.same :),
    fun _ => (congrArg State.edge h.same :), fun _ => (congrArg State.wind h.same :),
    fun _ => (congrArg State.span h.same :), fun _ => (congrArg State.contexts h.same :),
    fun _ => (congrArg State.scoring h.same :), fun _ _ => (congrArg State.standings h.same :),
    fun _ => (congrArg State.board h.same :)⟩
  table _ _ := ⟨rfl, fun _ => rfl, fun _ => rfl, fun _ => rfl, fun _ => rfl, fun _ => rfl, fun _ => rfl, fun _ _ => rfl,
    fun _ => rfl⟩
  edge r h := ⟨(congrArg State.loader h.same :), fun _ => (congrArg State.start h.same :),
    fun k => absurd (k.symm.trans r) (by decide), fun _ => (congrArg State.wind h.same :),
    fun _ => (congrArg State.span h.same :), fun _ => (congrArg State.contexts h.same :),
    fun _ => (congrArg State.scoring h.same :), fun _ _ => (congrArg State.standings h.same :),
    fun _ => (congrArg State.board h.same :)⟩
  wind r h := ⟨(congrArg State.loader h.same :), fun _ => (congrArg State.start h.same :),
    fun _ => (congrArg State.edge h.same :), fun k => absurd (k.symm.trans r) (by decide),
    fun _ => (congrArg State.span h.same :), fun _ => (congrArg State.contexts h.same :),
    fun _ => (congrArg State.scoring h.same :), fun _ _ => (congrArg State.standings h.same :),
    fun _ => (congrArg State.board h.same :)⟩
  span r h := ⟨(congrArg State.loader h.same :), fun _ => (congrArg State.start h.same :),
    fun _ => (congrArg State.edge h.same :), fun _ => (congrArg State.wind h.same :),
    fun k => absurd (k.symm.trans r) (by decide), fun _ => (congrArg State.contexts h.same :),
    fun _ => (congrArg State.scoring h.same :), fun _ _ => (congrArg State.standings h.same :),
    fun _ => (congrArg State.board h.same :)⟩
  landing r h := ⟨(congrArg State.loader h.same :), fun _ => (congrArg State.start h.same :),
    fun _ => (congrArg State.edge h.same :), fun _ => (congrArg State.wind h.same :),
    fun _ => (congrArg State.span h.same :), fun k => absurd (k.symm.trans r) (by decide),
    fun _ => (congrArg State.scoring h.same :), fun _ _ => (congrArg State.standings h.same :),
    fun _ => (congrArg State.board h.same :)⟩
  scoring r h := ⟨(congrArg State.loader h.same :), fun _ => (congrArg State.start h.same :),
    fun _ => (congrArg State.edge h.same :), fun _ => (congrArg State.wind h.same :),
    fun _ => (congrArg State.span h.same :), fun _ => (congrArg State.contexts h.same :),
    fun k => absurd (k.symm.trans r) (by decide), fun _ _ => (congrArg State.standings h.same :),
    fun _ => (congrArg State.board h.same :)⟩
  standings r h := ⟨(congrArg State.loader h.same :), fun _ => (congrArg State.start h.same :),
    fun _ => (congrArg State.edge h.same :), fun _ => (congrArg State.wind h.same :),
    fun _ => (congrArg State.span h.same :), fun _ => (congrArg State.contexts h.same :),
    fun _ => (congrArg State.scoring h.same :), fun j k => absurd r (by rw [j, k]; decide),
    fun _ => (congrArg State.board h.same :)⟩
  board r h := ⟨(congrArg State.loader h.same :), fun _ => (congrArg State.start h.same :),
    fun _ => (congrArg State.edge h.same :), fun _ => (congrArg State.wind h.same :),
    fun _ => (congrArg State.span h.same :), fun _ => (congrArg State.contexts h.same :),
    fun _ => (congrArg State.scoring h.same :), fun _ _ => (congrArg State.standings h.same :),
    fun k => absurd (k.symm.trans r) (by decide)⟩

end RoleKeeps

end Sys2Proof.Machine
end

section
/-! STATION and CONFIG through a delivery (R28, R59, R71). -/

namespace Sys2Proof.Machine

open Sys2Proof

/-! ## Frames touch neither STATION nor CONFIG -/

/-- The entries of the causes that the roster gives. -/
def StartState.rosterHolds (st : StartState) : List Hold :=
  st.holds.filter (fun x => x.cause = .station ∨ x.cause = .config)

/-- The entries of STATION and CONFIG stay. -/
def RosterHoldsStay (s t : State) : Prop := t.start.rosterHolds = s.start.rosterHolds

/-- An entry that a test does not name joins the list without changing what the test names of it. -/
theorem appendHold_filter_of (p : Hold → Bool) (h : Hold) (n : p h = false) (hs : List Hold) :
    (appendHold h hs).filter p = hs.filter p := by
  induction hs with
  | nil => simp [appendHold, n]
  | cons x xs ih =>
    unfold appendHold
    split
    · simp [n]
    · simp only [List.filter_cons, ih]

namespace RosterHoldsStay

variable {s t u : State}

theorem refl (s : State) : RosterHoldsStay s s := Eq.refl _

theorem trans (h : RosterHoldsStay s t) (k : RosterHoldsStay t u) : RosterHoldsStay s u := Eq.trans k h

theorem of_start (h : t.start = s.start) : RosterHoldsStay s t := congrArg StartState.rosterHolds h

theorem of_holds (h : t.start.holds = s.start.holds) : RosterHoldsStay s t :=
  congrArg (List.filter (fun x : Hold => x.cause = .station ∨ x.cause = .config)) h

/-- A raise of another cause. -/
theorem raiseHold (s : State) {c : HoldCause} (n : c ≠ .station ∧ c ≠ .config) (a b : Nat) :
    RosterHoldsStay s (s.raiseHold c a b) := by
  unfold RosterHoldsStay StartState.rosterHolds
  rw [State.raiseHold_holds]
  split
  · unfold replaceHold
    induction s.start.holds with
    | nil => rfl
    | cons x xs ih =>
      rw [List.map_cons, List.filter_cons, List.filter_cons, ih]
      by_cases e : x.cause = c <;> simp [e, n]
  · exact appendHold_filter_of _ _ (by simp [n]) _

/-- A release of another cause. -/
theorem releaseHold (s : State) {c : HoldCause} (n : c ≠ .station ∧ c ≠ .config) :
    RosterHoldsStay s (s.releaseHold c) := by
  unfold RosterHoldsStay StartState.rosterHolds
  rw [State.releaseHold_holds, List.filter_filter]
  refine List.filter_congr fun x _ => ?_
  by_cases e : x.cause = c
  · simp [e, n.1, n.2]
  · simp [e]

theorem holdWhile (s : State) {c : HoldCause} (n : c ≠ .station ∧ c ≠ .config) (why : Option (Nat × Nat)) :
    RosterHoldsStay s (s.holdWhile c why) := by
  unfold State.holdWhile
  split
  · exact raiseHold s n _ _
  · exact releaseHold s n

theorem raise (h : RosterHoldsStay s t) (n : NoticeBody) : RosterHoldsStay s (t.raise n) := h.trans (of_start (by simp))

theorem offer (h : RosterHoldsStay s t) (b : Body) (e : Option Tick) : RosterHoldsStay s (t.offer b e) :=
  h.trans (of_start (by simp))

theorem reoffer (h : RosterHoldsStay s t) (k : Option KeptFrame) : RosterHoldsStay s (t.reoffer k) := by
  unfold State.reoffer
  split
  · exact h
  · exact h.offer _ _

theorem modStart (h : RosterHoldsStay s t) {f : StartState → StartState} (e : (f t.start).holds = t.start.holds) :
    RosterHoldsStay s (t.modStart f) := h.trans (of_holds e)

theorem endCycle (h : RosterHoldsStay s t) : RosterHoldsStay s t.endCycle :=
  (h.modStart rfl).trans (releaseHold _ (by decide))

/-- The backlog count raises and releases BACKLOG alone (R72). -/
theorem recountBacklog (h : RosterHoldsStay s t) : RosterHoldsStay s t.recountBacklog := by
  unfold State.recountBacklog
  split
  · exact (h.modStart rfl).trans (holdWhile _ (by decide) _)
  · exact h

/-- The corridor raises and releases WIND alone (R74). -/
theorem evalWind (h : RosterHoldsStay s t) : RosterHoldsStay s t.evalWind := by
  unfold State.evalWind
  split
  · exact (h.modStart rfl).trans (raiseHold _ (by decide) _ _)
  · split
    · split
      · exact h.trans (releaseHold _ (by decide))
      · split
        · exact h
        · exact h.modStart rfl
    · exact h

theorem applyGate (h : RosterHoldsStay s t) (g : Nat) : RosterHoldsStay s (t.applyGate g) := by
  unfold State.applyGate
  split
  · exact h
  · dsimp only
    split
    · exact h.trans (of_holds (by simp))
    · exact h.modStart rfl

theorem takeGate (h : RosterHoldsStay s t) (k : AttemptHdr) (g : Nat) (a : Bool) :
    RosterHoldsStay s (t.takeGate k g a) := by
  unfold State.takeGate
  split
  · split
    · split
      · exact (h.modStart rfl).trans (releaseHold _ (by decide))
      · exact h
    · exact (((h.modStart rfl).offer _ _).applyGate g).trans (releaseHold _ (by decide))
  · exact h.applyGate g

/-- No frame that the sequencer takes touches STATION or CONFIG. -/
theorem startFrame (h : RosterHoldsStay s t) (l : LineHdr) (b : Body) : RosterHoldsStay s (t.startFrame l b) := by
  have jury : ∀ {act : State → State}, RosterHoldsStay t (act t) → RosterHoldsStay s (t.juryOnly l b act) := by
    intro act k
    unfold State.juryOnly
    split
    · exact h.trans k
    · exact h.raise _
  have own : ∀ {u : State}, RosterHoldsStay s u → RosterHoldsStay s (if t.isOwn l then u else t) := by
    intro u k
    split
    · exact k
    · exact h
  have landed : ∀ hd, RosterHoldsStay s (t.startLanded hd) := fun hd => by
    unfold State.startLanded
    split
    · exact h.endCycle
    · exact h
  cases b with
  | call hd g =>
    refine jury ?_
    unfold State.startCall
    split
    · exact of_holds (by simp)
    · exact (refl t).raise _
  | go hd =>
    refine jury ?_
    unfold State.startGo
    split
    · exact (refl t).raise _
    · split
      · exact of_holds (by simp)
      · exact refl t
  | gate hd g a =>
    refine jury ?_
    unfold State.startGate
    split
    · exact (refl t).takeGate _ _ _
    · exact (refl t).raise _
  | hold set =>
    refine jury ?_
    unfold State.startHold
    split
    · exact raiseHold _ (by decide) _ _
    · exact releaseHold _ (by decide)
  | corridor m x y u f =>
    show RosterHoldsStay s (t.startCorridor l m x y u f)
    unfold State.startCorridor
    split
    · exact (h.modStart rfl).evalWind
    · exact h.raise _
  | void hd why =>
    show RosterHoldsStay s (t.startVoid l hd (.void hd why))
    unfold State.startVoid
    split
    · extract_lets s1
      have k : RosterHoldsStay s s1 := own (h.modStart rfl)
      split
      · exact k.endCycle
      · exact k
    · exact h
  | landing hd _ _ _ _ => exact landed hd
  | mastMean hd _ _ _ _ => exact landed hd
  | result r => exact landed r.hdr
  | phase hd p g sec n =>
    refine own ?_
    unfold State.startOwnPhase
    dsimp only
    split
    · exact (h.modStart rfl).reoffer _
    · exact h.modStart rfl
  | leave hd o => exact own (h.modStart rfl)
  | status p =>
    refine own ((trans (h.reoffer t.start.keptLeave) ?_).reoffer _)
    unfold State.reofferPhase
    split
    · exact (refl _).offer _ _
    · exact (refl _).reoffer _
  | event n m r =>
    show RosterHoldsStay s ((if t.start.phase = .idle then t else t.endCycle).modStart _)
    refine modStart ?_ rfl
    split
    · exact h
    · exact h.endCycle
  | _ => exact h

theorem startTake (h : RosterHoldsStay s t) (l : LineHdr) (b : Body) : RosterHoldsStay s (t.startTake l b) := by
  unfold State.startTake
  split
  · exact (h.startFrame l b).recountBacklog
  · exact h.recountBacklog.startFrame l b

theorem rel : BlockRel RosterHoldsStay where
  refl := refl
  trans := trans
  out h := of_start (congrArg State.start h.same :)
  table _ _ := refl _
  edge _ h := of_start (congrArg State.start h.same :)
  wind _ h := of_start (congrArg State.start h.same :)
  span _ h := of_start (congrArg State.start h.same :)
  landing _ h := of_start (congrArg State.start h.same :)
  scoring _ h := of_start (congrArg State.start h.same :)
  standings _ h := of_start (congrArg State.start h.same :)
  board _ h := of_start (congrArg State.start h.same :)

/-- Only the roster's part of a delivery touches STATION and CONFIG. -/
theorem deliver (s : State) (l : LineHdr) (b : Body) : RosterHoldsStay (s.rosterTake l b) (s.deliver l b) :=
  rel.deliver (fun _ _ => refl _) (fun u _ => (refl u).recountBacklog) l b (fun u _ => (refl u).startTake l b) s

end RosterHoldsStay

/-! ## What an evaluation of STATION and CONFIG leaves (R71) -/

/-- The entries of a cause after its condition has been evaluated in `s`. -/
def State.entriesOf (s : State) (c : HoldCause) (why : Option (Nat × Nat)) : List Hold :=
  match why with
  | none => []
  | some (source, detail) =>
    if s.start.standing c then
      (s.start.holds.filter (fun x => x.cause = c)).map (fun x => { x with source := source, detail := detail })
    else [⟨c, s.clock, source, detail⟩]

/-- The entry that joins the list is the only one of its cause. -/
theorem appendHold_filter_same (h : Hold) (hs : List Hold) (n : ∀ x ∈ hs, x.cause ≠ h.cause) :
    (appendHold h hs).filter (fun x => x.cause = h.cause) = [h] := by
  have p := (appendHold_perm h hs).filter (fun x => x.cause = h.cause)
  have e : hs.filter (fun x => x.cause = h.cause) = [] := List.filter_eq_nil_iff.2 fun x m => by simpa using n x m
  rw [List.filter_cons_of_pos (by simp), e] at p
  exact p.eq_singleton

theorem State.holdWhile_same (s : State) (c : HoldCause) (why : Option (Nat × Nat)) :
    (s.holdWhile c why).start.holds.filter (fun x => x.cause = c) = s.entriesOf c why := by
  unfold State.holdWhile State.entriesOf
  split
  · rename_i a b
    rw [State.raiseHold_holds]
    split
    · unfold replaceHold
      induction s.start.holds with
      | nil => rfl
      | cons x xs ih =>
        rw [List.map_cons, List.filter_cons, List.filter_cons, ih]
        by_cases e : x.cause = c <;> simp [e]
    · rename_i n
      exact appendHold_filter_same ⟨c, s.clock, a, b⟩ _ ((s.start.not_standing_iff c).1 (by simpa using n))
  · rw [State.releaseHold_holds, List.filter_filter]
    simp

/-- The evaluation of STATION changes nothing that the condition of CONFIG reads. -/
theorem State.evalRosterHolds_entries (s : State) :
    s.evalRosterHolds.start.holds.filter (fun x => x.cause = .station) = s.entriesOf .station s.stationCause ∧
    s.evalRosterHolds.start.holds.filter (fun x => x.cause = .config) = s.entriesOf .config s.configCause := by
  have o := (Only.holdWhile (.refl blockStart s) .station s.stationCause).same
  have roster : (s.holdWhile .station s.stationCause).roster = s.roster := (congrArg State.roster o :)
  have loader : (s.holdWhile .station s.stationCause).loader = s.loader := (congrArg State.loader o :)
  have clock : (s.holdWhile .station s.stationCause).clock = s.clock := (congrArg State.clock o :)
  have other : (s.holdWhile .station s.stationCause).notAnnouncing = s.notAnnouncing := by
    funext n; simp only [State.notAnnouncing, State.rosterAt, roster, loader]
  have cause : (s.holdWhile .station s.stationCause).configCause = s.configCause := by
    simp only [State.configCause, State.rosterAt, roster, other]
  have entries : ∀ why, (s.holdWhile .station s.stationCause).entriesOf .config why = s.entriesOf .config why := by
    intro why
    have f := State.holdWhile_other s (c := .station) (d := .config) (by decide) s.stationCause
    unfold State.entriesOf
    rw [f, StartState.standing_of_filter f, clock]
  unfold State.evalRosterHolds
  dsimp only
  constructor
  · rw [State.holdWhile_other _ (by decide), State.holdWhile_same]
  · rw [State.holdWhile_same, cause, entries]

/-- A condition that holds leaves at least one entry of its cause, and no other does. -/
theorem State.entriesOf_ne_nil (s : State) (c : HoldCause) (why : Option (Nat × Nat)) :
    s.entriesOf c why ≠ [] ↔ why ≠ none := by
  unfold State.entriesOf
  split
  · simp
  · split
    · rename_i st
      obtain ⟨x, m, e⟩ := (s.start.standing_iff c).1 st
      have : x ∈ s.start.holds.filter (fun x => x.cause = c) := List.mem_filter.2 ⟨m, by simpa using e⟩
      simpa using List.ne_nil_of_mem this
    · simp

/-- An entry of an evaluated cause has the source and the detail of its condition, and is raised as before. -/
theorem State.of_mem_entriesOf {s : State} {c : HoldCause} {why : Option (Nat × Nat)} {x : Hold}
    (m : x ∈ s.entriesOf c why) : why = some (x.source, x.detail) ∧ s.RaisedAsBefore x := by
  unfold State.entriesOf at m
  unfold State.RaisedAsBefore
  split at m
  · exact absurd m (by simp)
  · split at m
    · rename_i st
      obtain ⟨y, my, rfl⟩ := List.mem_map.1 m
      obtain ⟨my, cy⟩ := List.mem_filter.1 my
      have cy : y.cause = c := by simpa using cy
      refine ⟨rfl, ?_⟩
      rw [if_pos (by simpa [cy] using st)]
      exact ⟨y, my, rfl, rfl⟩
    · rename_i st
      obtain rfl := List.mem_singleton.1 m
      refine ⟨rfl, ?_⟩
      rw [if_neg st]

/-! ## The lowest number of a list -/

theorem lowest_eq_none_iff {ns : List Nat} : lowest ns = none ↔ ns = [] := by
  cases ns with
  | nil => simp [lowest]
  | cons n ns => simp only [lowest]; split <;> simp

theorem lowest_le {ns : List Nat} {n : Nat} (h : lowest ns = some n) : n ∈ ns ∧ ∀ m ∈ ns, n ≤ m := by
  induction ns generalizing n with
  | nil => simp [lowest] at h
  | cons k ks ih =>
    simp only [lowest] at h
    split at h
    · rename_i e
      obtain rfl := lowest_eq_none_iff.1 e
      simp at h
      simp [h]
    · rename_i m e
      obtain ⟨mem, le⟩ := ih e
      injection h with h
      subst h
      refine ⟨?_, fun x hx => ?_⟩
      · rcases Nat.le_total k m with o | o
        · simp [o]
        · simp [o, mem]
      · rcases List.mem_cons.1 hx with rfl | hx
        · omega
        · have := le x hx; omega

/-- The lowest number of a list in ascending order is its first. -/
theorem lowest_of_ascending {ns : List Nat} (h : ns.Pairwise (· < ·)) : lowest ns = ns.head? := by
  cases e : lowest ns with
  | none => simp [lowest_eq_none_iff.1 e]
  | some n =>
    obtain ⟨mem, le⟩ := lowest_le e
    cases ns with
    | nil => cases mem
    | cons k ks =>
      have := le k (by simp)
      rcases List.mem_cons.1 mem with rfl | mk
      · rfl
      · have := (List.pairwise_cons.1 h).1 n mk; omega

/-! ## The evaluation as the statements give it -/

/-- The conditions of STATION and CONFIG, read as the statements read them. -/
theorem State.RosterHoldsFollow.of_entries {s t u : State} (start : u.start = s.start) (clock : u.clock = s.clock)
    (roster : t.roster = u.roster) (loader : t.loader = u.loader)
    (station : t.start.holds.filter (fun x => x.cause = .station) = u.entriesOf .station u.stationCause)
    (config : t.start.holds.filter (fun x => x.cause = .config) = u.entriesOf .config u.configCause) :
    s.RosterHoldsFollow t := by
  rintro notReady other rfl rfl
  have at_eq : t.rosterAt = u.rosterAt := by funext n; simp only [State.rosterAt, roster]
  have ready : t.ready = u.ready := by funext n; simp only [State.ready, at_eq, loader]
  have announcing : (List.range 16).filter (fun n => (t.rosterAt n).presence = .present ∧
      (t.rosterAt n).status.map (·.payload.digest) ≠ some t.loader.digest) =
      (List.range 16).filter u.notAnnouncing := by
    refine List.filter_congr fun n _ => ?_
    simp only [State.notAnnouncing, at_eq, loader]
    cases (u.rosterAt n).status <;> by_cases p : (u.rosterAt n).presence = .present <;>
      simp [p, bne, beq_eq_decide]
  have stationEq : u.stationCause = (lowest (t.loader.consts.required.filter (fun n => !t.ready n))).map
      (fun n => (n, (t.loader.consts.required.filter (fun n => !t.ready n)).length)) := by
    rw [loader, ready]; rfl
  have configEq : u.configCause = ((List.range 16).filter u.notAnnouncing).head?.map (fun n =>
      (n, ((t.rosterAt n).status.map (·.payload.digest.toNat)).getD 0)) := by
    unfold State.configCause
    rw [lowest_of_ascending ((List.pairwise_lt_range (n := 16)).filter _), at_eq]
    congr 1
    funext n
    cases (u.rosterAt n).status <;> rfl
  have raised : ∀ x, u.RaisedAsBefore x → s.RaisedAsBefore x := fun x h => by
    unfold State.RaisedAsBefore at h ⊢
    rwa [start, clock] at h
  have stands : ∀ c, t.start.standing c = true ↔ t.start.holds.filter (fun x => x.cause = c) ≠ [] := fun c => by
    simp [StartState.standing_iff]
  rw [announcing]
  refine ⟨?_, ?_, fun x m => ⟨fun c => ?_, fun c => ?_⟩⟩
  · rw [stands, station, State.entriesOf_ne_nil, stationEq]
    simp [lowest_eq_none_iff]
  · rw [stands, config, State.entriesOf_ne_nil, configEq]
    simp
  · have mx : x ∈ t.start.holds.filter (fun x => x.cause = .station) := List.mem_filter.2 ⟨m, by simpa using c⟩
    rw [station] at mx
    obtain ⟨e, r⟩ := State.of_mem_entriesOf mx
    rw [stationEq, Option.map_eq_some_iff] at e
    obtain ⟨n, low, e⟩ := e
    obtain ⟨mem, le⟩ := lowest_le low
    injection e with e1 e2
    exact ⟨e1 ▸ mem, e1 ▸ le, e2.symm, raised x r⟩
  · have mx : x ∈ t.start.holds.filter (fun x => x.cause = .config) := List.mem_filter.2 ⟨m, by simpa using c⟩
    rw [config] at mx
    obtain ⟨e, r⟩ := State.of_mem_entriesOf mx
    rw [configEq, Option.map_eq_some_iff] at e
    obtain ⟨n, low, e⟩ := e
    injection e with e1 e2
    exact ⟨e1 ▸ low, raised x r, e1 ▸ e2.symm⟩

/-! ## The roster's part of a delivery -/

/-- The roster with the sender's entry, before its readers: nothing else changes but notices. -/
theorem State.rosterTake_form (s : State) (l : LineHdr) (b : Body) : ∃ u,
    OnlyOut { s with roster := s.roster.set l.sender ((s.rosterAt l.sender).hear l b) } u ∧
    s.rosterTake l b =
      if (s.rosterAt l.sender).presence ≠ .present ∨
        announced (s.rosterAt l.sender).status ≠ announced ((s.rosterAt l.sender).hear l b).status then u.rosterReaders
      else u := by
  unfold State.rosterTake
  extract_lets e e' heard changed s1 s2 s3
  have k2 : OnlyOut s1 s2 := by
    unfold s2
    split
    · exact (Only.refl blockOut s1).raise _
    · exact .refl blockOut s1
  have k3 : OnlyOut s1 s3 := by
    unfold s3
    split
    · exact k2.raise _
    · exact k2
  refine ⟨s3, k3, ?_⟩
  by_cases h : heard = true <;> by_cases c : changed = true <;>
    simp_all [heard, changed, e, e']

end Sys2Proof.Machine
end

section
/-! Frames of other stations (R5, R12, R28, R57). -/

namespace Sys2Proof.Machine

open Sys2Proof

/-! ## The roster after a delivery -/

/-- After its own part of a delivery, the roster stays. -/
theorem State.deliver_roster (s : State) (l : LineHdr) (b : Body) :
    (s.deliver l b).roster = s.roster.set l.sender ((s.rosterAt l.sender).hear l b) := by
  rw [← s.rosterTake_roster l b]
  by_cases r : s.loader.state.base = .run
  · by_cases f : s.passesFilter l b = true
    · rw [State.deliver_passed r f]
      have k := (OnlyTracked.handFrame (.track (.refl blockTracked ((s.rosterTake l b).lineTake l b)) l b) l b
        (((s.rosterTake l b).lineTake l b).track l b).2).same
      refine (congrArg State.roster k :).trans ?_
      unfold State.lineTake
      split
      · rfl
      · split <;> rfl
      · rfl
    · rw [State.deliver_filtered (.inr (by simpa using f))]
  · rw [State.deliver_filtered (.inl r)]

/-- A sender in range has a roster entry. -/
theorem LineHdr.sender_lt {l : LineHdr} (h : l.inRange = true) : l.sender < 16 := by
  unfold LineHdr.inRange RxHdr.inRange at h
  obtain ⟨sender, -⟩ := Bool.and_eq_true_iff.1 h
  exact Nat.lt_succ_of_le (of_decide_eq_true sender)

/-- The sender's entry after a delivery is what it has heard; every other entry stays (R28). -/
theorem State.deliver_rosterAt {s : State} (h : s.RosterSound) (l : LineHdr) (b : Body) (n : Nat) (i : l.sender < 16) :
    (s.deliver l b).rosterAt n = if n = l.sender then (s.rosterAt l.sender).hear l b else s.rosterAt n := by
  have len : l.sender < s.roster.length := by rw [h]; exact i
  unfold State.rosterAt
  rw [State.deliver_roster]
  by_cases e : n = l.sender
  · subst e
    simp [List.getD_eq_getElem?_getD, len, State.rosterAt]
  · simp [List.getD_eq_getElem?_getD, e, Ne.symm e]

/-! ## The roster's readers -/

namespace RoleKeeps

variable {s t : State}

theorem withRoster (s : State) (v : List RosterEntry) : RoleKeeps s { s with roster := v } :=
  ⟨rfl, fun _ => rfl, fun _ => rfl, fun _ => rfl, fun _ => rfl, fun _ => rfl, fun _ => rfl, fun _ _ => rfl, fun _ => rfl⟩

theorem rosterTake (s : State) (l : LineHdr) (b : Body) : RoleKeeps s (s.rosterTake l b) := by
  obtain ⟨u, o, e⟩ := s.rosterTake_form l b
  have k := (withRoster s _).trans (rel.out o)
  rw [e]
  split
  · refine rel.ifRole (rel.ifRole k _ fun v r => ?_) _ fun v r => ?_
    · exact of_start r (Only.refl blockStart v).evalRosterHolds
    · exact rel.scoring r (OnlyScoring.refl v).gatherAll
  · exact k

/-- A delivered frame leaves the block of every role that the station does not hold. -/
theorem deliver (s : State) (l : LineHdr) (b : Body) : RoleKeeps s (s.deliver l b) :=
  (rosterTake s l b).trans (rel.deliver (fun _ _ => ⟨rfl, fun _ => rfl, fun _ => rfl, fun _ => rfl, fun _ => rfl,
      fun _ => rfl, fun _ => rfl, fun _ _ => rfl, fun _ => rfl⟩)
    (fun u r => of_start r (Only.refl blockStart u).recountBacklog) l b
    (fun u r => of_start r ((Only.refl blockStart u).startTake l b)) s)

end RoleKeeps

/-- The scoring test sends a result and touches no VOID copy, mark or mode. -/
theorem State.scoringTest_scoring (s : State) (n : Nat) : (s.scoringTest n).scoring = s.scoring := by
  unfold State.scoringTest
  split
  · rfl
  · split
    · rfl
    · split
      · simp [State.offerResult, State.sendResult]
      · rfl

theorem State.gatherTest_scoring (s : State) (n : Nat) : (s.gatherTest n).scoring = s.scoring := by
  unfold State.gatherTest
  split
  · rfl
  · split
    · simp [State.gatherDone, State.scoringTest_scoring]
    · rfl

theorem State.gatherAll_scoring (s : State) : s.gatherAll.scoring = s.scoring := by
  unfold State.gatherAll
  induction s.table.map (·.hdr.attempt) generalizing s with
  | nil => rfl
  | cons n ns ih => rw [List.foldl_cons, ih, State.gatherTest_scoring]

/-! ## The attempts and what is kept under them -/

/-- What the units behind the attempt table hold stays: the records but their scoring parts, the run record, the wind
unit, the flight record, the contexts, and the scoring unit's own state. -/
structure AttemptsStay (s t : State) : Prop where
  loader : t.loader = s.loader
  table : t.table.map AttemptRecord.bare = s.table.map AttemptRecord.bare
  edge : t.edge = s.edge
  wind : t.wind = s.wind
  span : t.span = s.span
  contexts : t.contexts = s.contexts
  scoring : t.scoring = s.scoring

namespace AttemptsStay

variable {s t u : State}

theorem refl (s : State) : AttemptsStay s s := ⟨rfl, rfl, rfl, rfl, rfl, rfl, rfl⟩

theorem trans (h : AttemptsStay s t) (k : AttemptsStay t u) : AttemptsStay s u :=
  ⟨k.loader.trans h.loader, k.table.trans h.table, k.edge.trans h.edge, k.wind.trans h.wind, k.span.trans h.span,
    k.contexts.trans h.contexts, k.scoring.trans h.scoring⟩

/-- A change of a block that keeps nothing of an attempt behind the table: the sequencer, the standings, the board. -/
theorem of_only {R : State → State → State} (h : Only R s t)
    (w : ∀ u v : State, AttemptsStay (R u v) v := by exact fun _ _ => ⟨rfl, rfl, rfl, rfl, rfl, rfl, rfl⟩) :
    AttemptsStay s t := by
  have := w s t
  rwa [h.same] at this

theorem gatherAll (s : State) : AttemptsStay s s.gatherAll :=
  have h := (OnlyScoring.refl s).gatherAll
  ⟨(congrArg State.loader h.same :), h.bare, (congrArg State.edge h.same :), (congrArg State.wind h.same :),
    (congrArg State.span h.same :), (congrArg State.contexts h.same :), s.gatherAll_scoring⟩

theorem ifRole (h : AttemptsStay s t) (role : RoleSet → Bool) {act : State → State}
    (a : ∀ u, u.loader = s.loader → AttemptsStay u (act u)) : AttemptsStay s (t.ifRole role act) := by
  unfold State.ifRole
  split
  · exact h.trans (a t h.loader)
  · exact h

/-- The roster's part of a delivery, of any frame. -/
theorem rosterTake (s : State) (l : LineHdr) (b : Body) : AttemptsStay s (s.rosterTake l b) := by
  obtain ⟨u, o, e⟩ := s.rosterTake_form l b
  have k1 : AttemptsStay s { s with roster := s.roster.set l.sender ((s.rosterAt l.sender).hear l b) } :=
    ⟨rfl, rfl, rfl, rfl, rfl, rfl, rfl⟩
  have k := k1.trans (of_only o)
  rw [e]
  split
  · exact ifRole (ifRole k _ fun v _ => of_only (Only.refl blockStart v).evalRosterHolds) _ fun v _ => gatherAll v
  · exact k

/-- The blocks, at a frame of another station without an attempt header that has changed no record. -/
theorem handFrame {s : State} {l : LineHdr} {b : Body} (own : s.isOwn l = false) (hd : b.hdr? = none)
    (ev : ∀ n m r, b ≠ .event n m r) : AttemptsStay s (s.handFrame l b []) := by
  have other : ∀ {u : State}, u.loader = s.loader → u.isOwn l = false := fun e => by
    unfold State.isOwn at own ⊢; rwa [e]
  unfold State.handFrame
  refine ifRole (ifRole (ifRole (ifRole (ifRole (ifRole (ifRole (ifRole (refl s) _ fun u e => ?_) _
    fun u e => ?_) _ fun u e => ?_) _ fun u e => ?_) _ fun u e => ?_) _ fun u e => ?_) _ fun u e => ?_) _ fun u e => ?_
  · exact of_only ((Only.refl blockStart u).startTake l b)
  · simp only [List.foldl_nil, State.edgeFrame, other e]; exact refl u
  · cases b <;> simp [Body.hdr?] at hd <;> simp only [List.foldl_nil, State.windFrame, other e] <;> exact refl u
  · simp only [List.foldl_nil, State.spanFrame, other e]; exact refl u
  · cases b <;> simp [Body.hdr?] at hd <;> simp only [List.foldl_nil, State.landingFrame, other e] <;> exact refl u
  · cases b with
    | event n m r => exact absurd rfl (ev n m r)
    | _ => simp [Body.hdr?] at hd <;> simp only [List.foldl_nil, State.scoringFrame, other e] <;> exact refl u
  · exact of_only ((Only.refl blockStandings u).standingsTake l b [])
  · exact of_only ((Only.refl blockBoard u).boardTake _ l b [])

/-- A frame of another station without an attempt header, EVENT apart, leaves the attempts alone; so does one that does
not pass the filter, and any at a station that is not in RUN (R5, R26). -/
theorem deliver {s : State} {l : LineHdr} {b : Body} (own : s.isOwn l = false)
    (h : s.loader.state.base ≠ .run ∨ s.passesFilter l b = false ∨
      (b.hdr? = none ∧ ∀ n m r, b ≠ .event n m r)) : AttemptsStay s (s.deliver l b) := by
  have k := rosterTake s l b
  by_cases p : s.loader.state.base ≠ .run ∨ s.passesFilter l b = false
  · rw [State.deliver_filtered p]; exact k
  · obtain ⟨hd, ev⟩ := (or_assoc.2 h).resolve_left p
    rw [not_or, not_not, Bool.not_eq_false] at p
    rw [State.deliver_passed p.1 p.2]
    have kl : AttemptsStay s ((s.rosterTake l b).lineTake l b) := by
      refine k.trans ?_
      unfold State.lineTake
      split
      · exact ⟨rfl, rfl, rfl, rfl, rfl, rfl, rfl⟩
      · split <;> exact ⟨rfl, rfl, rfl, rfl, rfl, rfl, rfl⟩
      · exact refl _
    have tr : ((s.rosterTake l b).lineTake l b).track l b = ((s.rosterTake l b).lineTake l b, []) := by
      cases b with
      | event n m r => exact absurd rfl (ev n m r)
      | _ => simp [Body.hdr?] at hd <;> rfl
    rw [tr]
    refine kl.trans (handFrame ?_ hd ev)
    unfold State.isOwn at own ⊢
    rwa [kl.loader]

end AttemptsStay

/-! ## The standings and the board at a frame that does not pass the filter -/

/-- The roster's readers are the sequencer and the scoring unit. -/
theorem State.rosterReaders_leaves (s : State) :
    s.rosterReaders.standings = s.standings ∧ s.rosterReaders.board = s.board := by
  have k : ∀ t : State, (t.ifRole (·.start) (·.evalRosterHolds)).standings = t.standings ∧
      (t.ifRole (·.start) (·.evalRosterHolds)).board = t.board := fun t => by
    have h := (Only.refl blockStart t).evalRosterHolds.same
    unfold State.ifRole
    split
    · exact ⟨(congrArg State.standings h :), (congrArg State.board h :)⟩
    · exact ⟨rfl, rfl⟩
  obtain ⟨k1, k2⟩ := k s
  have h := ((OnlyScoring.refl (s.ifRole (·.start) (·.evalRosterHolds))).gatherAll).same
  unfold State.rosterReaders
  rw [← k1, ← k2]
  generalize s.ifRole (·.start) (·.evalRosterHolds) = t at h
  unfold State.ifRole
  split
  · exact ⟨(congrArg State.standings h :), (congrArg State.board h :)⟩
  · exact ⟨rfl, rfl⟩

/-- At a START station the roster's readers evaluate STATION and CONFIG, and no other reader touches the sequencer. -/
theorem State.rosterReaders_start {s : State} (r : s.loader.roles.start = true) :
    s.rosterReaders.start = s.evalRosterHolds.start := by
  have e : s.ifRole (·.start) (·.evalRosterHolds) = s.evalRosterHolds := if_pos r
  have g := ((OnlyScoring.refl s.evalRosterHolds).gatherAll).same
  unfold State.rosterReaders
  rw [e]
  unfold State.ifRole
  split
  · exact (congrArg State.start g :)
  · rfl

/-- The roster's part of a delivery leaves the event number, the standings and the board. -/
theorem State.rosterTake_leaves (s : State) (l : LineHdr) (b : Body) :
    (s.rosterTake l b).line.eventNumber = s.line.eventNumber ∧ (s.rosterTake l b).standings = s.standings ∧
      (s.rosterTake l b).board = s.board := by
  obtain ⟨u, o, e⟩ := s.rosterTake_form l b
  have us : u.standings = s.standings := (congrArg State.standings o.same :)
  have ub : u.board = s.board := (congrArg State.board o.same :)
  refine ⟨(KeepsEvent.rosterTake s l b).event, ?_⟩
  rw [e]
  split
  · exact ⟨u.rosterReaders_leaves.1.trans us, u.rosterReaders_leaves.2.trans ub⟩
  · exact ⟨us, ub⟩

/-! ## STATION and CONFIG after a delivery (R28, R71) -/

/-- A frame that the roster hands to its readers has STATION and CONFIG evaluated: what the later stages of the delivery
change is neither (R28, R71). -/
theorem State.deliver_rosterHolds {s : State} {l : LineHdr} {b : Body} (r : s.loader.roles.start = true)
    (h : (s.rosterAt l.sender).presence ≠ .present ∨
      announced (s.rosterAt l.sender).status ≠ announced ((s.rosterAt l.sender).hear l b).status) :
    s.RosterHoldsFollow (s.deliver l b) := by
  obtain ⟨u, o, e⟩ := s.rosterTake_form l b
  rw [if_pos h] at e
  have ul : u.loader = s.loader := (congrArg State.loader o.same :)
  have us : u.start = s.start := (congrArg State.start o.same :)
  have uc : u.clock = s.clock := (congrArg State.clock o.same :)
  have ur : u.roster = s.roster.set l.sender ((s.rosterAt l.sender).hear l b) := (congrArg State.roster o.same :)
  have start : (s.rosterTake l b).start = u.evalRosterHolds.start := by
    rw [e, State.rosterReaders_start (by rw [ul]; exact r)]
  have stay : (s.deliver l b).start.rosterHolds = u.evalRosterHolds.start.rosterHolds :=
    start ▸ RosterHoldsStay.deliver s l b
  have of : ∀ (st : StartState) (c : HoldCause), c = .station ∨ c = .config →
      st.holds.filter (fun x => x.cause = c) = st.rosterHolds.filter (fun x => x.cause = c) := fun st c hc => by
    unfold StartState.rosterHolds
    rw [List.filter_filter]
    refine List.filter_congr fun x _ => ?_
    by_cases e : x.cause = c <;> simp [e, hc]
  obtain ⟨es, ec⟩ := u.evalRosterHolds_entries
  refine .of_entries us uc ?_ ?_ ?_ ?_
  · rw [State.deliver_roster, ur]
  · exact ((congrArg State.loader (s.deliver_only l b).same :).trans ul.symm : _)
  · rw [of _ _ (.inl rfl), stay, ← of _ _ (.inl rfl), es]
  · rw [of _ _ (.inr rfl), stay, ← of _ _ (.inr rfl), ec]

/-- At event number 0 a frame is a STATUS or an EVENT, or it is filtered (R5, R57). -/
theorem State.passesFilter_zero {s : State} {l : LineHdr} {b : Body} (z : s.line.eventNumber = 0)
    (ev : ∀ n m r, b ≠ .event n m r) : s.passesFilter l b = false ∨ ∃ p, b = .status p := by
  cases b with
  | status p => exact .inr ⟨p, rfl⟩
  | event n m r => exact absurd rfl (ev n m r)
  | _ => exact .inl (by simp [State.passesFilter, z])

/-- Settles O14: the roster (`State.deliver_rosterAt`), the roles (`RoleKeeps.deliver`), the attempts
(`AttemptsStay.deliver`), STATION and CONFIG (`State.deliver_rosterHolds`), and the filter (`State.deliver_filtered`). -/
theorem heardFrameRefreshesTheRoster : Obligations.HeardFrameRefreshesTheRoster := by
  intro s l b h sound
  obtain ⟨u, hu⟩ : ∃ u : State, u = { s with line := { s.line.heard b with yieldMark := false } } := ⟨_, rfl⟩
  have i : l.sender < 16 := LineHdr.sender_lt h.line
  have own : u.isOwn l = false := by rw [hu]; simp [State.isOwn, h.other]
  have entry := fun n => State.deliver_rosterAt (s := u) (by rw [hu]; exact sound) l b n i
  have only := (u.deliver_only l b).same
  have roles := RoleKeeps.deliver u l b
  have holds := State.deliver_rosterHolds (s := u) (l := l) (b := b)
  have zero : u.line.eventNumber = 0 → (∀ n m r, b ≠ .event n m r) →
      u.passesFilter l b = false ∨ ∃ p, b = .status p := State.passesFilter_zero
  have attempts := fun p => AttemptsStay.deliver (b := b) own p
  have leaves := fun (p : u.loader.state.base ≠ .run ∨ u.passesFilter l b = false) =>
    State.deliver_filtered p ▸ u.rosterTake_leaves l b
  rw [exec_frameCommand, h.receive, ← hu]
  subst hu
  refine ⟨_, rfl, ?_, fun n ne => ?_, (congrArg (fun t => t.line.yieldMark) only :),
    ((congrArg (fun t => t.line.tx) only :).trans h.silent : _), (congrArg (fun t => t.line.quietUs) only :),
    roles.loader, (congrArg State.clock only :), (congrArg State.judge only :), roles.start, roles.edge, roles.wind,
    roles.span, fun r => ⟨roles.contexts r, roles.scoring r⟩, roles.standings, roles.board, fun r p => holds r (.inl p),
    fun p => ?_, fun p => leaves ?_⟩
  · rw [entry, if_pos rfl]; rfl
  · rw [entry, if_neg ne]; rfl
  · have k := attempts (by
      rcases p with p | p | p | ⟨z, ev⟩
      · exact .inl p
      · exact .inr (.inl p)
      · exact .inr (.inr p)
      · rcases zero z ev with f | ⟨q, rfl⟩
        · exact .inr (.inl f)
        · exact .inr (.inr ⟨rfl, ev⟩))
    exact ⟨k.table, k.edge, k.wind, k.span, k.contexts, k.scoring⟩
  · rcases p with p | p | ⟨z, st, ev⟩
    · exact .inl p
    · exact .inr p
    · exact .inr ((zero z ev).resolve_right fun ⟨q, e⟩ => st q e)

end Sys2Proof.Machine
end

section
/-! A delivered EVENT (R6, R54, R68, R151, R161). -/

namespace Sys2Proof.Machine

open Sys2Proof

/-! ## The sequencer at an EVENT (R54, R68) -/

/-- At rest a count changes the count, the hold list and the notices: no start opens or closes. -/
theorem State.recountBacklog_atRest {s : State} (i : s.start.atRest = true) :
    ∃ backlog holds settleAt notices overrun, s.recountBacklog = { s with
      start := { s.start with backlog := backlog, holds := holds, settleAt := settleAt }
      console := { s.console with notices := notices, overrun := overrun } } := by
  unfold State.recountBacklog
  split
  · have k := (HoldListOnly.refl (s.modStart (fun st => { st with backlog := s.countBacklog }))).evalBacklog i
    obtain ⟨holds, settleAt, notices, overrun, e⟩ := k.explicit
    exact ⟨_, holds, settleAt, notices, overrun, e⟩
  · exact ⟨_, _, _, _, _, rfl⟩

/-- At an EVENT the cycle ends and no frame goes out. -/
theorem State.startFrame_event (s : State) (l : LineHdr) (n : Nat) (m : EventMode) (rounds : Nat) :
    ∃ start notices overrun, s.startFrame l (.event n m rounds) = { s with
      start := start, console := { s.console with notices := notices, overrun := overrun } } ∧
    start.phase = .idle ∧ start.keptVoid = none ∧
    ((s.start.phase = .idle → s.start.current = none) → start.current = none) := by
  show ∃ start notices overrun, (if s.start.phase = .idle then s else s.endCycle).modStart
    (fun st => { st with keptVoid := none }) = _ ∧ _
  split
  · rename_i p
    exact ⟨_, _, _, rfl, p, rfl, fun h => h p⟩
  · have k : HoldListOnly (s.modStart (·.atIdle)) s.endCycle :=
      (HoldListOnly.refl (s.modStart (·.atIdle))).releaseHold rfl .coach
    obtain ⟨holds, settleAt, notices, overrun, e⟩ := k.explicit
    rw [e]
    exact ⟨_, notices, overrun, rfl, rfl, rfl, fun _ => rfl⟩

/-- The cycle ends before the emptied table is counted (R54, R55). -/
theorem State.startTake_event (s : State) (l : LineHdr) (n : Nat) (m : EventMode) (rounds : Nat) :
    ∃ start notices overrun, s.startTake l (.event n m rounds) = { s with
      start := start, console := { s.console with notices := notices, overrun := overrun } } ∧
    start.phase = .idle ∧ start.keptVoid = none ∧
    ((s.start.phase = .idle → s.start.current = none) → start.current = none) := by
  obtain ⟨start, a, b, e, i, v, c⟩ := s.startFrame_event l n m rounds
  show ∃ start notices overrun, (s.startFrame l (.event n m rounds)).recountBacklog = _ ∧ _
  rw [e]
  obtain ⟨backlog, holds, settleAt, notices, overrun, f⟩ := State.recountBacklog_atRest (s := { s with
      start := start, console := { s.console with notices := a, overrun := b } }) (by simp [StartState.atRest, i])
  exact ⟨_, notices, overrun, f, i, v, c⟩

/-! ## The standings at an EVENT (R161, R163) -/

/-- A close of a round leaves the results list and the kept EVENT. -/
theorem State.closeNow_leaves (s : State) : s.closeNow.standings.results = s.standings.results ∧
    s.closeNow.standings.eventCopy = s.standings.eventCopy := by
  unfold State.closeNow
  dsimp only
  split <;> simp [State.openNext, State.offerRound]

/-- The standings after an EVENT: round 1 begins where the station is the jury of its own EVENT or a board without
JURY (R161). -/
def State.eventStandings (s : State) (l : LineHdr) (rounds : Nat) : StandingsState :=
  if s.loader.roles.jury then
    if s.isOwn l then { s.standings with
      results := [], roundsPlanned := some rounds, round := { number := 1, state := .opened, refGate := none }
      eventCopy := none, roundCopies := [], startList := [] }
    else s.standings
  else { s.standings with
    results := [], roundsPlanned := some rounds, round := { number := 1, state := .opened, refGate := none } }

theorem State.standingsFrame_event (s : State) (l : LineHdr) (n : Nat) (m : EventMode) (rounds : Nat) :
    s.standingsFrame l (.event n m rounds) = { s with standings := s.eventStandings l rounds } := by
  show s.standingsEvent l rounds = _
  unfold State.standingsEvent State.eventStandings
  by_cases j : s.loader.roles.jury = true <;> by_cases o : s.isOwn l = true <;>
    simp [j, o, State.modStandings]

/-- Unless a CLOSING round of the jury is completed by another station's EVENT, an EVENT changes the standings alone. -/
theorem State.standingsTake_event {s : State} (l : LineHdr) (n : Nat) (m : EventMode) (rounds : Nat) (cs : List Change)
    (c : ¬(s.loader.roles.jury = true ∧ s.isOwn l = false ∧ s.standings.round.state = .closing)) :
    s.standingsTake l (.event n m rounds) cs = { s with standings := s.eventStandings l rounds } := by
  have closed : ({ s with standings := s.eventStandings l rounds } : State).testClosing =
      { s with standings := s.eventStandings l rounds } := by
    unfold State.testClosing State.eventStandings
    by_cases j : s.loader.roles.jury = true <;> by_cases o : s.isOwn l = true <;> simp_all
  unfold State.standingsTake
  rw [State.standingsFrame_event]
  dsimp only
  split
  · rfl
  · exact closed

/-- Another station's EVENT leaves the jury's results list and kept EVENT. -/
theorem State.standingsTake_event_other {s : State} {l : LineHdr} (j : s.loader.roles.jury = true)
    (o : s.isOwn l = false) (n : Nat) (m : EventMode) (rounds : Nat) (cs : List Change) :
    (s.standingsTake l (.event n m rounds) cs).standings.results = s.standings.results ∧
      (s.standingsTake l (.event n m rounds) cs).standings.eventCopy = s.standings.eventCopy := by
  have e : ({ s with standings := s.eventStandings l rounds } : State) = s := by simp [State.eventStandings, j, o]
  unfold State.standingsTake
  rw [State.standingsFrame_event, e]
  dsimp only
  split
  · exact ⟨rfl, rfl⟩
  · unfold State.testClosing
    split
    · exact s.closeNow_leaves
    · exact ⟨rfl, rfl⟩

/-! ## The board at an EVENT -/

namespace PagesOnly

variable {s t : State}

theorem boardListChange (h : PagesOnly s t) (before : StandingsState) : PagesOnly s (t.boardListChange before) := by
  unfold State.boardListChange State.recompose
  split
  · exact h
  · split
    · exact h
    · split
      · exact h.trans ⟨rfl, rfl⟩
      · exact h

theorem ifRole (h : PagesOnly s t) (role : RoleSet → Bool) {act : State → State} (k : ∀ u, PagesOnly u (act u)) :
    PagesOnly s (t.ifRole role act) := by
  unfold State.ifRole
  split
  · exact h.trans (k t)
  · exact h

/-- An EVENT with the removals that it makes changes the pages of the board alone. -/
theorem boardTake_event (s : State) (before : StandingsState) (l : LineHdr) (n : Nat) (m : EventMode) (rounds : Nat)
    (rs : List AttemptRecord) : PagesOnly s (s.boardTake before l (.event n m rounds) (rs.map .removed)) :=
  ((s.boardRemovals _ rs).boardListChange before).removePages _

end PagesOnly

/-! ## The blocks at an EVENT -/

/-- The blocks at an EVENT with its removals, up to the standings: no frame goes out. -/
theorem State.handFrame_event (s : State) (l : LineHdr) (n : Nat) (m : EventMode) (rounds : Nat)
    (rs : List AttemptRecord) : ∃ start edge wind span contexts scoring console,
      s.handFrame l (.event n m rounds) (rs.map .removed) =
        ((({ s with
          start := start, edge := edge, wind := wind, span := span, contexts := contexts, scoring := scoring
          console := console } : State).ifRole (fun r => r.jury || r.board)
            (fun s => s.standingsTake l (.event n m rounds) (rs.map .removed))).ifRole (·.board)
              (fun t => t.boardTake s.standings l (.event n m rounds) (rs.map .removed))) ∧
      (s.loader.roles.start = true → start.phase = .idle ∧ start.keptVoid = none ∧
        ((s.start.phase = .idle → s.start.current = none) → start.current = none)) ∧
      (s.loader.roles.jury = true → scoring.mode = some m ∧ scoring.lastMarked = ⟨none, none, none, none, none⟩) := by
  unfold State.handFrame
  extract_lets manual before s1 s2 s3 s4 s5 s6 s7
  obtain ⟨start, console, h1, facts⟩ : ∃ start console, s1 = { s with start := start, console := console } ∧
      (s.loader.roles.start = true → start.phase = .idle ∧ start.keptVoid = none ∧
        ((s.start.phase = .idle → s.start.current = none) → start.current = none)) := by
    unfold s1 State.ifRole
    split
    · obtain ⟨start, a, b, e, f⟩ := s.startTake_event l n m rounds
      exact ⟨start, _, e, fun _ => f⟩
    · rename_i r; exact ⟨_, _, rfl, fun k => absurd k r⟩
  have quiet : ∀ u : State, u.edgeFrame l (.event n m rounds) = u ∧ u.spanFrame l (.event n m rounds) = u := fun u => by
    unfold State.edgeFrame State.spanFrame
    exact ⟨ite_self _, ite_self _⟩
  obtain ⟨edge, h2⟩ : ∃ edge, s2 = { s1 with edge := edge } := by
    unfold s2 State.ifRole
    split
    · obtain ⟨edge, e, -⟩ := s1.edgeRemovals rs
      exact ⟨edge, (quiet _).1.trans e⟩
    · exact ⟨_, rfl⟩
  obtain ⟨wind, h3⟩ : ∃ wind, s3 = { s2 with wind := wind } := by
    unfold s3 State.ifRole
    split
    · obtain ⟨means, e⟩ := s2.windRemovals rs
      exact ⟨_, e⟩
    · exact ⟨_, rfl⟩
  obtain ⟨span, h4⟩ : ∃ span, s4 = { s3 with span := span } := by
    unfold s4 State.ifRole
    split
    · obtain ⟨flight, kept, e⟩ := s3.spanRemovals rs
      exact ⟨_, (quiet _).2.trans e⟩
    · exact ⟨_, rfl⟩
  obtain ⟨contexts, h5⟩ : ∃ contexts, s5 = { s4 with contexts := contexts } := by
    unfold s5 State.ifRole
    split
    · exact ⟨_, State.landingRemovals l rs s4⟩
    · exact ⟨_, rfl⟩
  obtain ⟨scoring, h6, mode⟩ : ∃ scoring, s6 = { s5 with scoring := scoring } ∧
      (s5.loader.roles.jury = true →
        scoring.mode = some m ∧ scoring.lastMarked = ⟨none, none, none, none, none⟩) := by
    unfold s6 State.ifRole
    split
    · obtain ⟨scoring, e⟩ := s5.scoringRemovals rs
      exact ⟨_, congrArg (fun u => u.scoringFrame l (.event n m rounds) manual) e, fun _ => ⟨rfl, rfl⟩⟩
    · rename_i r; exact ⟨_, rfl, fun k => absurd k r⟩
  rw [h5, h4, h3, h2, h1] at mode h6
  exact ⟨start, edge, wind, span, contexts, scoring, console, by unfold s7; rw [h6], facts, mode⟩

/-! ## The cycle through the roster's part -/

/-- A raise closes an open start, unless the cause stood (R64). -/
theorem State.raiseHold_phase (s : State) (c : HoldCause) (a b : Nat) : (s.raiseHold c a b).start.phase =
    if s.start.standing c = false ∧ (s.start.phase = .amber ∨ s.start.phase = .green) then .red
    else s.start.phase := by
  unfold State.raiseHold
  split
  · rename_i h; simp [h]
  · rename_i h
    have n : s.start.standing c = false := by simpa using h
    rw [State.closeStart_phase]
    exact if_congr (by simp [n]) rfl (by simp)

/-- A release that empties the list opens a start in RED with the GO mark set (R62). -/
theorem State.releaseHold_phase (s : State) (c : HoldCause) : (s.releaseHold c).start.phase =
    if s.start.standing c = true ∧ s.start.holds.filter (fun x => x.cause ≠ c) = [] ∧ s.start.phase = .red ∧
      s.start.goMark = true then .amber else s.start.phase := by
  have same : (s.removeHold c).start.phase = s.start.phase ∧ (s.removeHold c).start.goMark = s.start.goMark := by
    unfold State.removeHold
    split <;> simp
  unfold State.releaseHold
  split
  · rename_i h
    rw [State.openStart_phase, State.removeHold_holds, same.1, same.2]
    simp only [h, true_and]
  · rename_i h; simp [h]

/-- A cycle is under way after an evaluation of a cause where it was before, of the same attempt. -/
theorem State.holdWhile_cycle (s : State) (c : HoldCause) (why : Option (Nat × Nat)) :
    ((s.holdWhile c why).start.phase = .idle ↔ s.start.phase = .idle) ∧
      (s.holdWhile c why).start.current = s.start.current := by
  refine ⟨?_, (congrArg StartState.current (s.holdWhile_besides c why) :)⟩
  unfold State.holdWhile
  split
  · rw [State.raiseHold_phase]
    split
    · rename_i h; rcases h.2 with p | p <;> simp [p]
    · rfl
  · rw [State.releaseHold_phase]
    split
    · rename_i h; simp [h.2.2.1]
    · rfl

/-- At a station without START the roster's readers leave the sequencer. -/
theorem State.rosterReaders_start_not {s : State} (r : ¬s.loader.roles.start = true) :
    s.rosterReaders.start = s.start := by
  have e : s.ifRole (·.start) (·.evalRosterHolds) = s := if_neg r
  have g := ((OnlyScoring.refl s).gatherAll).same
  unfold State.rosterReaders
  rw [e]
  unfold State.ifRole
  split
  · exact (congrArg State.start g :)
  · rfl

/-- The roster's part of a delivery begins and ends no cycle. -/
theorem State.rosterTake_cycle (s : State) (l : LineHdr) (b : Body) :
    ((s.rosterTake l b).start.phase = .idle ↔ s.start.phase = .idle) ∧
      (s.rosterTake l b).start.current = s.start.current := by
  obtain ⟨u, o, e⟩ := s.rosterTake_form l b
  have us : u.start = s.start := (congrArg State.start o.same :)
  rw [e, ← us]
  split
  · by_cases r : u.loader.roles.start = true
    · rw [State.rosterReaders_start r]
      obtain ⟨p1, c1⟩ := u.holdWhile_cycle .station u.stationCause
      obtain ⟨p2, c2⟩ := (u.holdWhile .station u.stationCause).holdWhile_cycle .config
        (u.holdWhile .station u.stationCause).configCause
      exact ⟨p2.trans p1, c2.trans c1⟩
    · rw [State.rosterReaders_start_not r]
      exact ⟨Iff.rfl, rfl⟩
  · exact ⟨Iff.rfl, rfl⟩

/-! ## O17 -/

/-- A frame that is delivered finds the station in RUN, or MUTED from RUN. -/
theorem State.Delivers.base {s : State} {l : LineHdr} {b : Body} (h : s.Delivers l b) : s.loader.state.base = .run := by
  rcases h with h | h <;> rcases h.active with e | e <;> rw [e] <;> rfl

/-- After the line interface has taken an EVENT, STATUS frames alone wait. -/
theorem State.lineTake_event (s : State) (l : LineHdr) (n : Nat) (m : EventMode) (rounds : Nat) :
    ∀ f ∈ (s.lineTake l (.event n m rounds)).line.urgent ++ (s.lineTake l (.event n m rounds)).line.routine,
      f.body.kind = 0x01 := by
  intro f mem
  simp only [State.lineTake, LineState.takeEvent, List.mem_append, List.mem_filter] at mem
  rcases mem with ⟨-, h⟩ | ⟨-, h⟩ <;> simpa [QueuedFrame.isStatus] using h

/-- Settles O17: the queues are emptied by the line interface (`State.lineTake_event`), and nothing is offered by the
blocks (`State.handFrame_event`, `State.standingsTake_event`). -/
theorem eventFrameBeginsAnEvent : Obligations.EventFrameBeginsAnEvent := by
  intro s l n m rounds h
  obtain ⟨line, run⟩ := h.exec
  refine ⟨_, run, ?_⟩
  obtain ⟨u, hu⟩ : ∃ u : State, u = { s with line := line } := ⟨_, rfl⟩
  rw [← hu]
  have base : u.loader.state.base = .run := by rw [hu]; exact h.base
  obtain ⟨rostered, hr⟩ : ∃ v, v = u.rosterTake l (.event n m rounds) := ⟨_, rfl⟩
  obtain ⟨v, hv⟩ : ∃ v : State, v = { rostered.lineTake l (.event n m rounds) with table := [] } := ⟨_, rfl⟩
  have t_eq : u.deliver l (.event n m rounds) =
      v.handFrame l (.event n m rounds) (rostered.table.map .removed) := by
    rw [State.deliver_passed base rfl, hv, hr]; rfl
  have vl : v.loader = s.loader := by
    rw [hv, hr]
    exact (congrArg State.loader (OnlyDelivery.rosterTake (.refl blockDelivery u) l (.event n m rounds)).same :).trans
      (hu ▸ rfl)
  have vst : v.standings = s.standings := by
    rw [hv, hr]
    exact (u.rosterTake_leaves l (.event n m rounds)).2.1.trans (hu ▸ rfl)
  obtain ⟨start, edge, wind, span, contexts, scoring, console, form, startFacts, modeFacts⟩ :=
    v.handFrame_event l n m rounds rostered.table
  generalize hw : ({ v with
    start := start, edge := edge, wind := wind, span := span, contexts := contexts, scoring := scoring
    console := console } : State) = w at form
  generalize hp : w.ifRole (fun r => r.jury || r.board)
    (fun s => s.standingsTake l (.event n m rounds) (rostered.table.map .removed)) = p at form
  have pages : PagesOnly p (u.deliver l (.event n m rounds)) := by
    rw [t_eq, form]
    exact (PagesOnly.refl p).ifRole _ fun q => .boardTake_event q _ l n m rounds _
  have wl : w.loader = s.loader := hw ▸ vl
  have wst : w.standings = s.standings := hw ▸ vst
  have own : w.isOwn l = (l.sender == s.loader.station) := by unfold State.isOwn; rw [wl]
  have only : OnlyStandings w p := by
    rw [← hp]
    unfold State.ifRole
    split
    · exact (Only.refl blockStandings w).standingsTake l _ _
    · exact .refl blockStandings w
  have quiet : ¬(s.loader.roles.jury = true ∧ l.sender ≠ s.loader.station ∧ s.standings.round.state = .closing) →
      p = if (s.loader.roles.jury || s.loader.roles.board) = true then
        { w with standings := w.eventStandings l rounds } else w := fun c => by
    rw [← hp, State.ifRole]
    by_cases r : (s.loader.roles.jury || s.loader.roles.board) = true
    · rw [if_pos r, if_pos (by rw [wl]; exact r)]
      exact State.standingsTake_event l n m rounds _ (by rw [wl, wst, own]; simpa using c)
    · rw [if_neg r, if_neg (by rw [wl]; exact r)]
  have other : s.loader.roles.jury = true → l.sender ≠ s.loader.station →
      p.standings.results = s.standings.results ∧ p.standings.eventCopy = s.standings.eventCopy := fun j o => by
    rw [← hp, State.ifRole, if_pos (by rw [wl, j]; rfl), ← wst]
    exact State.standingsTake_event_other (by rw [wl, j]) (by rw [own]; simpa using o) n m rounds _
  have table : (u.deliver l (.event n m rounds)).table = [] := by
    have k := (v.handFrame_only l (.event n m rounds) (rostered.table.map .removed)).bare
    rw [← t_eq, hv] at k
    simpa using k
  have number : (u.deliver l (.event n m rounds)).line.eventNumber = n := by
    rw [State.deliver_eventNumber, if_pos ⟨base, rfl⟩]; rfl
  have ps : p.start = start := (congrArg State.start only.same :).trans (hw ▸ rfl)
  have pc : p.scoring = scoring := (congrArg State.scoring only.same :).trans (hw ▸ rfl)
  have mode := modeFacts
  rw [vl] at startFacts mode
  have event : ∀ o : (s.loader.roles.jury = true ∧ l.sender = s.loader.station) ∨
      (s.loader.roles.jury = false ∧ s.loader.roles.board = true), p.standings = w.eventStandings l rounds := fun o => by
    rw [quiet (by rcases o with ⟨-, o⟩ | ⟨j, -⟩ <;> simp_all), if_pos (by rcases o with ⟨j, -⟩ | ⟨-, b⟩ <;> simp_all)]
  rw [pages.form] at table number ⊢
  refine ⟨number, table, fun c => ?_, fun r cs => ?_, fun o => ?_, fun j => ⟨?_, ?_, fun o => ?_, fun o => ⟨?_, ?_, ?_⟩⟩⟩
  · have e : p.line = v.line := by
      rw [quiet c, ← hw]
      split <;> rfl
    show ∀ f ∈ p.line.urgent ++ p.line.routine, _
    rw [e, hv]
    exact rostered.lineTake_event l n m rounds
  · obtain ⟨phase, void, current⟩ := startFacts r
    obtain ⟨c1, c2⟩ := u.rosterTake_cycle l (.event n m rounds)
    have sound : v.start.phase = .idle → v.start.current = none := by
      rw [hv, hr]
      intro i
      exact c2.trans (hu ▸ cs.1 (by have := c1.1 i; rwa [hu] at this))
    show p.start.phase = _ ∧ p.start.current = _ ∧ p.start.keptVoid = _
    rw [ps]
    exact ⟨phase, current sound, void⟩
  · show p.standings.results = _ ∧ p.standings.roundsPlanned = _ ∧ p.standings.round = _
    rw [event o, State.eventStandings, wl, own]
    rcases o with ⟨j, o⟩ | ⟨j, -⟩
    · simp [j, o]
    · simp [j]
  · exact (congrArg ScoringState.mode pc).trans (mode j).1
  · exact (congrArg ScoringState.lastMarked pc).trans (mode j).2
  · show p.standings.startList = _ ∧ p.standings.eventCopy = _ ∧ p.standings.roundCopies = _ ∧
      p.standings.lastAttempt = _
    rw [event (.inl ⟨j, o⟩), State.eventStandings, wl, own, wst]
    simp [j, o]
  · exact (other j o).2
  · exact (other j o).1
  · intro c
    show p.standings = _
    rw [quiet (by simp [c]), if_pos (by simp [j])]
    show w.eventStandings l rounds = _
    rw [State.eventStandings, wl, own, wst]
    simp [j, o]

end Sys2Proof.Machine
end

section
/-! A delivered STATUS (R6, R28, R30, R62, R71, R176). -/

namespace Sys2Proof.Machine

open Sys2Proof

/-! ## The blocks, one after another -/

theorem Only.ifRole {R : State → State → State} {s : State} (b : BlockRestore R) (role : RoleSet → Bool)
    {act : State → State} (k : role s.loader.roles = true → Only R s (act s)) : Only R s (s.ifRole role act) := by
  unfold State.ifRole
  split
  · rename_i r; exact k r
  · exact .refl b s

/-- A frame handed to the blocks, stage by stage: each block acts on what the one before has left, and changes its own
state and its outbox alone. -/
theorem State.handFrame_stages (s : State) (l : LineHdr) (b : Body) (cs : List Change) : ∃ s1 s2 s3 s4 s5 s6 s7,
    (s1 = s.ifRole (·.start) (·.startTake l b) ∧ OnlyStart s s1) ∧
    (s2 = s1.ifRole (·.edge) (fun u => (cs.foldl State.edgeChange u).edgeFrame l b) ∧ OnlyEdge s1 s2) ∧
    (s3 = s2.ifRole (·.mast) (fun u => (cs.foldl State.windChange u).windFrame l b) ∧ OnlyWind s2 s3) ∧
    (s4 = s3.ifRole (·.span) (fun u => (cs.foldl State.spanChange u).spanFrame l b) ∧ OnlySpan s3 s4) ∧
    (s5 = s4.ifRole (·.jury) (fun u => (cs.foldl (fun u c => u.landingChange l c) u).landingFrame l b) ∧
      OnlyLanding s4 s5) ∧
    (s6 = s5.ifRole (·.jury) (fun u => (cs.foldl State.scoringChange u).scoringFrame l b (s.handedManual l b)) ∧
      OnlyScoring s5 s6) ∧
    (s7 = s6.ifRole (fun r => r.jury || r.board) (fun u => u.standingsTake l b cs) ∧ OnlyStandings s6 s7) ∧
    s.handFrame l b cs = s7.ifRole (·.board) (fun u => u.boardTake s.standings l b cs) ∧
      OnlyBoard s7 (s.handFrame l b cs) := by
  unfold State.handFrame
  extract_lets manual before s1 s2 s3 s4 s5 s6 s7
  refine ⟨s1, s2, s3, s4, s5, s6, s7, ⟨rfl, Only.ifRole blockStart _ fun _ => ?_⟩,
    ⟨rfl, Only.ifRole blockEdge _ fun _ => ?_⟩, ⟨rfl, Only.ifRole blockWind _ fun _ => ?_⟩,
    ⟨rfl, Only.ifRole blockSpan _ fun _ => ?_⟩, ⟨rfl, Only.ifRole blockLanding _ fun _ => ?_⟩, ⟨rfl, ?_⟩,
    ⟨rfl, Only.ifRole blockStandings _ fun _ => ?_⟩, rfl, Only.ifRole blockBoard _ fun _ => ?_⟩
  · exact (Only.refl blockStart s).startTake l b
  · exact (Only.foldl (fun h _ => h.edgeChange _) cs (.refl blockEdge s1)).edgeFrame l b
  · exact (Only.foldl (fun h _ => h.windChange _) cs (.refl blockWind s2)).windFrame l b
  · exact (Only.foldl (fun h _ => h.spanChange _) cs (.refl blockSpan s3)).spanFrame l b
  · exact (Only.foldl (f := fun s c => s.landingChange l c) (fun h _ => h.landingChange _ _) cs
      (.refl blockLanding s4)).landingFrame l b
  · unfold s6 State.ifRole
    split
    · exact (OnlyScoring.foldl (fun h _ => h.scoringChange _) cs (.refl s5)).scoringFrame l b _
    · exact .refl s5
  · exact (Only.refl blockStandings s6).standingsTake l b cs
  · exact (Only.refl blockBoard s7).boardTake _ l b cs

/-- The sequencer after a frame is what its own stage leaves. -/
theorem State.handFrame_start (s : State) (l : LineHdr) (b : Body) (cs : List Change) :
    (s.handFrame l b cs).start = (s.ifRole (·.start) (·.startTake l b)).start := by
  obtain ⟨s1, s2, s3, s4, s5, s6, s7, ⟨h1, -⟩, ⟨-, h2⟩, ⟨-, h3⟩, ⟨-, h4⟩, ⟨-, h5⟩, ⟨-, h6⟩, ⟨-, h7⟩, -, h8⟩ :=
    s.handFrame_stages l b cs
  rw [← h1]
  calc (s.handFrame l b cs).start = s7.start := (congrArg State.start h8.same :)
    _ = s6.start := (congrArg State.start h7.same :)
    _ = s5.start := (congrArg State.start h6.same :)
    _ = s4.start := (congrArg State.start h5.same :)
    _ = s3.start := (congrArg State.start h4.same :)
    _ = s2.start := (congrArg State.start h3.same :)
    _ = s1.start := (congrArg State.start h2.same :)

/-! ## The start while causes come and go (R59, R62, R64) -/

/-- The start is open only while no cause stands. -/
def StartState.OpenSound (st : StartState) : Prop := st.phase = .amber ∨ st.phase = .green → st.holds = []

/-- In RED with the GO mark set and causes standing, or in AMBER once the last has gone. -/
def StartState.Waits (st : StartState) : Prop :=
  st.goMark = true ∧ ((st.phase = .red ∧ st.holds ≠ []) ∨ (st.phase = .amber ∧ st.holds = []))

/-- Raising a cause leaves a list that is not empty. -/
theorem State.raiseHold_ne_nil (s : State) (c : HoldCause) (a b : Nat) : (s.raiseHold c a b).start.holds ≠ [] := by
  obtain ⟨x, m, -⟩ := (StartState.standing_iff _ c).1 (s.raiseHold_standing c a b)
  exact List.ne_nil_of_mem m

theorem State.raiseHold_goMark (s : State) (c : HoldCause) (a b : Nat) :
    (s.raiseHold c a b).start.goMark = s.start.goMark :=
  (congrArg StartState.goMark (s.raiseHold_besides c a b) :)

theorem State.releaseHold_goMark (s : State) (c : HoldCause) : (s.releaseHold c).start.goMark = s.start.goMark :=
  (congrArg StartState.goMark (s.releaseHold_besides c) :)

/-- A cause that stands is in the list. -/
theorem StartState.holds_ne_nil {st : StartState} {c : HoldCause} (h : st.standing c = true) : st.holds ≠ [] := by
  obtain ⟨x, m, -⟩ := (st.standing_iff c).1 h
  exact List.ne_nil_of_mem m

/-- An evaluation of a cause keeps the start closed while a cause stands. -/
theorem State.holdWhile_openSound {s : State} (h : s.start.OpenSound) (c : HoldCause) (why : Option (Nat × Nat)) :
    (s.holdWhile c why).start.OpenSound := by
  unfold State.holdWhile
  split
  · intro p
    rw [State.raiseHold_phase] at p
    split at p
    · simp at p
    · rename_i n
      have st : s.start.standing c = true := by
        cases e : s.start.standing c
        · exact absurd ⟨e, p⟩ n
        · rfl
      exact absurd (h p) (StartState.holds_ne_nil st)
  · intro p
    rw [State.releaseHold_phase] at p
    rw [State.releaseHold_holds]
    split at p
    · rename_i n; exact n.2.1
    · rw [h p]; rfl

/-- An evaluation of a cause opens the start when it empties the list (R62). -/
theorem State.holdWhile_waits {s : State} (h : s.start.Waits) (c : HoldCause) (why : Option (Nat × Nat)) :
    (s.holdWhile c why).start.Waits := by
  obtain ⟨go, p⟩ := h
  unfold State.holdWhile
  split
  · rename_i a b
    refine ⟨(s.raiseHold_goMark c _ _).trans go, .inl ⟨?_, s.raiseHold_ne_nil c _ _⟩⟩
    rw [State.raiseHold_phase]
    rcases p with ⟨p, -⟩ | ⟨p, n⟩
    · simp [p]
    · simp [p, StartState.standing, n]
  · refine ⟨(s.releaseHold_goMark c).trans go, ?_⟩
    rw [State.releaseHold_phase, State.releaseHold_holds, go]
    rcases p with ⟨p, ne⟩ | ⟨p, n⟩
    · by_cases e : s.start.holds.filter (fun x => x.cause ≠ c) = []
      · have st : s.start.standing c = true := by
          cases e' : s.start.standing c
          · have f : s.start.holds.filter (fun x => x.cause ≠ c) = s.start.holds :=
              List.filter_eq_self.2 fun x m => by simpa using (s.start.not_standing_iff c).1 e' x m
            exact absurd (f.symm.trans e) ne
          · rfl
        rw [if_pos ⟨st, e, p, rfl⟩]
        exact .inr ⟨rfl, e⟩
      · rw [if_neg (fun k => e k.2.1)]
        exact .inl ⟨p, e⟩
    · rw [if_neg (by simp [p])]
      exact .inr ⟨p, by rw [n]; rfl⟩

/-- The copies offered again leave the sequencer. -/
theorem State.startFrame_status (s : State) (l : LineHdr) (p : StatusPayload) :
    (s.startFrame l (.status p)).start = s.start := by
  have again : ∀ (u : State) k, (u.reoffer k).start = u.start := fun u k => by
    unfold State.reoffer; split <;> simp
  show (if s.isOwn l then s.startOwnStatus else s).start = s.start
  split
  · unfold State.startOwnStatus State.reofferPhase
    dsimp only
    rw [again]
    split
    · rw [State.offer_start, again]
    · rw [again, again]
  · rfl

/-- What an evaluation of STATION, of CONFIG, and of BACKLOG at a new count keeps, a delivered STATUS keeps. -/
theorem State.deliver_status_start {P : StartState → Prop} {s : State} (h : P s.start)
    (eval : ∀ (u : State) c why, P u.start → P (u.holdWhile c why).start)
    (count : ∀ (st : StartState) n, P st → P { st with backlog := n }) (l : LineHdr) (p : StatusPayload) :
    P (s.deliver l (.status p)).start := by
  have roster : P (s.rosterTake l (.status p)).start := by
    obtain ⟨u, o, e⟩ := s.rosterTake_form l (.status p)
    have us : u.start = s.start := (congrArg State.start o.same :)
    rw [e]
    split
    · by_cases r : u.loader.roles.start = true
      · rw [State.rosterReaders_start r]
        exact eval _ _ _ (eval _ _ _ (us ▸ h))
      · rw [State.rosterReaders_start_not r, us]; exact h
    · rw [us]; exact h
  by_cases b : s.loader.state.base = .run
  · rw [State.deliver_passed b rfl, State.handFrame_start]
    generalize hv : (s.rosterTake l (.status p)).lineTake l (.status p) = v
    have vs : v.start = (s.rosterTake l (.status p)).start := by
      rw [← hv]
      simp only [State.lineTake]
      split <;> rfl
    show P (v.ifRole _ _).start
    have counted : P v.recountBacklog.start := by
      unfold State.recountBacklog
      split
      · exact eval _ _ _ (count _ _ (vs ▸ roster))
      · rw [vs]; exact roster
    unfold State.ifRole
    split
    · show P (v.recountBacklog.startFrame l (.status p)).start
      rw [State.startFrame_status]
      exact counted
    · rw [vs]; exact roster
  · rw [State.deliver_filtered (.inl b)]; exact roster

/-! ## The board at a STATUS of the start station (R176) -/

/-- The board shows other pages: nothing is offered, and what it knows of the start stays. -/
structure ShowsOnly (s t : State) : Prop where
  line : t.line = s.line
  holds : t.board.knownHolds = s.board.knownHolds
  attempt : t.board.knownAttempt = s.board.knownAttempt

namespace ShowsOnly

variable {s t u : State}

theorem refl (s : State) : ShowsOnly s s := ⟨rfl, rfl, rfl⟩

theorem trans (h : ShowsOnly s t) (k : ShowsOnly t u) : ShowsOnly s u :=
  ⟨k.line.trans h.line, k.holds.trans h.holds, k.attempt.trans h.attempt⟩

theorem raise (h : ShowsOnly s t) (n : NoticeBody) : ShowsOnly s (t.raise n) := h.trans ⟨by simp, by simp, by simp⟩

theorem raiseDropped (h : ShowsOnly s t) (p : Page) : ShowsOnly s (t.raiseDropped p) := h.raise _

theorem modBoard (h : ShowsOnly s t) {f : BoardState → BoardState} (k : (f t.board).knownHolds = t.board.knownHolds)
    (a : (f t.board).knownAttempt = t.board.knownAttempt) : ShowsOnly s (t.modBoard f) := h.trans ⟨rfl, k, a⟩

theorem composePage (h : ShowsOnly s t) (p : Page) : ShowsOnly s (t.composePage p) := h.modBoard rfl rfl

theorem showPage (h : ShowsOnly s t) (e : PageEntry) : ShowsOnly s (t.showPage e) := (h.modBoard rfl rfl).composePage _

theorem rotate (h : ShowsOnly s t) : ShowsOnly s t.rotate := (h.modBoard rfl rfl).showPage _

theorem recompose (h : ShowsOnly s t) (test : Page → Bool) : ShowsOnly s (t.recompose test) := by
  unfold State.recompose
  split
  · exact h
  · split
    · exact h.composePage _
    · exact h

theorem mapPages (h : ShowsOnly s t) (test : Page → Bool) (f : PageEntry → PageEntry) :
    ShowsOnly s (t.mapPages test f) := h.modBoard rfl rfl

theorem removePages (h : ShowsOnly s t) (test : Page → Bool) : ShowsOnly s (t.removePages test) := by
  unfold State.removePages
  dsimp only
  split
  · unfold State.endPage State.nextPage
    split
    · exact (((h.modBoard rfl rfl).modBoard rfl rfl).modBoard rfl rfl).showPage _
    · exact ((h.modBoard rfl rfl).modBoard rfl rfl).rotate
  · exact h.modBoard rfl rfl

theorem placePage (h : ShowsOnly s t) (e : PageEntry) (put : PageEntry → List PageEntry → List PageEntry) :
    ShowsOnly s (t.placePage e put) := by
  unfold State.placePage
  split
  · exact h.modBoard rfl rfl
  · split
    · exact h.raiseDropped _
    · split
      · exact (h.modBoard rfl rfl).raiseDropped _
      · exact h.raiseDropped _

theorem arrive (h : ShowsOnly s t) (e : PageEntry) : ShowsOnly s (t.arrive e) := by
  unfold State.arrive
  split
  · exact h.showPage e
  · split
    · exact (h.placePage _ _).showPage e
    · exact h.placePage _ _

theorem boardListChange (h : ShowsOnly s t) (before : StandingsState) : ShowsOnly s (t.boardListChange before) := by
  unfold State.boardListChange
  split
  · exact h
  · exact h.recompose _

end ShowsOnly

/-- The START part of the start station's STATUS is what the board then knows (R176). -/
theorem State.boardStatus_known (s : State) (q : StartPart) :
    (s.boardStatus q).board.knownHolds = q.causes ∧ (s.boardStatus q).board.knownAttempt = q.attempt := by
  have k : ShowsOnly (s.modBoard (fun b => { b with knownHolds := q.causes, knownAttempt := q.attempt }))
      (s.boardStatus q) := by
    unfold State.boardStatus
    dsimp only
    split
    · split
      · exact .refl _
      · exact (ShowsOnly.refl _).recompose _
    · split
      · exact ((ShowsOnly.refl _).arrive _).recompose _
      · split
        · exact ((ShowsOnly.refl _).removePages _).recompose _
        · exact (ShowsOnly.refl _).recompose _
  exact ⟨k.holds, k.attempt⟩

/-- A delivered STATUS changes no record. -/
theorem State.deliver_status {s : State} (base : s.loader.state.base = .run) (l : LineHdr) (p : StatusPayload) :
    s.deliver l (.status p) =
      ((s.rosterTake l (.status p)).lineTake l (.status p)).handFrame l (.status p) [] := by
  rw [State.deliver_passed base rfl]
  rfl

/-- The start station's STATUS at a board. -/
theorem State.deliver_status_board {s : State} {l : LineHdr} (base : s.loader.state.base = .run)
    (r : s.loader.roles.board = true) (f : s.loader.consts.stationWith (·.start) = some l.sender) {p : StatusPayload}
    {q : StartPart} (e : p.start = some q) :
    (s.deliver l (.status p)).board.knownHolds = q.causes ∧
      (s.deliver l (.status p)).board.knownAttempt = q.attempt := by
  have loader := (congrArg State.loader (s.deliver_only l (.status p)).same :)
  rw [State.deliver_status base] at loader ⊢
  obtain ⟨-, -, -, -, -, -, s7, -, -, -, -, -, -, -, h8, only⟩ :=
    ((s.rosterTake l (.status p)).lineTake l (.status p)).handFrame_stages l (.status p) []
  have l7 : s7.loader = s.loader := (congrArg State.loader only.same :).symm.trans loader
  generalize ((s.rosterTake l (.status p)).lineTake l (.status p)).standings = before at h8
  rw [h8, State.ifRole, if_pos (by rw [l7]; exact r)]
  unfold State.boardTake
  dsimp only [List.foldl_nil]
  generalize hu : s7.boardListChange before = u
  have lu : u.loader = s.loader := by
    rw [← hu]
    exact (congrArg State.loader ((Only.refl blockBoard s7).boardListChange before).same :).trans l7
  have fs : u.fromStart l = true := by simp [State.fromStart, lu, f]
  show (if u.fromStart l = true then p.start.elim u u.boardStatus else u).board.knownHolds = _ ∧
    (if u.fromStart l = true then p.start.elim u u.boardStatus else u).board.knownAttempt = _
  rw [if_pos fs, e]
  exact u.boardStatus_known q

/-! ## O16 -/

/-- The command of a frame that is delivered, with the event number in which it is. -/
theorem State.Delivers.exec_event {s : State} {l : LineHdr} {b : Body} (h : s.Delivers l b) :
    ∃ line, line.eventNumber = s.line.eventNumber ∧
      Sys2Proof.Machine.exec (frameCommand l.rx b) s = .next (({ s with line := line }).deliver l b) := by
  rw [exec_frameCommand]
  rcases h with h | h
  · exact ⟨{ s.line.heard b with yieldMark := false }, rfl, by rw [h.toHears.receive]⟩
  · have hl : s.loader.state ≠ .loading := by rcases h.active with e | e <;> simp [e]
    exact ⟨{ s.line.endTx b with busyUs := some b.lineUs }, rfl,
      by rw [State.receive_echo h.released hl h.sending h.line h.body]⟩

theorem State.Delivers.line {s : State} {l : LineHdr} {b : Body} (h : s.Delivers l b) : l.inRange = true := by
  rcases h with h | h
  · exact h.line
  · exact h.line

/-- A frame of a PRESENT sender that announces what it did before changes its roster entry and nothing else (R28). -/
theorem State.rosterTake_quiet {s : State} {l : LineHdr} {b : Body} (pres : (s.rosterAt l.sender).presence = .present)
    (same : announced (s.rosterAt l.sender).status = announced ((s.rosterAt l.sender).hear l b).status) :
    s.rosterTake l b = { s with roster := s.roster.set l.sender ((s.rosterAt l.sender).hear l b) } := by
  unfold State.rosterTake
  simp [pres, same]

/-- A STATUS gives its event number where the station has none and it is the jury's (R6). -/
theorem State.deliver_status_event {s : State} (base : s.loader.state.base = .run) (l : LineHdr) (p : StatusPayload) :
    (s.deliver l (.status p)).line.eventNumber =
      (if s.line.eventNumber = 0 ∧ s.loader.roles.jury = false ∧
          s.loader.consts.stationWith (·.jury) = some l.sender then l.event else s.line.eventNumber) := by
  rw [State.deliver_eventNumber, if_pos ⟨base, rfl⟩]
  by_cases c : s.line.eventNumber = 0 ∧ s.loader.roles.jury = false ∧
      s.loader.consts.stationWith (·.jury) = some l.sender
  · obtain ⟨z, j, f⟩ := c
    by_cases e : l.event = 0
    · simp [State.lineTake, z, j, f, e]
    · simp [State.lineTake, State.fromJury, z, j, f, e, LineState.setEvent, Ne.symm e]
  · have n : ¬(s.line.eventNumber = 0 ∧ l.event ≠ 0 ∧ !s.loader.roles.jury ∧ s.fromJury l) := by
      rintro ⟨z, -, j, f⟩
      exact c ⟨z, by simpa using j, by simpa [State.fromJury] using f⟩
    simp only [State.lineTake]
    rw [if_neg c, if_neg n]

/-- Settles O16: the event number (`State.deliver_status_event`), STATION and CONFIG (`State.deliver_rosterHolds`,
`RosterHoldsStay.deliver`), the phase (`State.deliver_status_start`), and the board (`State.deliver_status_board`). -/
theorem statusFrameAtAStation : Obligations.StatusFrameAtAStation := by
  intro s l p h sound
  obtain ⟨line, event, run⟩ := h.exec_event
  refine ⟨_, run, ?_⟩
  generalize hu : ({ s with line := line } : State) = u
  have base : u.loader.state.base = .run := by rw [← hu]; exact h.base
  have number := State.deliver_status_event base l p
  have holds := State.deliver_rosterHolds (s := u) (l := l) (b := .status p)
  have stay := RosterHoldsStay.deliver u l (.status p)
  have quiet := State.rosterTake_quiet (s := u) (l := l) (b := .status p)
  have isOpen := State.deliver_status_start (P := StartState.OpenSound) (s := u) (l := l) (p := p)
  have waits := State.deliver_status_start (P := StartState.Waits) (s := u) (l := l) (p := p)
  have board := fun r f q (e : p.start = some q) => State.deliver_status_board (s := u) (l := l) base r f e
  have entry := State.deliver_rosterAt (s := u) (by rw [← hu]; exact sound) l (.status p) l.sender
    (LineHdr.sender_lt h.line)
  have loader : (u.deliver l (.status p)).loader = u.loader :=
    (congrArg State.loader (u.deliver_only l (.status p)).same :)
  subst hu
  generalize State.deliver _ l (.status p) = t at *
  have changed : (s.rosterAt l.sender).presence ≠ .present ∨
      (s.rosterAt l.sender).status.map (fun k => (k.payload.digest, k.payload.condition)) ≠
        some (p.digest, p.condition) → s.loader.roles.start = true → s.RosterHoldsFollow t :=
    fun c r => holds r c
  refine ⟨event ▸ number, fun r => ⟨fun c => changed c r, fun pres same => ?_, fun hs st => ?_, fun d nd => ?_,
    fun red go ne nil => ?_⟩, fun r f q e => board r f q e⟩
  · have e := quiet pres same
    exact Eq.trans stay (congrArg (fun v => v.start.rosterHolds) e)
  · have sound := isOpen hs.2 (fun _ c why k => State.holdWhile_openSound k c why) (fun _ _ k => k)
    have ne : t.start.holds ≠ [] := by rcases st with st | st <;> exact StartState.holds_ne_nil st
    exact ⟨fun e => ne (sound (.inl e)), fun e => ne (sound (.inr e))⟩
  · have c : (s.rosterAt l.sender).status.map (fun k => (k.payload.digest, k.payload.condition)) ≠
        some (p.digest, p.condition) := fun c => nd (by
      have := congrArg (Option.map Prod.fst) c
      simpa [Option.map_map] using this)
    refine ((changed (.inr c) r) _ _ rfl rfl).2.1.2 (List.ne_nil_of_mem (a := l.sender) ?_)
    rw [if_pos rfl] at entry
    refine List.mem_filter.2 ⟨List.mem_range.2 (LineHdr.sender_lt h.line), ?_⟩
    rw [entry, loader]
    simpa [RosterEntry.hear] using d
  · have w := waits ⟨go, .inl ⟨red, ne⟩⟩ (fun _ c why k => State.holdWhile_waits k c why) (fun _ _ k => k)
    exact (w.2.resolve_left fun k => k.2 nil).1

end Sys2Proof.Machine
end

section
/-! The records of the attempt table through a delivery (R35 to R43). -/

namespace Sys2Proof.Machine

open Sys2Proof

/-! ## Looking up a record -/

/-- Records under a change that leaves attempt numbers. -/
theorem find_record_map {f : AttemptRecord → AttemptRecord} (k : ∀ r, (f r).hdr.attempt = r.hdr.attempt)
    (rs : List AttemptRecord) (n : Nat) :
    (rs.map f).find? (fun r => r.hdr.attempt == n) = (rs.find? (fun r => r.hdr.attempt == n)).map f := by
  rw [List.find?_map]
  congr 2
  funext r
  simp [k]

/-- The record that is found has the number looked for. -/
theorem State.attempt?_number {s : State} {n : Nat} {r : AttemptRecord} (h : s.attempt? n = some r) :
    r.hdr.attempt = n := by
  have := List.find?_some h
  simpa using this

/-- A change of one record, found under its number, leaves every other. -/
theorem State.setRecord_attempt {s : State} {n : Nat} {f : AttemptRecord → AttemptRecord}
    (k : ∀ r, r.hdr.attempt = n → (f r).hdr.attempt = n) (m : Nat) :
    (s.setRecord n f).attempt? m = if m = n then (s.attempt? m).map f else s.attempt? m := by
  have number : ∀ r : AttemptRecord, (if r.hdr.attempt == n then f r else r).hdr.attempt = r.hdr.attempt := fun r => by
    by_cases e : r.hdr.attempt = n
    · simp [e, k r e]
    · simp [e]
  have found := find_record_map number s.table m
  unfold State.setRecord
  show (s.table.map _).find? _ = _
  rw [found]
  show (s.attempt? m).map _ = _
  cases e : s.attempt? m with
  | none => simp
  | some r =>
    have := State.attempt?_number e
    by_cases c : m = n <;> simp [this, c]

/-- Records that are the same but for their scoring parts are found alike. -/
theorem State.attempt?_bare {s t : State} (h : t.table.map AttemptRecord.bare = s.table.map AttemptRecord.bare)
    (n : Nat) : (t.attempt? n).map AttemptRecord.bare = (s.attempt? n).map AttemptRecord.bare := by
  have e := congrArg (List.find? (fun r : AttemptRecord => r.hdr.attempt == n)) h
  rwa [find_record_map (f := AttemptRecord.bare) (fun _ => rfl), find_record_map (f := AttemptRecord.bare)
    (fun _ => rfl)] at e

/-- The headers of such records are the same. -/
theorem headers_of_bare {s t : State} (h : t.table.map AttemptRecord.bare = s.table.map AttemptRecord.bare) :
    t.table.map (·.hdr) = s.table.map (·.hdr) := by
  have e := congrArg (List.map (·.hdr)) h
  rwa [List.map_map, List.map_map] at e

/-! ## What a frame writes into a record -/

/-- What a frame writes leaves the header, the state, the creation stamp and the scoring part. -/
theorem AttemptRecord.writeFields_keeps (r : AttemptRecord) (l : LineHdr) (b : Body) :
    (r.writeFields l b).hdr = r.hdr ∧ (r.writeFields l b).state = r.state ∧
      (r.writeFields l b).created = r.created ∧ (r.writeFields l b).scoring = r.scoring := by
  have saturated : ∀ q : AttemptRecord, (q.markSaturated l).hdr = q.hdr ∧ (q.markSaturated l).state = q.state ∧
      (q.markSaturated l).created = q.created ∧ (q.markSaturated l).scoring = q.scoring := fun q => by
    unfold AttemptRecord.markSaturated
    split <;> exact ⟨rfl, rfl, rfl, rfl⟩
  cases b with
  | gate h g a =>
    have w : (r.writeGate g a).hdr = r.hdr ∧ (r.writeGate g a).state = r.state ∧
        (r.writeGate g a).created = r.created ∧ (r.writeGate g a).scoring = r.scoring := by
      unfold AttemptRecord.writeGate
      split
      · exact ⟨rfl, rfl, rfl, rfl⟩
      · split
        · exact ⟨rfl, rfl, rfl, rfl⟩
        · exact ⟨rfl, rfl, rfl, rfl⟩
        · split <;> exact ⟨rfl, rfl, rfl, rfl⟩
        · split <;> exact ⟨rfl, rfl, rfl, rfl⟩
    rw [← w.1, ← w.2.1, ← w.2.2.1, ← w.2.2.2]
    exact saturated _
  | coach h g q w =>
    have c : (r.writeCoach g q w).hdr = r.hdr ∧ (r.writeCoach g q w).state = r.state ∧
        (r.writeCoach g q w).created = r.created ∧ (r.writeCoach g q w).scoring = r.scoring := by
      unfold AttemptRecord.writeCoach
      split
      · exact ⟨rfl, rfl, rfl, rfl⟩
      · split
        · split <;> exact ⟨rfl, rfl, rfl, rfl⟩
        · split <;> exact ⟨rfl, rfl, rfl, rfl⟩
    rw [← c.1, ← c.2.1, ← c.2.2.1, ← c.2.2.2]
    exact saturated _
  | landing h d q nt lc =>
    have w : (r.writeLanding l.eventTime d q nt lc).hdr = r.hdr ∧
        (r.writeLanding l.eventTime d q nt lc).state = r.state ∧
        (r.writeLanding l.eventTime d q nt lc).created = r.created ∧
        (r.writeLanding l.eventTime d q nt lc).scoring = r.scoring := by
      unfold AttemptRecord.writeLanding
      split <;> exact ⟨rfl, rfl, rfl, rfl⟩
    rw [← w.1, ← w.2.1, ← w.2.2.1, ← w.2.2.2]
    exact saturated _
  | result p =>
    show (r.writeResult l p).hdr = r.hdr ∧ (r.writeResult l p).state = r.state ∧
      (r.writeResult l p).created = r.created ∧ (r.writeResult l p).scoring = r.scoring
    unfold AttemptRecord.writeResult
    split
    · exact saturated r
    · exact ⟨rfl, rfl, rfl, rfl⟩
  | _ => exact saturated r

/-- A known record keeps its header and its scoring part (R36). -/
theorem AttemptRecord.take_keeps (r : AttemptRecord) (bound : Bool) (l : LineHdr) (b : Body) :
    (r.take bound l b).hdr = r.hdr ∧ (r.take bound l b).scoring = r.scoring := by
  unfold AttemptRecord.take
  split
  · exact ⟨rfl, rfl⟩
  · split
    · have w := ({ r with state := .void } : AttemptRecord).writeFields_keeps l
      exact ⟨(w _).1, (w _).2.2.2⟩
    · have w := ({ r with state := nextState bound b r.state } : AttemptRecord).writeFields_keeps l b
      exact ⟨w.1, w.2.2.2⟩

/-- The state of a known record after a frame (R36, R38, R39). -/
theorem AttemptRecord.take_state (r : AttemptRecord) (bound : Bool) (l : LineHdr) (b : Body) :
    (r.take bound l b).state = if r.state = .void then .void
      else match b with
        | .void .. => .void
        | _ => nextState bound b r.state := by
  unfold AttemptRecord.take
  split
  · assumption
  · cases b <;> exact (AttemptRecord.writeFields_keeps _ l _).2.1

/-- The moves of a known record at a frame that R39 does not hold back. -/
theorem AttemptRecord.take_moves (r : AttemptRecord) (l : LineHdr) (b : Body) :
    (r.state = .void → (r.take false l b).state = .void) ∧
    (r.state ≠ .void → (∃ h why, b = .void h why) → (r.take false l b).state = .void) ∧
    (r.state = .green → (∃ h p g n c, b = .phase h p g n c ∧ (p = .red ∨ p = .amber)) →
      (r.take false l b).state = .called) ∧
    (r.state ≠ .void → (∀ h why, b ≠ .void h why) →
      ¬(r.state = .green ∧ ∃ h p g n c, b = .phase h p g n c ∧ (p = .red ∨ p = .amber)) →
      (r.take false l b).state = if r.state.rank < (impliedState b).rank then impliedState b else r.state) := by
  refine ⟨fun v => ?_, fun v => ?_, fun g => ?_, fun v nv n => ?_⟩
  · rw [take_state, if_pos v]
  · rintro ⟨h, why, rfl⟩
    rw [take_state, if_neg v]
  · rintro ⟨h, p, g', n, c, rfl, rfl | rfl⟩ <;> rw [take_state, if_neg (by simp [g])] <;> simp [nextState, g]
  · rw [take_state, if_neg v]
    have next : nextState false b r.state =
        if r.state.rank < (impliedState b).rank then impliedState b else r.state := by
      unfold nextState
      rw [if_neg (by simp), if_neg]
      intro k
      obtain ⟨k1, k2⟩ := Bool.and_eq_true_iff.1 k
      refine n ⟨by simpa using k1, ?_⟩
      split at k2
      · exact ⟨_, _, _, _, _, rfl, .inl rfl⟩
      · exact ⟨_, _, _, _, _, rfl, .inr rfl⟩
      · exact absurd k2 (by simp)
    cases b with
    | void h why => exact absurd rfl (nv h why)
    | _ => exact next

/-! ## The tracker (R35 to R43) -/

theorem State.raiseChanges_table (s : State) (cs : List Change) : (s.raiseChanges cs).table = s.table := by
  unfold State.raiseChanges
  induction cs generalizing s with
  | nil => rfl
  | cons c cs ih =>
    rw [List.foldl_cons, ih]
    unfold State.raiseChange
    split <;> simp

/-- Forcing other records to LANDED leaves the one that has moved (R43). -/
theorem State.forceOthers_attempt (s : State) (n : Nat) (put : Bool) :
    (s.forceOthers n put).1.attempt? n = s.attempt? n ∧
      (s.forceOthers n put).1.table.map (·.hdr) = s.table.map (·.hdr) := by
  unfold State.forceOthers
  split
  · constructor
    · unfold State.attempt?
      dsimp only
      rw [find_record_map (fun r => by split <;> rfl)]
      cases e : s.table.find? (fun r => r.hdr.attempt == n) with
      | none => rfl
      | some r =>
        have k : r.hdr.attempt = n := by simpa using List.find?_some e
        simp [AttemptRecord.forcedBy, k]
    · rw [List.map_map]
      exact List.map_congr_left fun r _ => by
        show AttemptRecord.hdr (if r.forcedBy n then r.forceLanded else r) = r.hdr
        split <;> rfl
  · exact ⟨rfl, rfl⟩

/-- A known record after the tracker has taken a frame of its attempt. -/
theorem State.takeKnown_attempt {s : State} {own : Bool} {l : LineHdr} {b : Body} {h : AttemptHdr} {r : AttemptRecord}
    (k : s.attempt? h.attempt = some r) : (s.takeKnown own l b h r).1.attempt? h.attempt =
      some (r.take (s.loader.roles.start && !own) l b) := by
  unfold State.takeKnown
  extract_lets s1 r' s2
  have t1 : s1.table = s.table := by
    unfold s1
    split <;> simp
  have l1 : s1.loader = s.loader := by
    unfold s1
    split <;> simp
  have a1 : s1.attempt? h.attempt = some r := by
    unfold State.attempt? at k ⊢; rw [t1, k]
  have number := State.attempt?_number k
  have rk : r' = r.take (s.loader.roles.start && !own) l b := by unfold r'; rw [l1]
  have hk : r'.hdr.attempt = h.attempt := by rw [rk, (r.take_keeps _ l b).1]; exact number
  have a2 : s2.attempt? h.attempt = some r' := by
    unfold s2
    rw [State.setRecord_attempt (fun _ _ => hk), if_pos rfl, a1]; rfl
  rw [← rk]
  split
  · exact a2
  · show ((s2.forceOthers h.attempt r'.state.flight).1.raiseChanges _).attempt? h.attempt = _
    unfold State.attempt?
    rw [State.raiseChanges_table]
    exact (s2.forceOthers_attempt h.attempt _).1.trans a2

/-- A created record joins the table, and every other keeps its header (R41, R43). -/
theorem State.addRecord_attempt {s : State} {r : AttemptRecord} (k : s.attempt? r.hdr.attempt = none) :
    (s.addRecord r).1.attempt? r.hdr.attempt = some r ∧
      (s.addRecord r).1.table.map (·.hdr) = s.table.map (·.hdr) ++ [r.hdr] := by
  have f := ({ s with table := s.table ++ [r] } : State).forceOthers_attempt r.hdr.attempt r.state.flight
  show (State.raiseChanges _ _).attempt? r.hdr.attempt = _ ∧ (State.raiseChanges _ _).table.map (·.hdr) = _
  unfold State.attempt? at *
  rw [State.raiseChanges_table]
  refine ⟨f.1.trans ?_, f.2.trans ?_⟩
  · simp [k]
  · simp

/-- The record that a frame creates (R41). -/
theorem newRecord_keeps (h : AttemptHdr) (l : LineHdr) (b : Body) :
    (newRecord h l b).hdr = h ∧ (newRecord h l b).state = impliedState b ∧ (newRecord h l b).created = l.stamp := by
  have saturated : ∀ q : AttemptRecord, (q.markSaturated l).hdr = q.hdr ∧ (q.markSaturated l).state = q.state ∧
      (q.markSaturated l).created = q.created := fun q => by
    unfold AttemptRecord.markSaturated
    split <;> exact ⟨rfl, rfl, rfl⟩
  have written : ∀ q : AttemptRecord, (q.writeFields l b).hdr = q.hdr ∧ (q.writeFields l b).state = q.state ∧
      (q.writeFields l b).created = q.created := fun q =>
    ⟨(q.writeFields_keeps l b).1, (q.writeFields_keeps l b).2.1, (q.writeFields_keeps l b).2.2.1⟩
  unfold newRecord
  split
  · exact ⟨rfl, rfl, rfl⟩
  · exact saturated _
  · exact written _

/-- A CALL and a PHASE create a record with their gate (R41). -/
theorem newRecord_gates {h : AttemptHdr} {l : LineHdr} {b : Body} {g : Nat}
    (k : b = .call h g ∨ ∃ p n c, b = .phase h p g n c) :
    (newRecord h l b).juryGate = some g ∧ (newRecord h l b).gateUsed = some g := by
  rcases k with rfl | ⟨p, n, c, rfl⟩
  · exact ⟨rfl, rfl⟩
  · simp [newRecord, AttemptRecord.writeFields]

/-- The tracker at a frame of a known attempt. -/
theorem State.track_known {s : State} {l : LineHdr} {b : Body} {h : AttemptHdr} {r : AttemptRecord}
    (hd : b.hdr? = some h) (k : s.attempt? h.attempt = some r) :
    s.track l b = s.takeKnown (s.isOwn l) l b h r := by
  unfold State.track
  split
  · exact absurd hd (by simp [Body.hdr?])
  · simp only [hd, k]

/-- The tracker at a frame of an unknown attempt. -/
theorem State.track_unknown {s : State} {l : LineHdr} {b : Body} {h : AttemptHdr} (hd : b.hdr? = some h)
    (k : s.attempt? h.attempt = none) : s.track l b =
      if s.mayCreate (s.isOwn l) b then s.createRecord l b h else (s.ignoreAttempt l b h.attempt, []) := by
  unfold State.track
  split
  · exact absurd hd (by simp [Body.hdr?])
  · simp only [hd, k]

/-- What the tracker finds: the station's state after the roster and the line interface have taken the frame. -/
def State.tracked (s : State) (l : LineHdr) (b : Body) : State := (s.rosterTake l b).lineTake l b

/-- The roster and the line interface leave the records but for their scoring parts, and all that stands under them. -/
theorem State.tracked_stays (s : State) (l : LineHdr) (b : Body) : AttemptsStay s (s.tracked l b) := by
  refine (AttemptsStay.rosterTake s l b).trans ?_
  unfold State.tracked State.lineTake
  split
  · exact ⟨rfl, rfl, rfl, rfl, rfl, rfl, rfl⟩
  · split <;> exact ⟨rfl, rfl, rfl, rfl, rfl, rfl, rfl⟩
  · exact .refl _

/-- A delivery leaves the records as the tracker has, but for their scoring parts. -/
theorem State.deliver_bare {s : State} {l : LineHdr} {b : Body} (base : s.loader.state.base = .run)
    (f : s.passesFilter l b = true) :
    (s.deliver l b).table.map AttemptRecord.bare = ((s.tracked l b).track l b).1.table.map AttemptRecord.bare := by
  rw [State.deliver_passed base f]
  exact (State.handFrame_only _ _ _ _).bare

/-- The record of a known attempt after a delivery, but for its scoring part. -/
theorem State.deliver_known {s : State} {l : LineHdr} {b : Body} {h : AttemptHdr} {r : AttemptRecord}
    (base : s.loader.state.base = .run) (f : s.passesFilter l b = true) (own : s.isOwn l = true)
    (hd : b.hdr? = some h) (k : s.attempt? h.attempt = some r) : ∃ r',
      (s.deliver l b).attempt? h.attempt = some r' ∧ r'.hdr = r.hdr ∧ r'.state = (r.take false l b).state := by
  have stays := s.tracked_stays l b
  have e := State.attempt?_bare stays.table h.attempt
  rw [k] at e
  obtain ⟨rv, kv, ev⟩ := Option.map_eq_some_iff.1 e
  have ov : (s.tracked l b).isOwn l = true := by unfold State.isOwn at own ⊢; rwa [stays.loader]
  have d := State.attempt?_bare (State.deliver_bare base f) h.attempt
  rw [State.track_known hd kv, State.takeKnown_attempt kv, ov] at d
  obtain ⟨r', k', e'⟩ := Option.map_eq_some_iff.1 d
  have hv : rv.hdr = r.hdr := (congrArg AttemptRecord.hdr ev :)
  have sv : rv.state = r.state := (congrArg AttemptRecord.state ev :)
  refine ⟨r', k', ?_, ?_⟩
  · exact (congrArg AttemptRecord.hdr e' : _).trans ((rv.take_keeps _ l b).1.trans hv)
  · refine (congrArg AttemptRecord.state e' : _).trans ?_
    rw [Bool.not_true, Bool.and_false]
    show (rv.take false l b).state = _
    rw [AttemptRecord.take_state, AttemptRecord.take_state, sv]

/-- A frame of an unknown attempt that may create a record, with room in the table. -/
theorem State.deliver_created {s : State} {l : LineHdr} {b : Body} {h : AttemptHdr}
    (base : s.loader.state.base = .run) (f : s.passesFilter l b = true) (hd : b.hdr? = some h)
    (k : s.attempt? h.attempt = none) (room : s.table.length < 8) (c : s.mayCreate (s.isOwn l) b = true) : ∃ r,
      (s.deliver l b).attempt? h.attempt = some r ∧ r.bare = (newRecord h l b).bare ∧
        (s.deliver l b).table.map (·.hdr) = s.table.map (·.hdr) ++ [h] := by
  have stays := s.tracked_stays l b
  have e := State.attempt?_bare stays.table h.attempt
  rw [k] at e
  have kv : (s.tracked l b).attempt? h.attempt = none := Option.map_eq_none_iff.1 e
  have cv : (s.tracked l b).mayCreate ((s.tracked l b).isOwn l) b = true := by
    unfold State.mayCreate State.isOwn at c ⊢; rwa [stays.loader]
  have len : (s.tracked l b).table.length = s.table.length := by simpa using congrArg List.length stays.table
  have free : (s.tracked l b).roomFor (newRecord h l b).state.live = .free := by
    unfold State.roomFor
    exact if_pos (by rw [len]; exact room)
  have tr : (s.tracked l b).track l b = (s.tracked l b).addRecord (newRecord h l b) := by
    rw [State.track_unknown hd kv, if_pos cv]
    unfold State.createRecord
    dsimp only
    rw [free]
  have nh := (newRecord_keeps h l b).1
  have bare := State.deliver_bare base f
  rw [tr] at bare
  have a := State.addRecord_attempt (s := s.tracked l b) (r := newRecord h l b) (by rw [nh]; exact kv)
  rw [nh] at a
  have d := State.attempt?_bare bare h.attempt
  rw [a.1] at d
  obtain ⟨r, kr, er⟩ := Option.map_eq_some_iff.1 d
  exact ⟨r, kr, er, (headers_of_bare bare).trans (a.2.trans (by rw [headers_of_bare stays.table]))⟩

/-- A frame of an unknown attempt that may not create a record. -/
theorem State.deliver_ignored {s : State} {l : LineHdr} {b : Body} {h : AttemptHdr}
    (base : s.loader.state.base = .run) (f : s.passesFilter l b = true) (hd : b.hdr? = some h)
    (k : s.attempt? h.attempt = none) (c : s.mayCreate (s.isOwn l) b = false) :
    (s.deliver l b).attempt? h.attempt = none ∧ (s.deliver l b).table.map (·.hdr) = s.table.map (·.hdr) := by
  have stays := s.tracked_stays l b
  have e := State.attempt?_bare stays.table h.attempt
  rw [k] at e
  have cv : (s.tracked l b).mayCreate ((s.tracked l b).isOwn l) b = false := by
    unfold State.mayCreate State.isOwn at c ⊢; rwa [stays.loader]
  have bare := State.deliver_bare base f
  rw [State.track_unknown hd (Option.map_eq_none_iff.1 e), if_neg (by simp [cv])] at bare
  have same : ((s.tracked l b).ignoreAttempt l b h.attempt).table = (s.tracked l b).table := by
    simp [State.ignoreAttempt]
  dsimp only at bare
  rw [same, stays.table] at bare
  have d := State.attempt?_bare bare h.attempt
  rw [k] at d
  exact ⟨Option.map_eq_none_iff.1 d, headers_of_bare bare⟩

end Sys2Proof.Machine
end

section
/-! Own frames: the echo, and a duplicate of the own number (R4, R12, R13, R26, R39 to R41, R128, R147). -/

namespace Sys2Proof.Machine

open Sys2Proof

/-! ## The tracker changes the table and raises notices, where it creates no record -/

/-- `t` with the attempt table and the outbox of `s`. -/
def restoreTable (s t : State) : State := { restoreOut s t with table := s.table }

theorem blockTable : BlockRestore restoreTable := ⟨fun _ => rfl, fun _ _ _ => rfl, fun _ _ _ => rfl⟩

/-- From `s` to `t` nothing changes but the attempt table and the outbox. -/
abbrev OnlyTable := Only restoreTable

namespace OnlyTable

variable {s t : State}

theorem withTable (h : OnlyTable s t) (v : List AttemptRecord) : OnlyTable s { t with table := v } :=
  ⟨h.block, h.same, h.keeps.trans (.of_eq rfl rfl rfl)⟩

theorem raiseChanges (h : OnlyTable s t) (cs : List Change) : OnlyTable s (t.raiseChanges cs) :=
  Only.foldl (f := State.raiseChange) (fun h c => by
    unfold State.raiseChange
    split
    · exact h
    · exact h.raise _) cs h

theorem forceOthers (h : OnlyTable s t) (n : Nat) (put : Bool) : OnlyTable s (t.forceOthers n put).1 := by
  unfold State.forceOthers
  split
  · exact withTable h _
  · exact h

theorem takeKnown (s : State) (own : Bool) (l : LineHdr) (b : Body) (hd : AttemptHdr) (r : AttemptRecord) :
    OnlyTable s (s.takeKnown own l b hd r).1 := by
  unfold State.takeKnown
  extract_lets s1 r' s2
  have k1 : OnlyTable s s1 := by
    unfold s1
    split
    · exact .refl blockTable s
    · exact (Only.refl blockTable s).raise _
  have k2 : OnlyTable s s2 := withTable k1 _
  split
  · exact k2
  · exact raiseChanges (forceOthers k2 _ _) _

end OnlyTable

/-- The changes that a known record's move hands to the blocks: none, or its own, where R43 forces no other. -/
theorem State.takeKnown_changes {s : State} {own : Bool} {l : LineHdr} {b : Body} {h : AttemptHdr} {r : AttemptRecord}
    (nf : (r.take (s.loader.roles.start && !own) l b).state.flight = false) :
    (s.takeKnown own l b h r).2 = [] ∨ (s.takeKnown own l b h r).2 =
        [.entered (r.take (s.loader.roles.start && !own) l b) (some r.state) false] ∧
      (r.take (s.loader.roles.start && !own) l b).state ≠ r.state := by
  unfold State.takeKnown
  extract_lets s1 r' s2
  have l1 : s1.loader = s.loader := by
    unfold s1
    split <;> simp
  have rk : r' = r.take (s.loader.roles.start && !own) l b := by unfold r'; rw [l1]
  rw [← rk] at nf ⊢
  split
  · exact .inl rfl
  · rename_i ne
    refine .inr ⟨?_, ne⟩
    rw [nf]
    rfl

/-! ## An own RESULT (R147) -/

/-- The attempt has a scoring part in SENT, with the revision, the content and the marks of `q`. -/
def State.HoldsSent (s : State) (n : Nat) (q : ScoringPart) : Prop :=
  ∃ r p, s.attempt? n = some r ∧ r.scoring = some p ∧ p.stage = .sent ∧ p.revision = q.revision ∧
    p.computed = q.computed ∧ p.marks = q.marks

namespace State.HoldsSent

variable {s t : State} {n : Nat} {q : ScoringPart}

theorem of_table (h : s.HoldsSent n q) (e : t.table = s.table) : t.HoldsSent n q := by
  unfold HoldsSent State.attempt? at h ⊢; rwa [e]

/-- A change of a part that leaves what was sent. -/
theorem modPart (h : s.HoldsSent n q) {m : Nat} {f : ScoringPart → ScoringPart}
    (k : m ≠ n ∨ ∀ p, (f p).stage = p.stage ∧ (f p).revision = p.revision ∧ (f p).computed = p.computed ∧
      (f p).marks = p.marks) : (s.modPart m f).HoldsSent n q := by
  obtain ⟨r, p, hr, hp, stage, rev, comp, marks⟩ := h
  have a := State.setRecord_attempt (s := s) (n := m)
    (f := fun r : AttemptRecord => { r with scoring := r.scoring.map f }) (fun _ e => e) n
  show ∃ r p, (s.setRecord m _).attempt? n = some r ∧ _
  rw [a, hr]
  split
  · rename_i e
    obtain ⟨k1, k2, k3, k4⟩ := k.resolve_left (fun ne => ne e.symm) p
    exact ⟨_, f p, rfl, by simp [hp], k1.trans stage, k2.trans rev, k3.trans comp, k4.trans marks⟩
  · exact ⟨r, p, rfl, hp, stage, rev, comp, marks⟩

theorem raise (h : s.HoldsSent n q) (b : NoticeBody) : (s.raise b).HoldsSent n q := of_table h (by simp)

theorem sendResult (h : s.HoldsSent n q) (res : ResultPayload) : (s.sendResult res).HoldsSent n q :=
  of_table h (by simp [State.sendResult])

/-- A part in SENT does not pass the scoring test (R138). -/
theorem scoringTest (h : s.HoldsSent n q) (m : Nat) : (s.scoringTest m).HoldsSent n q := by
  unfold State.scoringTest
  split
  · exact h
  · rename_i r hr
    split
    · exact h
    · rename_i p hp
      split
      · rename_i ready
        refine (h.modPart (.inl ?_)).sendResult _
        rintro rfl
        obtain ⟨r', p', hr', hp', stage, -⟩ := h
        obtain rfl := Option.some.inj (hr.symm.trans hr')
        obtain rfl := Option.some.inj (hp.symm.trans hp')
        simp [State.scoringReady, stage] at ready
      · exact h

theorem gatherTest (h : s.HoldsSent n q) (m : Nat) : (s.gatherTest m).HoldsSent n q := by
  unfold State.gatherTest
  split
  · exact h
  · split
    · unfold State.gatherDone
      refine ((h.modPart (.inr fun _ => ?_)).raise _).scoringTest m
      exact ⟨rfl, rfl, rfl, rfl⟩
    · exact h

theorem gatherAll (h : s.HoldsSent n q) : s.gatherAll.HoldsSent n q := by
  unfold State.gatherAll
  induction s.table.map (·.hdr.attempt) generalizing s with
  | nil => exact h
  | cons m ms ih => exact ih (h.gatherTest m)

/-- The roster's part of a delivery leaves what was sent. -/
theorem rosterTake (h : s.HoldsSent n q) (l : LineHdr) (b : Body) : (s.rosterTake l b).HoldsSent n q := by
  obtain ⟨u, o, e⟩ := s.rosterTake_form l b
  have hu : u.HoldsSent n q := h.of_table (congrArg State.table o.same :)
  have readers : ∀ v : State, v.HoldsSent n q → v.rosterReaders.HoldsSent n q := fun v k => by
    have k' : (v.ifRole (·.start) (·.evalRosterHolds)).HoldsSent n q := by
      refine k.of_table ?_
      unfold State.ifRole
      split
      · exact (congrArg State.table (Only.refl blockStart v).evalRosterHolds.same :)
      · rfl
    unfold State.rosterReaders
    generalize v.ifRole (·.start) (·.evalRosterHolds) = w at k' ⊢
    unfold State.ifRole
    split
    · exact k'.gatherAll
    · exact k'
  rw [e]
  split
  · exact readers u hu
  · exact hu

end State.HoldsSent

/-- A known record that is not VOID is PUBLISHED after a RESULT, where it was not already (R36). -/
theorem AttemptRecord.take_result (r : AttemptRecord) (l : LineHdr) (res : ResultPayload) (nv : r.state ≠ .void) :
    (r.take false l (.result res)).state = .published := by
  rw [take_state, if_neg nv]
  cases e : r.state with
  | void => exact absurd e nv
  | _ => rfl

/-- An own RESULT at the scoring unit, which holds a part in SENT (R147). -/
theorem State.HoldsSent.published {s : State} {l : LineHdr} {res : ResultPayload} {q : ScoringPart}
    (h : s.HoldsSent res.hdr.attempt q) (own : s.isOwn l = true) {v : Nat} (rev : q.revision = some v)
    (le : v ≤ res.revision) (manual : Option Nat) : ∃ r' p',
      (s.scoringFrame l (.result res) manual).attempt? res.hdr.attempt = some r' ∧ r'.scoring = some p' ∧
      p'.stage = .published ∧ p'.copy = none ∧ p'.revision = some v ∧ p'.computed = q.computed ∧ p'.marks = q.marks := by
  obtain ⟨r, p, hr, hp, -, hrev, comp, marks⟩ := h
  have e : s.scoringFrame l (.result res) manual = s.scoringOwnResult res := if_pos own
  have a := State.setRecord_attempt (s := s) (n := res.hdr.attempt) (f := fun r : AttemptRecord =>
    { r with scoring := r.scoring.map (fun p =>
      if p.revision.isSome ∧ orZero p.revision ≤ res.revision then { p with copy := none, stage := .published }
      else p) }) (fun _ e => e) res.hdr.attempt
  rw [if_pos rfl, hr] at a
  rw [e]
  refine ⟨_, { p with copy := none, stage := .published }, a, ?_, rfl, rfl, hrev.trans rev, comp, marks⟩
  have c : p.revision.isSome ∧ orZero p.revision ≤ res.revision := by
    rw [hrev, rev]
    exact ⟨rfl, le⟩
  simp only [hp, Option.map_some, if_pos c]

/-- The jury's own RESULT makes the part that sent it PUBLISHED, and drops its copy (R147). -/
theorem State.deliver_own_result {s : State} {l : LineHdr} {res : ResultPayload} {r : AttemptRecord} {p : ScoringPart}
    {v : Nat} (base : s.loader.state.base = .run) (f : s.passesFilter l (.result res) = true)
    (own : s.isOwn l = true) (jury : s.loader.roles.jury = true) (k : s.attempt? res.hdr.attempt = some r)
    (nv : r.state ≠ .void) (hp : r.scoring = some p) (sent : p.stage = .sent) (rev : p.revision = some v)
    (le : v ≤ res.revision) : ∃ r' p', (s.deliver l (.result res)).attempt? res.hdr.attempt = some r' ∧
      r'.scoring = some p' ∧ p'.stage = .published ∧ p'.copy = none ∧ p'.revision = some v ∧
      p'.computed = p.computed ∧ p'.marks = p.marks := by
  have stays := s.tracked_stays l (.result res)
  have found := State.attempt?_bare stays.table res.hdr.attempt
  obtain ⟨rv, pv, kv, hpv, sentv, same⟩ : (s.tracked l (.result res)).HoldsSent res.hdr.attempt p :=
    State.HoldsSent.rosterTake ⟨r, p, k, hp, sent, rfl, rfl, rfl⟩ l _
  rw [State.deliver_passed base f]
  show ∃ r' p', (((s.tracked l (.result res)).track l (.result res)).1.handFrame l (.result res)
    ((s.tracked l (.result res)).track l (.result res)).2).attempt? res.hdr.attempt = some r' ∧ _
  generalize s.tracked l (.result res) = u at *
  have ou : u.isOwn l = true := by unfold State.isOwn at own ⊢; rwa [stays.loader]
  have nvu : rv.state ≠ .void := by
    rw [kv, k] at found
    have e : rv.state = r.state := (congrArg AttemptRecord.state (Option.some.inj found) :)
    rwa [e]
  have bound : (u.loader.roles.start && !true) = false := by simp
  have pub := rv.take_result l res nvu
  have changes := State.takeKnown_changes (s := u) (own := true) (l := l) (b := .result res) (h := res.hdr) (r := rv)
    (by rw [bound, pub]; rfl)
  have after := State.takeKnown_attempt (own := true) (l := l) (b := .result res) kv
  have only := OnlyTable.takeKnown u true l (.result res) res.hdr rv
  rw [bound] at changes after
  rw [State.track_known rfl kv, ou]
  generalize u.takeKnown true l (.result res) res.hdr rv = w at *
  obtain ⟨w, cs⟩ := w
  have hw : w.HoldsSent res.hdr.attempt p :=
    ⟨_, pv, after, (rv.take_keeps false l (.result res)).2.trans hpv, sentv, same⟩
  have still : ∀ x : State, cs.foldl State.scoringChange x = x := fun x => by
    rcases changes with e | ⟨e, -⟩
    · rw [show cs = [] from e]; rfl
    · rw [show cs = _ from e]
      simp [State.scoringChange, pub, AttemptState.scored]
  obtain ⟨s1, s2, s3, s4, s5, s6, s7, ⟨-, h1⟩, ⟨-, h2⟩, ⟨-, h3⟩, ⟨-, h4⟩, ⟨-, h5⟩, ⟨e6, -⟩, ⟨-, h7⟩, -, h8⟩ :=
    w.handFrame_stages l (.result res) cs
  have t5 : s5.table = w.table := calc
    s5.table = s4.table := (congrArg State.table h5.same :)
    _ = s3.table := (congrArg State.table h4.same :)
    _ = s2.table := (congrArg State.table h3.same :)
    _ = s1.table := (congrArg State.table h2.same :)
    _ = w.table := (congrArg State.table h1.same :)
  have l5 : s5.loader = s.loader := calc
    s5.loader = s4.loader := (congrArg State.loader h5.same :)
    _ = s3.loader := (congrArg State.loader h4.same :)
    _ = s2.loader := (congrArg State.loader h3.same :)
    _ = s1.loader := (congrArg State.loader h2.same :)
    _ = w.loader := (congrArg State.loader h1.same :)
    _ = u.loader := (congrArg State.loader only.same :)
    _ = s.loader := stays.loader
  have t8 : (w.handFrame l (.result res) cs).table = s6.table :=
    (congrArg State.table h8.same :).trans (congrArg State.table h7.same :)
  rw [State.ifRole, if_pos (by rw [l5]; exact jury), still] at e6
  have done := (hw.of_table t5).published (l := l) (by unfold State.isOwn at own ⊢; rwa [l5]) rev le
    (w.handedManual l (.result res))
  rw [← e6] at done
  unfold State.attempt? at done ⊢
  rw [t8]
  exact done

/-! ## An own LANDING (R128) -/

/-- A known record is LANDED after a LANDING, unless it was PUBLISHED or VOID (R36). -/
theorem AttemptRecord.take_landing (r : AttemptRecord) (l : LineHdr) (h : AttemptHdr) (d : Nat) (q : Quality)
    (nt lc : Bool) : (r.take false l (.landing h d q nt lc)).state = .landed ∨
      ((r.take false l (.landing h d q nt lc)).state = r.state ∧ r.state.flight = false) := by
  rw [take_state]
  cases r.state with
  | void => exact .inr ⟨rfl, rfl⟩
  | published => exact .inr ⟨rfl, rfl⟩
  | _ => exact .inl rfl

/-- The jury's own LANDING removes the context that has sent it (R128). -/
theorem State.deliver_own_landing {s : State} {l : LineHdr} {h : AttemptHdr} {d : Nat} {q : Quality} {nt lc : Bool}
    {c : LandingContext} (base : s.loader.state.base = .run) (f : s.passesFilter l (.landing h d q nt lc) = true)
    (own : s.isOwn l = true) (jury : s.loader.roles.jury = true) (k : s.context? h.attempt = some c)
    (sent : c.phase = .sent) : (s.deliver l (.landing h d q nt lc)).contexts =
      s.contexts.filter (fun x => x.attempt ≠ h.attempt) := by
  have stays := s.tracked_stays l (.landing h d q nt lc)
  rw [State.deliver_passed base f]
  show (((s.tracked l (.landing h d q nt lc)).track l (.landing h d q nt lc)).1.handFrame l (.landing h d q nt lc)
    ((s.tracked l (.landing h d q nt lc)).track l (.landing h d q nt lc)).2).contexts = _
  generalize s.tracked l (.landing h d q nt lc) = u at *
  have ou : u.isOwn l = true := by unfold State.isOwn at own ⊢; rwa [stays.loader]
  have tracked : OnlyTable u (u.track l (.landing h d q nt lc)).1 ∧ ∀ x : State,
      (u.track l (.landing h d q nt lc)).2.foldl (fun x c => x.landingChange l c) x = x := by
    cases ku : u.attempt? h.attempt with
    | none =>
      have no : u.mayCreate (u.isOwn l) (.landing h d q nt lc) = false := by
        unfold State.mayCreate
        rw [if_pos (by rw [stays.loader]; exact jury)]
        exact Bool.and_false _
      rw [State.track_unknown (b := .landing h d q nt lc) rfl ku, if_neg (by simp [no])]
      exact ⟨(Only.refl blockTable u).raise _, fun _ => rfl⟩
    | some r =>
      have bound : (u.loader.roles.start && !true) = false := by simp
      have land := r.take_landing l h d q nt lc
      rw [State.track_known (b := .landing h d q nt lc) rfl ku, ou]
      refine ⟨OnlyTable.takeKnown u true l _ h r, fun x => ?_⟩
      have changes := State.takeKnown_changes (s := u) (own := true) (l := l) (b := .landing h d q nt lc) (h := h)
        (r := r) (by
          rw [bound]
          rcases land with e | ⟨e, n⟩
          · rw [e]; rfl
          · rw [e]; exact n)
      rw [bound] at changes
      rcases changes with e | ⟨e, ne⟩
      · rw [e]; rfl
      · rw [e]
        simp [State.landingChange, land.resolve_right fun k => ne k.1, AttemptState.landingDone]
  obtain ⟨only, still⟩ := tracked
  generalize u.track l (.landing h d q nt lc) = w at *
  obtain ⟨w, cs⟩ := w
  obtain ⟨s1, s2, s3, s4, s5, s6, s7, ⟨-, h1⟩, ⟨-, h2⟩, ⟨-, h3⟩, ⟨-, h4⟩, ⟨e5, -⟩, ⟨-, h6⟩, ⟨-, h7⟩, -, h8⟩ :=
    w.handFrame_stages l (.landing h d q nt lc) cs
  have c4 : s4.contexts = s.contexts := calc
    s4.contexts = s3.contexts := (congrArg State.contexts h4.same :)
    _ = s2.contexts := (congrArg State.contexts h3.same :)
    _ = s1.contexts := (congrArg State.contexts h2.same :)
    _ = w.contexts := (congrArg State.contexts h1.same :)
    _ = u.contexts := (congrArg State.contexts only.same :)
    _ = s.contexts := stays.contexts
  have l4 : s4.loader = s.loader := calc
    s4.loader = s3.loader := (congrArg State.loader h4.same :)
    _ = s2.loader := (congrArg State.loader h3.same :)
    _ = s1.loader := (congrArg State.loader h2.same :)
    _ = w.loader := (congrArg State.loader h1.same :)
    _ = u.loader := (congrArg State.loader only.same :)
    _ = s.loader := stays.loader
  have context : s4.contextSent h.attempt = true := by
    unfold State.contextSent State.context? at *
    rw [c4, k]
    simp [sent]
  have own4 : s4.isOwn l = true := by unfold State.isOwn at own ⊢; rwa [l4]
  have drop : s5 = s4.dropContext h.attempt := by
    rw [e5, State.ifRole, if_pos (by rw [l4]; exact jury)]
    dsimp only at still ⊢
    rw [still]
    exact if_pos (by rw [own4, context]; rfl)
  calc (w.handFrame l (.landing h d q nt lc) cs).contexts = s7.contexts := (congrArg State.contexts h8.same :)
    _ = s6.contexts := (congrArg State.contexts h7.same :)
    _ = s5.contexts := (congrArg State.contexts h6.same :)
    _ = s.contexts.filter (fun x => x.attempt ≠ h.attempt) := by
      rw [drop, State.dropContext, c4]
      exact List.filter_congr fun x _ => by simp [bne, beq_eq_decide]

/-! ## A duplicate of the own number (R4, R26, R81) -/

/-- Entry into MUTED: the queues are emptied, the cadences stop, the cycle ends, and DUPLICATE_STATION is reported. -/
theorem State.mute_form (s : State) (kind : Nat) : ∃ start console, s.mute kind = { s with
    loader := { s.loader with state := .muted (s.loader.state == StationState.run) }
    line := { s.line with urgent := [], routine := [], nextStatus := none, nextCorridor := none }
    latch := s.latch.take .duplicateStation s.clock kind
    start := start, console := console } ∧
    (s.loader.roles.start = true → start.phase = .idle ∧ start.current = none ∧ start.keptVoid = none ∧
      start.rejectUntil = none) := by
  obtain ⟨start, console, e, f⟩ : ∃ start console, s.ifRole (·.start) (·.startMuted) =
      { s with start := start, console := console } ∧ (s.loader.roles.start = true → start.phase = .idle ∧
        start.current = none ∧ start.keptVoid = none ∧ start.rejectUntil = none) := by
    unfold State.ifRole
    split
    · have k : HoldListOnly (s.modStart (·.atIdle)) s.endCycle :=
        (HoldListOnly.refl (s.modStart (·.atIdle))).releaseHold rfl .coach
      obtain ⟨holds, settleAt, notices, overrun, e⟩ := k.explicit
      unfold State.startMuted
      dsimp only
      rw [e]
      exact ⟨_, _, rfl, fun _ => ⟨rfl, rfl, rfl, rfl⟩⟩
    · rename_i r; exact ⟨_, _, rfl, fun k => absurd k r⟩
  unfold State.mute
  dsimp only
  rw [e]
  exact ⟨start, _, rfl, f⟩

end Sys2Proof.Machine
end

section
/-! The statement about own frames (O15). -/

namespace Sys2Proof.Machine

open Sys2Proof

/-- The station after its own frame has ended, before its delivery (R12, R13). -/
def State.endOwn (s : State) (b : Body) : State := { s with line := { s.line.endTx b with busyUs := some b.lineUs } }

/-- The command of an echo in the current event delivers the frame to the station itself. -/
theorem State.Echoes.exec {s : State} {l : LineHdr} {b : Body} (h : s.Echoes l b) :
    Sys2Proof.Machine.exec (frameCommand l.rx b) s = .next ((s.endOwn b).deliver l b) := by
  have hl : s.loader.state ≠ .loading := by rcases h.active with e | e <;> simp [e]
  rw [exec_frameCommand, State.receive_echo h.released hl h.sending h.line h.body]
  rfl

/-- The station of an echo is in RUN, or MUTED from RUN, and takes the frame as its own. -/
theorem State.Echoes.ready {s : State} {l : LineHdr} {b : Body} (h : s.Echoes l b) :
    (s.endOwn b).loader.state.base = .run ∧ (s.endOwn b).passesFilter l b = true ∧ (s.endOwn b).isOwn l = true := by
  refine ⟨State.Delivers.base (s := s) (.inr h), h.filter, ?_⟩
  simp [State.isOwn, State.endOwn, h.own]

/-- The echo ends the transmission and refreshes the own entry (R12, R13, R28). -/
theorem ownFrames_echo (s : State) (l : LineHdr) (b : Body) (hr : s.resetAsserted = false)
    (hl : s.loader.state ≠ .loading) (tx : s.line.tx = some ⟨l, b⟩) (line : l.inRange = true)
    (body : b.inRange = true) (sound : s.RosterSound) : ∃ t, exec (frameCommand l.rx b) s = .next t ∧ t.line.tx = none ∧
      t.line.yieldMark = (s.line.yieldMark || !b.urgent) ∧ t.loader = s.loader ∧
      (t.rosterAt l.sender).presence = .present ∧ (t.rosterAt l.sender).lastHeard = some l.stamp := by
  have only := ((s.endOwn b).deliver_only l b).same
  have entry := State.deliver_rosterAt (s := s.endOwn b) sound l b l.sender (LineHdr.sender_lt line)
  rw [if_pos rfl] at entry
  refine ⟨(s.endOwn b).deliver l b, ?_, (congrArg (fun t => t.line.tx) only :),
    (congrArg (fun t => t.line.yieldMark) only :), (congrArg State.loader only :), ?_, ?_⟩
  · rw [exec_frameCommand, State.receive_echo hr hl tx line body]; rfl
  · rw [entry]; rfl
  · rw [entry]; rfl

/-- A body of an attempt whose kind names a header has that header. -/
theorem Body.hdr_void {b : Body} {h k : AttemptHdr} {why : VoidReason} (hd : b.hdr? = some h) (e : b = .void k why) :
    k = h := by subst e; exact Option.some.inj hd

theorem Body.hdr_phase {b : Body} {h k : AttemptHdr} {p : Phase} {g n c : Nat} (hd : b.hdr? = some h)
    (e : b = .phase k p g n c) : k = h := by subst e; exact Option.some.inj hd

/-- At an echo, the record of a known attempt moves as R36 and R38 give, and an own RESULT is PUBLISHED (R39, R147). -/
theorem ownFrames_known (s : State) (l : LineHdr) (b : Body) (h : AttemptHdr) (r : AttemptRecord) (e : s.Echoes l b)
    (hd : b.hdr? = some h) (k : s.attempt? h.attempt = some r) :
    ∃ t r', exec (frameCommand l.rx b) s = .next t ∧ t.attempt? h.attempt = some r' ∧ r'.hdr = r.hdr ∧
      (r.state = .void → r'.state = .void) ∧
      (r.state ≠ .void → (∃ why, b = .void h why) → r'.state = .void) ∧
      (r.state = .green → (∃ p g n c, b = .phase h p g n c ∧ (p = .red ∨ p = .amber)) →
        r'.state = .called) ∧
      (r.state ≠ .void → (∀ why, b ≠ .void h why) →
        ¬(r.state = .green ∧ ∃ p g n c, b = .phase h p g n c ∧ (p = .red ∨ p = .amber)) →
        r'.state = if r.state.rank < (impliedState b).rank then impliedState b else r.state) ∧
      (∀ (res : ResultPayload) (p : ScoringPart) (v : Nat), b = .result res → s.loader.roles.jury = true →
        r.state ≠ .void → r.scoring = some p → p.stage = .sent → p.revision = some v → v ≤ res.revision →
        ∃ p', r'.scoring = some p' ∧ p'.stage = .published ∧ p'.copy = none ∧ p'.revision = some v ∧
          p'.computed = p.computed ∧ p'.marks = p.marks) := by
  obtain ⟨base, filter, own⟩ := e.ready
  obtain ⟨r', kr, hdr, state⟩ := State.deliver_known base filter own hd k
  obtain ⟨m1, m2, m3, m4⟩ := r.take_moves l b
  rw [← state] at m1 m2 m3 m4
  refine ⟨_, r', e.exec, kr, hdr, m1, fun nv ⟨why, eb⟩ => m2 nv ⟨h, why, eb⟩,
    fun g ⟨p, g', n, c, eb, ep⟩ => m3 g ⟨h, p, g', n, c, eb, ep⟩, fun nv no np => m4 nv (fun h' why eb => ?_) ?_, ?_⟩
  · exact no why (Body.hdr_void hd eb ▸ eb)
  · rintro ⟨g, h', p, g', n, c, eb, ep⟩
    exact np ⟨g, p, g', n, c, Body.hdr_phase hd eb ▸ eb, ep⟩
  · rintro res p v rfl jury nv hp sent rev le
    obtain rfl : res.hdr = h := Option.some.inj hd
    obtain ⟨r'', p', kr', facts⟩ := State.deliver_own_result base filter own jury k nv hp sent rev le
    obtain rfl := Option.some.inj (kr.symm.trans kr')
    exact ⟨p', facts⟩

/-- At an echo, the own CALL of the jury and the own PHASE of a START station without JURY create the record of an unknown
attempt, and no other own frame of theirs does (R40, R41). -/
theorem ownFrames_unknown (s : State) (l : LineHdr) (b : Body) (h : AttemptHdr) (e : s.Echoes l b)
    (hd : b.hdr? = some h) (k : s.attempt? h.attempt = none) (room : s.table.length < 8) :
    ∃ t, exec (frameCommand l.rx b) s = .next t ∧
      ((∃ g, b = .call h g) ∧ s.loader.roles.jury = true ∨
          (∃ p g n c, b = .phase h p g n c) ∧ s.loader.roles.start = true ∧ s.loader.roles.jury = false →
        ∃ r, t.attempt? h.attempt = some r ∧ r.hdr = h ∧ r.state = impliedState b ∧ r.created = l.stamp ∧
          (∀ g, (b = .call h g ∨ ∃ p n c, b = .phase h p g n c) →
            r.juryGate = some g ∧ r.gateUsed = some g) ∧
          t.table.map (·.hdr) = s.table.map (·.hdr) ++ [h]) ∧
      ((∀ g, b ≠ .call h g) ∧ s.loader.roles.jury = true ∨
          (∀ p g n c, b ≠ .phase h p g n c) ∧ s.loader.roles.start = true ∧ s.loader.roles.jury = false →
        t.attempt? h.attempt = none ∧ t.table.map (·.hdr) = s.table.map (·.hdr)) := by
  obtain ⟨base, filter, own⟩ := e.ready
  refine ⟨_, e.exec, fun c => ?_, fun c => ?_⟩
  · have may : (s.endOwn b).mayCreate ((s.endOwn b).isOwn l) b = true := by
      rw [own]
      unfold State.mayCreate State.endOwn
      rcases c with ⟨⟨g, rfl⟩, j⟩ | ⟨⟨p, g, n, c, rfl⟩, st, j⟩
      · simp [j]
      · simp [j, st]
    obtain ⟨r, kr, bare, hdrs⟩ := State.deliver_created base filter hd k room may
    obtain ⟨nh, ns, nc⟩ := newRecord_keeps h l b
    refine ⟨r, kr, (congrArg AttemptRecord.hdr bare :).trans nh, (congrArg AttemptRecord.state bare :).trans ns,
      (congrArg AttemptRecord.created bare :).trans nc, fun g eg => ?_, hdrs⟩
    obtain ⟨jg, gu⟩ := newRecord_gates (l := l) eg
    exact ⟨(congrArg AttemptRecord.juryGate bare :).trans jg, (congrArg AttemptRecord.gateUsed bare :).trans gu⟩
  · refine State.deliver_ignored base filter hd k ?_
    unfold State.mayCreate State.endOwn
    rcases c with ⟨no, j⟩ | ⟨no, st, j⟩
    · cases b with
      | call h' g => exact absurd (by rw [Option.some.inj hd]) (no g)
      | _ => simp [j]
    · cases b with
      | phase h' p g n c => exact absurd (by rw [Option.some.inj hd]) (no p g n c)
      | _ => simp [j, st]

/-- A frame of the station's own number that it did not send: it is muted, once (R4, R26, R81). -/
theorem ownFrames_duplicate {s : State} {l : LineHdr} {b : Body} (hr : s.resetAsserted = false)
    (hl : s.loader.state ≠ .loading) (tx : s.line.tx = none) (rx : s.line.rx.skipping = false) (line : l.inRange = true)
    (body : b.inRange = true) (own : l.sender = s.loader.station) : exec (frameCommand l.rx b) s =
      .next (if s.loader.state.isMuted then { s with line := s.line.heard b }
        else ({ s with line := s.line.heard b } : State).mute b.kind) := by
  have range : (l.rx.stamped (s.startStamp b)).inRange = true := line
  have mine : ({ s with line := s.line.heard b } : State).isOwn (l.rx.stamped (s.startStamp b)) = true := by
    show (l.sender == s.loader.station) = true
    simpa using own
  rw [exec_frameCommand]
  unfold State.receive
  rw [if_neg (by simp [hr]), if_neg (by simp [hl]), tx]
  dsimp only
  rw [if_neg (by simp [rx]), if_pos (by rw [range, body]; rfl)]
  unfold State.hearOther
  dsimp only
  rw [if_pos mine]

/-- Settles O15: the echo (`ownFrames_echo`), the records (`ownFrames_known`, `ownFrames_unknown`), the LANDING
(`State.deliver_own_landing`), and the duplicate station (`ownFrames_duplicate`, `State.mute_form`). -/
theorem ownFramesEchoOrMute : Obligations.OwnFramesEchoOrMute := by
  refine ⟨fun s l b hr hl tx _ line body sound => ownFrames_echo s l b hr hl tx line body sound, ownFrames_known,
    ownFrames_unknown, fun s l h d q nt lc c e jury k sent => ?_, fun s l b hr state tx rx line body own => ?_,
    fun s l b fromRun hr state tx rx line body own => ?_⟩
  · obtain ⟨base, filter, mine⟩ := e.ready
    exact ⟨_, e.exec, State.deliver_own_landing base filter mine jury k sent⟩
  · have hl : s.loader.state ≠ .loading := by rcases state with e | e <;> simp [e]
    have un : s.loader.state.isMuted = false := by rcases state with e | e <;> rw [e] <;> rfl
    refine ⟨_, ownFrames_duplicate hr hl tx rx line body own, ?_⟩
    rw [un, if_neg (by simp)]
    obtain ⟨start, console, form, facts⟩ := ({ s with line := s.line.heard b } : State).mute_form b.kind
    rw [form]
    refine ⟨congrArg (fun v => { s.loader with state := .muted v }) ?_, rfl, rfl, rfl, rfl, rfl, rfl, rfl, facts, rfl⟩
    rcases state with e | e <;> simp [e]
  · have hl : s.loader.state ≠ .loading := by simp [state]
    have muted : s.loader.state.isMuted = true := by rw [state]; rfl
    rw [ownFrames_duplicate hr hl tx rx line body own, if_pos muted, ← lineUs_eq]
    rfl

end Sys2Proof.Machine
end

section
/-! The cadences, the content of a STATUS, and the copies that its echo offers again (R16, R17, R27, R31, R69). -/

namespace Sys2Proof.Machine

open Sys2Proof

/-! ## The cadences (R16, R17) -/

/-- Both cadences set their next time one period later, and offer a frame; before their time they do nothing. -/
theorem cadences_offer :
    (∀ (s : State) (e : Tick), s.line.nextStatus = some e → reached s.clock e = true →
      exec .statusOffer s = .next
        (({ s with line := { s.line with nextStatus := some (e + 2500) } } : State).offer (.status s.statusNow) none)) ∧
    (∀ (s : State) (e : Tick), s.line.nextCorridor = some e → reached s.clock e = true →
      exec .corridorOffer s = .next
        (({ s with line := { s.line with nextCorridor := some (e + 10000) } } : State).offer s.corridorBody none)) ∧
    (∀ s : State, expired s.clock s.line.nextStatus = false → exec .statusOffer s = .next s) ∧
    (∀ s : State, expired s.clock s.line.nextCorridor = false → exec .corridorOffer s = .next s) := by
  refine ⟨fun s e n r => ?_, fun s e n r => ?_, fun s x => ?_, fun s x => ?_⟩
  · show execStatusOffer s = _
    unfold execStatusOffer
    rw [if_pos (by rw [n]; exact r)]
    unfold State.modLine
    dsimp only
    rw [n]
    rfl
  · show execCorridorOffer s = _
    unfold execCorridorOffer
    rw [if_pos (by rw [n]; exact r)]
    dsimp only
    rw [n]
    rfl
  · show execStatusOffer s = _
    unfold execStatusOffer
    rw [if_neg (by simp [x])]
  · show execCorridorOffer s = _
    unfold execCorridorOffer
    rw [if_neg (by simp [x])]

/-- The mean of the components of some samples (R105). -/
theorem meanOf_map (xs : List Sample) (f : Sample → Int) :
    meanOf (xs.map f) = if xs = [] then 0 else roundHalfAway (xs.map f).sum xs.length := by
  cases xs <;> simp [meanOf]

/-- The CORRIDOR formed now, over the samples of the window (R104, R105). -/
theorem State.corridorBody_eq (s : State) (used : List Sample)
    (h : used = s.wind.ring.filter (fun x => 0 ≤ since s.clock x.time &&
      since s.clock x.time < (s.loader.consts.corridor.windowS : Int) * 10000)) :
    s.corridorBody = .corridor s.loader.mast
      (if used = [] then 0 else roundHalfAway (used.map Sample.x).sum used.length)
      (if used = [] then 0 else roundHalfAway (used.map Sample.y).sum used.length)
      used.length
      { held := used.any Sample.held
        stale := decide (2 * used.length < s.loader.consts.corridor.windowS * 10) || !s.wind.stable
        service := decide (s.wind.master = MasterSelect.console) } := by
  have window : corridorSamples s.clock s.loader.consts.corridor.windowS s.wind.ring = used := by
    rw [h]
    unfold corridorSamples
    simp
  have service : (s.wind.master == .console) = decide (s.wind.master = .console) := by
    cases s.wind.master <;> rfl
  unfold State.corridorBody
  dsimp only
  rw [window, meanOf_map, meanOf_map, service]

/-! ## The content of a STATUS (R27, R31) -/

theorem BarrierState.isStuck_iff (b : BarrierState) : b.isStuck = true ↔ b = .stuck := by
  cases b <;> simp [BarrierState.isStuck]

/-- The sources of DEGRADED (R31). -/
theorem State.degraded_iff (s : State) : s.degraded = true ↔
    (s.loader.roles.mast = true ∧ s.wind.bus.hungSource = true) ∨
    (s.loader.roles.span = true ∧ s.span.heard = false) ∨
    (s.loader.roles.start = true ∧ (s.start.barrier = .stuck ∨ s.start.failed ≠ {})) ∨
    (s.loader.roles.edge = true ∧ (s.edge.a = .stuck ∨ s.edge.b = .stuck ∨ s.edge.t = .stuck)) := by
  have failed : s.start.failed.isEmpty = false ↔ s.start.failed ≠ {} := by
    rw [← Bool.not_eq_true, LampSet.isEmpty_iff]
  unfold State.degraded State.anyStuck
  simp only [Bool.or_eq_true, Bool.and_eq_true, Bool.not_eq_true', BarrierState.isStuck_iff, failed]
  tauto

/-- The condition (R27, R31). -/
theorem State.condition_iff (s : State) :
    (s.loader.state = .invalid → s.condition = .invalid) ∧
    (s.loader.state = .run → (s.condition = .degraded ↔ s.degraded = true)) ∧
    (s.loader.state = .run → s.condition ≠ .invalid) := by
  unfold State.condition
  refine ⟨fun h => by rw [h]; rfl, fun h => ?_, fun h => ?_⟩ <;> rw [h] <;> cases s.degraded <;>
    simp [StationState.base]

/-- The EDGE part says that no barrier is STUCK (R83). -/
theorem EdgeState.none_stuck (e : EdgeState) : (!(e.a.isStuck || e.b.isStuck || e.t.isStuck)) =
    decide (e.a ≠ .stuck ∧ e.b ≠ .stuck ∧ e.t ≠ .stuck) := by
  rw [Bool.eq_iff_iff]
  simp [← BarrierState.isStuck_iff, and_assoc]

/-! ## Copies offered again (R69, R89, R109, R120, R128, R147, R149, R161, R165) -/

/-- What an offer leaves on the line depends on the line and the station's state alone. -/
theorem State.offer_line_congr {s t : State} (d : t.loader = s.loader) (n : t.line = s.line) (b : Body)
    (e : Option Tick) : (t.offer b e).line = (s.offer b e).line := by
  unfold State.offer State.offerFate
  simp only [d, n]

theorem State.reofferKept_line_congr {s t : State} (d : t.loader = s.loader) (n : t.line = s.line)
    (ks : List KeptFrame) : (t.reofferKept ks).line = (s.reofferKept ks).line := by
  unfold State.reofferKept
  induction ks generalizing s t with
  | nil => exact n
  | cons k ks ih => exact ih (by simp [d]) (State.offer_line_congr d n _ _)

/-- From `s` to `t` the frames `ks` are offered, in order, and no other, and nothing but the outbox changes. -/
structure Reoffers (ks : List KeptFrame) (s t : State) : Prop where
  only : OnlyOut s t
  line : t.line = (s.reofferKept ks).line

namespace Reoffers

variable {ks js : List KeptFrame} {s t u : State}

theorem refl (s : State) : Reoffers [] s s := ⟨.refl blockOut s, rfl⟩

theorem trans (h : Reoffers ks s t) (k : Reoffers js t u) : Reoffers (ks ++ js) s u := by
  have d : t.loader = (s.reofferKept ks).loader :=
    (congrArg State.loader h.only.same :).trans
      (congrArg State.loader ((Only.refl blockOut s).reofferKept ks).same :).symm
  refine ⟨h.only.trans k.only, k.line.trans ((State.reofferKept_line_congr d h.line js).trans ?_)⟩
  unfold State.reofferKept
  rw [List.foldl_append]

theorem kept (ks : List KeptFrame) (s : State) : Reoffers ks s (s.reofferKept ks) :=
  ⟨(Only.refl blockOut s).reofferKept ks, rfl⟩

theorem reoffer (k : Option KeptFrame) (s : State) : Reoffers k.toList s (s.reoffer k) := by
  cases k with
  | none => exact .refl s
  | some f => exact .kept [f] s

theorem raise (h : Reoffers ks s t) (n : NoticeBody) : Reoffers ks s (t.raise n) :=
  ⟨h.only.raise n, (by simp : (t.raise n).line = t.line).trans h.line⟩

/-- Several frames, each offered by its own act. -/
theorem foldl {α : Type} {f : State → α → State} (g : α → KeptFrame) (step : ∀ u a, Reoffers [g a] u (f u a))
    (as : List α) (s : State) : Reoffers (as.map g) s (as.foldl f s) := by
  induction as generalizing s with
  | nil => exact .refl s
  | cons a as ih => exact (step s a).trans (ih _)

theorem all (bs : List Body) (s : State) : Reoffers (bs.map (⟨·, none⟩)) s (s.reofferAll bs) :=
  foldl (fun b => (⟨b, none⟩ : KeptFrame)) (fun u b => .kept [⟨b, none⟩] u) bs s

/-- The next block offers the copies that it kept at first: its state is not in the outbox. -/
theorem andThen (h : Reoffers ks s t) (copies : State → List KeptFrame)
    (own : ∀ x y, copies (restoreOut x y) = copies y) (k : Reoffers (copies t) t u) :
    Reoffers (ks ++ copies s) s u := by
  have e : copies t = copies s := (own s t).symm.trans (congrArg copies h.only.same)
  exact h.trans (e ▸ k)

/-- A block offers its copies where the station holds its role. -/
theorem ifRole (role : RoleSet → Bool) {act : State → State} (k : Reoffers ks s (act s)) :
    Reoffers (if role s.loader.roles then ks else []) s (s.ifRole role act) := by
  unfold State.ifRole
  split
  · exact k
  · exact .refl s

end Reoffers

/-! ## The copies of each block -/

/-- The copy of a PHASE GREEN goes out with the countdown's value now (R69). -/
def KeptFrame.withSeconds (shown : Nat) : KeptFrame → KeptFrame
  | ⟨.phase h .green g _ n, e⟩ => ⟨.phase h .green g shown n, e⟩
  | k => k

def State.startCopies (s : State) : List KeptFrame :=
  if s.loader.roles.start then
    s.start.keptLeave.toList ++
    s.start.keptPhase.toList.map (·.withSeconds s.start.shown) ++ s.start.keptVoid.toList else []

def State.edgeCopies (s : State) : List KeptFrame :=
  if s.loader.roles.edge then s.edge.keptSpeed.toList ++ s.edge.keptTakeoff.toList else []

def State.windCopies (s : State) : List KeptFrame :=
  if s.loader.roles.mast then (s.wind.means.filterMap (·.copy)).map (⟨·, none⟩) else []

def State.spanCopies (s : State) : List KeptFrame := if s.loader.roles.span then s.span.kept else []

def State.landingCopies (s : State) : List KeptFrame :=
  if s.loader.roles.jury then s.contexts.filterMap (·.copy) else []

def State.scoringCopies (s : State) : List KeptFrame :=
  if s.loader.roles.jury then
    ((s.table.filterMap (·.scoring)).filterMap (·.copy)).map (⟨.result ·, none⟩) ++
    s.scoring.voidCopies.map (fun v => ⟨.void v.hdr v.reason, none⟩) else []

def State.standingsCopies (s : State) : List KeptFrame :=
  if s.loader.roles.jury then
    (s.standings.eventCopy.toList ++ s.standings.roundCopies).map (⟨·, none⟩) else []

/-- The copies that the blocks keep, block by block. -/
theorem State.keptCopies_eq (s : State) : s.keptCopies = s.startCopies ++ s.edgeCopies ++ s.windCopies ++
    s.spanCopies ++ s.landingCopies ++ s.scoringCopies ++ s.standingsCopies := by
  have seconds : (fun k : KeptFrame => match k.body with
      | .phase h .green g _ n => (⟨.phase h .green g s.start.shown n, k.eventTime⟩ : KeptFrame)
      | _ => k) = (·.withSeconds s.start.shown) := by
    funext ⟨b, e⟩
    unfold KeptFrame.withSeconds
    split <;> simp_all
  unfold State.startCopies
  rw [← seconds]
  unfold State.keptCopies State.edgeCopies State.windCopies State.spanCopies State.landingCopies State.scoringCopies
    State.standingsCopies
  cases s.loader.roles.jury <;> simp only [Bool.false_eq_true, if_true, if_false, List.append_assoc, List.append_nil] <;>
    rfl

/-- The kept PHASE is offered again as any kept frame, with its seconds renewed (R69). -/
theorem State.reofferPhase_eq (u : State) :
    u.reofferPhase = u.reoffer (u.start.keptPhase.map (·.withSeconds u.start.shown)) := by
  unfold State.reofferPhase
  split
  · rename_i k
    rw [k]; rfl
  · rename_i k
    congr 1
    cases c : u.start.keptPhase with
    | none => rfl
    | some f =>
      refine congrArg some (Eq.symm ?_)
      dsimp only
      unfold KeptFrame.withSeconds
      split
      · exact absurd c (k _ _ _ _ _)
      · rfl

/-! ## The echo of the station's own STATUS -/

section ownStatus

variable {s : State} {l : LineHdr} (own : s.isOwn l = true) (p : StatusPayload)

include own

/-- The sequencer offers LEAVE, PHASE and VOID again, a PHASE GREEN with the countdown's value now (R69). -/
theorem Reoffers.startTake (count : s.loader.roles.start = true → s.start.backlog = s.countBacklog) :
    Reoffers s.startCopies s (s.ifRole (·.start) (·.startTake l (.status p))) := by
  by_cases r : s.loader.roles.start = true
  · have still : s.recountBacklog = s := by
      unfold State.recountBacklog
      rw [if_neg (by simp [count r])]
    have phase : ∀ u : State, u.start = s.start →
        Reoffers (s.start.keptPhase.toList.map (·.withSeconds s.start.shown)) u u.reofferPhase := by
      intro u e
      rw [State.reofferPhase_eq, e, ← Option.toList_map]
      exact .reoffer _ u
    refine Reoffers.ifRole (·.start) ?_
    show Reoffers _ s (s.recountBacklog.startFrame l (.status p))
    rw [still]
    show Reoffers _ s (if s.isOwn l then s.startOwnStatus else s)
    rw [if_pos own]
    have first := Reoffers.reoffer s.start.keptLeave s
    have e1 : (s.reoffer s.start.keptLeave).start = s.start := (congrArg State.start first.only.same :)
    have two := first.trans (phase _ e1)
    exact two.andThen (fun u => u.start.keptVoid.toList) (fun _ _ => rfl) (.reoffer _ _)
  · unfold State.startCopies State.ifRole
    rw [if_neg r, if_neg r]
    exact .refl s

/-- The edge timer offers SPEED and TAKEOFF again (R89). -/
theorem Reoffers.edgeFrame : Reoffers s.edgeCopies s (s.ifRole (·.edge) (·.edgeFrame l (.status p))) := by
  refine Reoffers.ifRole (·.edge) ?_
  unfold State.edgeFrame
  rw [if_pos own]
  have first := Reoffers.reoffer s.edge.keptSpeed s
  exact first.andThen (fun u => u.edge.keptTakeoff.toList) (fun _ _ => rfl) (.reoffer _ _)

/-- The wind unit offers every MASTMEAN again (R109). -/
theorem Reoffers.windFrame : Reoffers s.windCopies s (s.ifRole (·.mast) (·.windFrame l (.status p))) := by
  refine Reoffers.ifRole (·.mast) ?_
  show Reoffers _ s (if s.isOwn l then _ else s)
  rw [if_pos own]
  exact .all _ s

/-- The span unit offers its frames again, in the order of their first offers (R120). -/
theorem Reoffers.spanFrame : Reoffers s.spanCopies s (s.ifRole (·.span) (·.spanFrame l (.status p))) := by
  refine Reoffers.ifRole (·.span) ?_
  unfold State.spanFrame
  rw [if_pos own]
  exact .kept _ s

/-- The landing resolver offers every LANDING again (R128). -/
theorem Reoffers.landingFrame : Reoffers s.landingCopies s (s.ifRole (·.jury) (·.landingFrame l (.status p))) := by
  refine Reoffers.ifRole (·.jury) ?_
  show Reoffers _ s (if s.isOwn l then _ else s)
  rw [if_pos own]
  exact .kept _ s

/-- The scoring unit offers every RESULT and every VOID again (R147, R149). -/
theorem Reoffers.scoringFrame (manual : Option Nat) :
    Reoffers s.scoringCopies s (s.ifRole (·.jury) (·.scoringFrame l (.status p) manual)) := by
  refine Reoffers.ifRole (·.jury) ?_
  show Reoffers _ s (if s.isOwn l then s.scoringReoffer else s)
  rw [if_pos own]
  have results := Reoffers.foldl (f := State.sendResult) (fun r => (⟨.result r, none⟩ : KeptFrame))
    (fun u r => (Reoffers.kept [⟨.result r, none⟩] u).raise _) ((s.table.filterMap (·.scoring)).filterMap (·.copy)) s
  exact results.trans (Reoffers.foldl (f := State.sendVoid) (fun v => (⟨.void v.hdr v.reason, none⟩ : KeptFrame))
    (fun u v => (Reoffers.kept [⟨.void v.hdr v.reason, none⟩] u).raise _) s.scoring.voidCopies _)

/-- The standings unit of the jury station offers EVENT and every ROUND again (R161, R165). -/
theorem Reoffers.standingsTake : Reoffers s.standingsCopies s
    (s.ifRole (fun r => r.jury || r.board) (·.standingsTake l (.status p) [])) := by
  unfold State.ifRole State.standingsCopies
  dsimp only
  show Reoffers _ s (if _ then (if s.loader.roles.jury && s.isOwn l then s.standingsOwnStatus else s) else s)
  rw [own]
  by_cases j : s.loader.roles.jury = true
  case neg =>
    rw [if_neg j, if_neg (c := (s.loader.roles.jury && true) = true) (by simp [j]), ite_self]
    exact .refl s
  · have event := Reoffers.all s.standings.eventCopy.toList s
    have both := event.trans (.all s.standings.roundCopies _)
    simpa [j, State.standingsOwnStatus] using both

end ownStatus

theorem State.boardStatus_line (s : State) (q : StartPart) : (s.boardStatus q).line = s.line := by
  unfold State.boardStatus
  dsimp only
  split
  · split
    · rfl
    · exact ((ShowsOnly.refl _).recompose _).line
  · split
    · exact (((ShowsOnly.refl _).arrive _).recompose _).line
    · split
      · exact (((ShowsOnly.refl _).removePages _).recompose _).line
      · exact ((ShowsOnly.refl _).recompose _).line

/-- A STATUS at the board offers nothing (R176). -/
theorem State.boardTake_status_line (s : State) (before : StandingsState) (l : LineHdr) (p : StatusPayload) :
    (s.boardTake before l (.status p) []).line = s.line := by
  have list := (ShowsOnly.refl s).boardListChange before
  show (if (s.boardListChange before).fromStart l then
    p.start.elim (s.boardListChange before) (s.boardListChange before).boardStatus
    else s.boardListChange before).line = s.line
  split
  · cases p.start with
    | none => exact list.line
    | some q => exact (State.boardStatus_line _ q).trans list.line
  · exact list.line

/-- The blocks offer at the echo of the station's own STATUS what they keep, one after another. -/
theorem State.handFrame_ownStatus {s : State} {l : LineHdr} (own : s.isOwn l = true) (p : StatusPayload)
    (count : s.loader.roles.start = true → s.start.backlog = s.countBacklog) :
    (s.handFrame l (.status p) []).line = (s.reofferKept s.keptCopies).line := by
  obtain ⟨s1, s2, s3, s4, s5, s6, s7, ⟨e1, -⟩, ⟨e2, -⟩, ⟨e3, -⟩, ⟨e4, -⟩, ⟨e5, -⟩, ⟨e6, -⟩, ⟨e7, -⟩, e8, -⟩ :=
    s.handFrame_stages l (.status p) []
  have mine : ∀ {ks} {t : State}, Reoffers ks s t → t.isOwn l = true := fun h => by
    exact (congrArg (fun u => u.isOwn l) h.only.same : _).trans own
  have k1 : Reoffers s.startCopies s s1 := e1 ▸ Reoffers.startTake own p count
  have k2 := k1.andThen State.edgeCopies (fun _ _ => rfl) (e2 ▸ Reoffers.edgeFrame (mine k1) p : Reoffers _ s1 s2)
  have k3 := k2.andThen State.windCopies (fun _ _ => rfl) (e3 ▸ Reoffers.windFrame (mine k2) p : Reoffers _ s2 s3)
  have k4 := k3.andThen State.spanCopies (fun _ _ => rfl) (e4 ▸ Reoffers.spanFrame (mine k3) p : Reoffers _ s3 s4)
  have k5 := k4.andThen State.landingCopies (fun _ _ => rfl)
    (e5 ▸ Reoffers.landingFrame (mine k4) p : Reoffers _ s4 s5)
  have k6 := k5.andThen State.scoringCopies (fun _ _ => rfl)
    (e6 ▸ Reoffers.scoringFrame (mine k5) p _ : Reoffers _ s5 s6)
  have k7 := k6.andThen State.standingsCopies (fun _ _ => rfl)
    (e7 ▸ Reoffers.standingsTake (mine k6) p : Reoffers _ s6 s7)
  rw [s.keptCopies_eq, ← k7.line, e8]
  unfold State.ifRole
  split
  · exact State.boardTake_status_line _ _ _ _
  · rfl

/-- The echo of the station's own STATUS that changes nothing in its roster entry but the time offers every copy kept
again, and no other frame. -/
theorem State.deliver_ownStatus {s : State} {l : LineHdr} {p : StatusPayload} (base : s.loader.state.base = .run)
    (own : s.isOwn l = true) (pres : (s.rosterAt l.sender).presence = .present)
    (same : (s.rosterAt l.sender).status.map (fun h => (h.payload.digest, h.payload.condition)) =
      some (p.digest, p.condition))
    (count : s.loader.roles.start = true → s.start.backlog = s.countBacklog)
    (event : s.line.eventNumber ≠ 0 ∨ s.loader.roles.jury = true ∨
      s.loader.consts.stationWith (·.jury) ≠ some l.sender) :
    (s.deliver l (.status p)).line = (s.reofferKept s.keptCopies).line := by
  rw [State.deliver_status base, State.rosterTake_quiet (b := .status p) pres same]
  generalize hu : ({ s with roster := _ } : State) = u
  have ud : u.loader = s.loader := by rw [← hu]
  have ul : u.line = s.line := by rw [← hu]
  have uo : u.isOwn l = true := by rw [← hu]; exact own
  have uc : u.loader.roles.start = true → u.start.backlog = u.countBacklog := by rw [← hu]; exact count
  have uk : u.keptCopies = s.keptCopies := by rw [← hu]; rfl
  have still : u.lineTake l (.status p) = u := by
    refine if_neg ?_
    unfold State.fromJury
    rw [ud, ul]
    rintro ⟨z, -, j, f⟩
    rcases event with e | e | e
    · exact e z
    · simp [e] at j
    · exact e (by simpa using f)
  rw [still, State.handFrame_ownStatus uo p uc, uk]
  exact State.reofferKept_line_congr ud ul _

end Sys2Proof.Machine
end

section
/-! A copy is dropped at its frame's own echo (R69, R89, R109, R120, R149, R161, R165). -/

namespace Sys2Proof.Machine

open Sys2Proof

/-! ## Which block takes the frame -/

/-- Each block that the station's roles give takes the frame at its own stage, and no later stage changes its state. -/
theorem State.handFrame_taken (s : State) (l : LineHdr) (b : Body) (cs : List Change) :
    (s.loader.roles.start = true → (s.handFrame l b cs).start = (s.startTake l b).start) ∧
    (s.loader.roles.edge = true → ∃ u : State, u.loader = s.loader ∧
      (s.handFrame l b cs).edge = (u.edgeFrame l b).edge) ∧
    (s.loader.roles.mast = true → ∃ u : State, u.loader = s.loader ∧
      (s.handFrame l b cs).wind = (u.windFrame l b).wind) ∧
    (s.loader.roles.span = true → ∃ u : State, u.loader = s.loader ∧
      (s.handFrame l b cs).span = (u.spanFrame l b).span) ∧
    (s.loader.roles.jury = true → ∃ (u : State) (manual : Option Nat), u.loader = s.loader ∧
      (s.handFrame l b cs).scoring = (u.scoringFrame l b manual).scoring) ∧
    (s.loader.roles.jury = true → ∃ u : State, u.loader = s.loader ∧
      (s.handFrame l b cs).standings = (u.standingsTake l b cs).standings) := by
  refine ⟨fun r => by rw [State.handFrame_start, State.ifRole, if_pos r], ?_⟩
  obtain ⟨s1, s2, s3, s4, s5, s6, s7, ⟨-, o1⟩, ⟨e2, o2⟩, ⟨e3, o3⟩, ⟨e4, o4⟩, ⟨-, o5⟩, ⟨e6, o6⟩, ⟨e7, o7⟩, -, o8⟩ :=
    s.handFrame_stages l b cs
  have d1 : s1.loader = s.loader := (congrArg State.loader o1.same :)
  have d2 : s2.loader = s.loader := (congrArg State.loader o2.same : _).trans d1
  have d3 : s3.loader = s.loader := (congrArg State.loader o3.same : _).trans d2
  have d4 : s4.loader = s.loader := (congrArg State.loader o4.same : _).trans d3
  have d5 : s5.loader = s.loader := (congrArg State.loader o5.same : _).trans d4
  have d6 : s6.loader = s.loader := (congrArg State.loader o6.same : _).trans d5
  have taken : ∀ (u : State) (role : RoleSet → Bool) (act : State → State), u.loader = s.loader →
      role s.loader.roles = true → u.ifRole role act = act u := fun u role act d r => by
    unfold State.ifRole
    rw [d, if_pos r]
  refine ⟨fun r => ⟨cs.foldl State.edgeChange s1, ?_, ?_⟩, fun r => ⟨cs.foldl State.windChange s2, ?_, ?_⟩,
    fun r => ⟨cs.foldl State.spanChange s3, ?_, ?_⟩,
    fun r => ⟨cs.foldl State.scoringChange s5, s.handedManual l b, ?_, ?_⟩, fun r => ⟨s6, d6, ?_⟩⟩
  · exact (congrArg State.loader (Only.foldl (fun h _ => h.edgeChange _) cs (.refl blockEdge s1)).same : _).trans d1
  · rw [← taken s1 (·.edge) (fun u => (cs.foldl State.edgeChange u).edgeFrame l b) d1 r, ← e2]
    calc (s.handFrame l b cs).edge = s7.edge := (congrArg State.edge o8.same :)
      _ = s6.edge := (congrArg State.edge o7.same :)
      _ = s5.edge := (congrArg State.edge o6.same :)
      _ = s4.edge := (congrArg State.edge o5.same :)
      _ = s3.edge := (congrArg State.edge o4.same :)
      _ = s2.edge := (congrArg State.edge o3.same :)
  · exact (congrArg State.loader (Only.foldl (fun h _ => h.windChange _) cs (.refl blockWind s2)).same : _).trans d2
  · rw [← taken s2 (·.mast) (fun u => (cs.foldl State.windChange u).windFrame l b) d2 r, ← e3]
    calc (s.handFrame l b cs).wind = s7.wind := (congrArg State.wind o8.same :)
      _ = s6.wind := (congrArg State.wind o7.same :)
      _ = s5.wind := (congrArg State.wind o6.same :)
      _ = s4.wind := (congrArg State.wind o5.same :)
      _ = s3.wind := (congrArg State.wind o4.same :)
  · exact (congrArg State.loader (Only.foldl (fun h _ => h.spanChange _) cs (.refl blockSpan s3)).same : _).trans d3
  · rw [← taken s3 (·.span) (fun u => (cs.foldl State.spanChange u).spanFrame l b) d3 r, ← e4]
    calc (s.handFrame l b cs).span = s7.span := (congrArg State.span o8.same :)
      _ = s6.span := (congrArg State.span o7.same :)
      _ = s5.span := (congrArg State.span o6.same :)
      _ = s4.span := (congrArg State.span o5.same :)
  · exact (congrArg State.loader (OnlyScoring.foldl (fun h _ => h.scoringChange _) cs (.refl s5)).same : _).trans d5
  · rw [← taken s5 (·.jury) (fun u => (cs.foldl State.scoringChange u).scoringFrame l b (s.handedManual l b)) d5 r,
      ← e6]
    calc (s.handFrame l b cs).scoring = s7.scoring := (congrArg State.scoring o8.same :)
      _ = s6.scoring := (congrArg State.scoring o7.same :)
  · rw [← taken s6 (fun r => r.jury || r.board) (fun u => u.standingsTake l b cs) d6 (by simp [r]), ← e7]
    exact (congrArg State.standings o8.same :)

/-! ## The sequencer's copies (R69) -/

theorem dropDelivered_ne {k : Option KeptFrame} {b : Body} {f : KeptFrame} (h : dropDelivered k b = some f) :
    f.body ≠ b := by
  unfold dropDelivered at h
  split at h
  · split at h
    · exact absurd h (by simp)
    · rename_i n
      rw [← Option.some.inj h]; exact n
  · exact absurd h (by simp)

theorem State.reoffer_start (s : State) (k : Option KeptFrame) : (s.reoffer k).start = s.start := by
  unfold State.reoffer
  split <;> simp

/-- The end of a cycle keeps the VOID (R68, R69). -/
theorem State.endCycle_keptVoid (s : State) : s.endCycle.start.keptVoid = s.start.keptVoid :=
  (congrArg StartState.keptVoid (State.releaseHold_besides _ _) : _)

/-- At a PHASE delivered, the copy goes that is the same but for the seconds remaining (R69). -/
theorem State.startOwnPhase_keptPhase (s : State) (h : AttemptHdr) (p : Phase) (g sec n : Nat) :
    (s.startOwnPhase (.phase h p g sec n)).start.keptPhase =
      s.start.keptPhase.filter (fun k => !samePhase k.body (.phase h p g sec n)) := by
  have drop : ∀ k : Option KeptFrame, (if (match k with
        | some k => samePhase k.body (.phase h p g sec n)
        | none => false) then none else k) = k.filter (fun k => !samePhase k.body (.phase h p g sec n)) := fun k => by
    cases k with
    | none => rfl
    | some f => cases c : samePhase f.body (.phase h p g sec n) <;> simp [Option.filter, c]
  refine Eq.trans ?_ (drop s.start.keptPhase)
  unfold State.startOwnPhase
  dsimp only
  split
  · rw [State.reoffer_start]; rfl
  · rfl

/-- PHASE GONE at its own echo offers a LEAVE still kept again, and nothing else. -/
theorem State.startOwnPhase_gone {s : State} {k : KeptFrame} (h : AttemptHdr) (g sec n : Nat)
    (e : s.start.keptLeave = some k) :
    (s.startOwnPhase (.phase h .gone g sec n)).line = (s.offer k.body k.eventTime).line := by
  unfold State.startOwnPhase
  dsimp only
  show (State.reoffer _ s.start.keptLeave).line = _
  rw [e]
  exact State.offer_line_congr rfl rfl _ _

/-- The sequencer drops its copy of a LEAVE, VOID or PHASE at the frame's own echo. -/
theorem State.startTake_drops {s : State} {l : LineHdr} (own : s.isOwn l = true) :
    (∀ h o k, (s.startTake l (.leave h o)).start.keptLeave = some k → k.body ≠ .leave h o) ∧
    (∀ h why k, (s.startTake l (.void h why)).start.keptVoid = some k → k.body ≠ .void h why) ∧
    (∀ h p g sec n k sec', (s.startTake l (.phase h p g sec n)).start.keptPhase = some k →
      k.body ≠ .phase h p g sec' n) := by
  have mine : s.recountBacklog.isOwn l = true :=
    (congrArg (fun u => u.isOwn l) ((Only.refl blockStart s).recountBacklog).same : _).trans own
  refine ⟨fun h o k e => ?_, fun h why k e => ?_, fun h p g sec n k sec' e => ?_⟩
  · change (if s.recountBacklog.isOwn l then _ else _ : State).start.keptLeave = _ at e
    rw [if_pos mine] at e
    exact dropDelivered_ne e
  · have v : (s.startTake l (.void h why)).start.keptVoid =
        dropDelivered s.recountBacklog.start.keptVoid (.void h why) := by
      show (s.recountBacklog.startVoid l h (.void h why)).start.keptVoid = _
      unfold State.startVoid
      rw [if_pos (by simp [mine]), if_pos mine]
      dsimp only
      split
      · rw [State.endCycle_keptVoid]; rfl
      · rfl
    exact dropDelivered_ne (v ▸ e)
  · change (if s.recountBacklog.isOwn l then _ else _ : State).start.keptPhase = _ at e
    rw [if_pos mine] at e
    rw [State.startOwnPhase_keptPhase] at e
    rintro same
    have other := (Option.filter_eq_some_iff.1 e).2
    simp [samePhase, same] at other

/-! ## The other blocks' copies -/

/-- The edge timer drops its copy of a SPEED or TAKEOFF (R89). -/
theorem State.edgeFrame_drops {s : State} {l : LineHdr} (own : s.isOwn l = true) :
    (∀ h v k, (s.edgeFrame l (.speed h v)).edge.keptSpeed = some k → k.body ≠ .speed h v) ∧
    (∀ h n k, (s.edgeFrame l (.takeoff h n)).edge.keptTakeoff = some k → k.body ≠ .takeoff h n) := by
  refine ⟨fun h v k e => ?_, fun h n k e => ?_⟩ <;> unfold State.edgeFrame at e <;> rw [if_pos own] at e <;>
    exact dropDelivered_ne e

/-- The wind unit drops its copies of an attempt's MASTMEAN (R109). -/
theorem State.windFrame_drops {s : State} {l : LineHdr} (own : s.isOwn l = true) (h : AttemptHdr) (m : Nat)
    (x : Option Int) (n : Nat) (part : Bool) :
    ∀ r ∈ (s.windFrame l (.mastMean h m x n part)).wind.means, r.attempt = h.attempt → r.copy = none := by
  intro r mem a
  change r ∈ (if s.isOwn l then _ else s : State).wind.means at mem
  rw [if_pos own] at mem
  obtain ⟨q, -, rfl⟩ := List.mem_map.1 mem
  unfold MeanRecord.deliver at a ⊢
  split
  · rfl
  · rename_i ne
    rw [if_neg ne] at a
    exact absurd a ne

/-- The span unit drops its copy of an IN_VIEW, VIEW_LOST or CONTACT (R120). -/
theorem State.spanFrame_drops {s : State} {l : LineHdr} {b : Body} (own : s.isOwn l = true)
    (kind : (∃ h sp, b = .inView h sp) ∨ (∃ h sp why, b = .viewLost h sp why) ∨
      (∃ h sp track pos, b = .contact h sp track pos)) : ∀ k ∈ (s.spanFrame l b).span.kept, k.body ≠ b := by
  have e : s.spanFrame l b = s.modSpan (·.deliver b) := by
    unfold State.spanFrame
    rw [if_pos own]
    rcases kind with ⟨h, sp, rfl⟩ | ⟨h, sp, why, rfl⟩ | ⟨h, sp, track, pos, rfl⟩ <;> rfl
  intro k mem
  rw [e] at mem
  simpa using (List.mem_filter.1 mem).2

/-- The scoring unit drops its copy of a VOID (R149). -/
theorem State.scoringFrame_drops {s : State} {l : LineHdr} (own : s.isOwn l = true) (h : AttemptHdr) (why : VoidReason)
    (manual : Option Nat) : ∀ v ∈ (s.scoringFrame l (.void h why) manual).scoring.voidCopies, v ≠ ⟨h, why⟩ := by
  intro v mem
  change v ∈ (if s.isOwn l then _ else s : State).scoring.voidCopies at mem
  rw [if_pos own] at mem
  simpa using (List.mem_filter.1 mem).2

/-- The standings unit drops its copies of a ROUND, and of an EVENT (R161, R165). -/
theorem State.standingsTake_drops {s : State} {l : LineHdr} (own : s.isOwn l = true) (j : s.loader.roles.jury = true) :
    (∀ r m g, ∀ c ∈ (s.standingsTake l (.round r m g) []).standings.roundCopies, c ≠ .round r m g) ∧
    (∀ n m r cs, (s.standingsTake l (.event n m r) cs).standings.eventCopy = none) := by
  refine ⟨fun r m g c mem => ?_, fun n m r cs => ?_⟩
  · change c ∈ (s.standingsRound l (.round r m g) r m g).standings.roundCopies at mem
    unfold State.standingsRound at mem
    rw [if_pos j, if_pos own] at mem
    simpa using (List.mem_filter.1 mem).2
  · rw [State.standingsTake_event l n m r cs (by simp [own])]
    show (s.eventStandings l r).eventCopy = none
    unfold State.eventStandings
    rw [if_pos j, if_pos own]

/-! ## The echo -/

/-- A block drops its copy of a frame at the frame's own echo. -/
theorem State.Echoes.drops {s : State} {l : LineHdr} {b : Body} (e : s.Echoes l b) :
    ∃ t, Sys2Proof.Machine.exec (frameCommand l.rx b) s = .next t ∧
     (s.loader.roles.start = true →
       (∀ h o, b = .leave h o → ∀ k, t.start.keptLeave = some k → k.body ≠ b) ∧
       (∀ h why, b = .void h why → ∀ k, t.start.keptVoid = some k → k.body ≠ b) ∧
       (∀ h p g sec n, b = .phase h p g sec n →
         ∀ k sec', t.start.keptPhase = some k → k.body ≠ .phase h p g sec' n)) ∧
     (s.loader.roles.edge = true →
       (∀ h v, b = .speed h v → ∀ k, t.edge.keptSpeed = some k → k.body ≠ b) ∧
       (∀ h n, b = .takeoff h n → ∀ k, t.edge.keptTakeoff = some k → k.body ≠ b)) ∧
     (s.loader.roles.mast = true → ∀ h m x n part, b = .mastMean h m x n part →
       ∀ r ∈ t.wind.means, r.attempt = h.attempt → r.copy = none) ∧
     (s.loader.roles.span = true →
       (∃ h sp, b = .inView h sp) ∨ (∃ h sp why, b = .viewLost h sp why) ∨
         (∃ h sp track pos, b = .contact h sp track pos) →
       ∀ k ∈ t.span.kept, k.body ≠ b) ∧
     (s.loader.roles.jury = true →
       (∀ h why, b = .void h why → ∀ v ∈ t.scoring.voidCopies, v ≠ ⟨h, why⟩) ∧
       (∀ r m g, b = .round r m g → ∀ c ∈ t.standings.roundCopies, c ≠ b) ∧
       (∀ n m r, b = .event n m r → t.standings.eventCopy = none)) := by
  obtain ⟨base, filter, own⟩ := e.ready
  refine ⟨_, e.exec, ?_⟩
  rw [State.deliver_passed base filter]
  have loader : ((((s.endOwn b).rosterTake l b).lineTake l b).track l b).1.loader = s.loader :=
    (congrArg State.loader (OnlyDelivery.track (OnlyDelivery.lineTake
      (OnlyDelivery.rosterTake (.refl blockDelivery (s.endOwn b)) l b) l b) l b).same :)
  have changes : b.hdr? = none → (∀ n m r, b ≠ .event n m r) →
      ((((s.endOwn b).rosterTake l b).lineTake l b).track l b).2 = [] := fun h n => by
    unfold State.track
    split
    · exact absurd rfl (n _ _ _)
    · rw [h]
  generalize hv : (((s.endOwn b).rosterTake l b).lineTake l b).track l b = v at *
  obtain ⟨v, cs⟩ := v
  have mine : ∀ {u : State}, u.loader = v.loader → u.isOwn l = true := fun d => by
    show (l.sender == _) = true
    rw [d, loader]; exact own
  have taken := v.handFrame_taken l b cs
  dsimp only at loader ⊢
  rw [loader] at taken
  obtain ⟨start, edge, wind, span, scoring, standings⟩ := taken
  refine ⟨fun r => ?_, fun r => ?_, fun r => ?_, fun r => ?_, fun r => ?_⟩
  · rw [start r]
    obtain ⟨leave, void, phase⟩ := State.startTake_drops (mine (u := v) rfl)
    exact ⟨fun h o eb => eb ▸ leave h o, fun h why eb => eb ▸ void h why, fun h p g sec n eb => eb ▸ phase h p g sec n⟩
  · obtain ⟨u, du, eu⟩ := edge r
    rw [eu]
    obtain ⟨speed, takeoff⟩ := State.edgeFrame_drops (mine (du.trans loader.symm))
    exact ⟨fun h v eb => eb ▸ speed h v, fun h n eb => eb ▸ takeoff h n⟩
  · obtain ⟨u, du, eu⟩ := wind r
    rw [eu]
    rintro h m x n part rfl
    exact State.windFrame_drops (mine (du.trans loader.symm)) h m x n part
  · obtain ⟨u, du, eu⟩ := span r
    rw [eu]
    exact State.spanFrame_drops (mine (du.trans loader.symm))
  · obtain ⟨u, manual, du, eu⟩ := scoring r
    obtain ⟨w, dw, ew⟩ := standings r
    rw [eu, ew]
    obtain ⟨round, event⟩ := State.standingsTake_drops (mine (dw.trans loader.symm)) (by rw [dw]; exact r)
    refine ⟨?_, ?_, ?_⟩
    · rintro h why rfl
      exact State.scoringFrame_drops (mine (du.trans loader.symm)) h why manual
    · rintro r m g rfl
      obtain rfl : cs = [] := changes rfl (by simp)
      exact round r m g
    · rintro n m r rfl
      exact event n m r cs

end Sys2Proof.Machine
end

section
/-! The echo of PHASE GONE offers a kept LEAVE and nothing else (R69), and the statement about the cadences and the
content of a STATUS (O13). -/

namespace Sys2Proof.Machine

open Sys2Proof

/-! ## Acts that offer nothing -/

/-- A change that brings no record into the air: no view claim begins at it (R116). -/
def Change.grounded : Change → Prop
  | .removed _ => True
  | .entered r _ _ => r.state ≠ .airborne

/-- From `s` to `t` nothing is offered, and the sequencer keeps its phase and its LEAVE. -/
structure OffersNone (s t : State) : Prop where
  loader : t.loader = s.loader
  line : t.line = s.line
  phase : t.start.phase = s.start.phase
  leave : t.start.keptLeave = s.start.keptLeave

namespace OffersNone

variable {s t u : State}

theorem refl (s : State) : OffersNone s s := ⟨rfl, rfl, rfl, rfl⟩

theorem trans (h : OffersNone s t) (k : OffersNone t u) : OffersNone s u :=
  ⟨k.loader.trans h.loader, k.line.trans h.line, k.phase.trans h.phase, k.leave.trans h.leave⟩

theorem raise (h : OffersNone s t) (n : NoticeBody) : OffersNone s (t.raise n) :=
  h.trans ⟨by simp, by simp, by simp, by simp⟩

theorem report (h : OffersNone s t) (k : FaultKind) (d : Nat) : OffersNone s (t.report k d) :=
  h.trans ⟨by simp, by simp, by simp, by simp⟩

theorem withTable (h : OffersNone s t) (v : List AttemptRecord) : OffersNone s { t with table := v } :=
  h.trans ⟨rfl, rfl, rfl, rfl⟩

theorem ofHolds (k : HoldListOnly s t) : OffersNone s t := by
  have start := k.start
  refine ⟨?_, ?_, k.phase, by rw [start]⟩ <;> rw [k.form]

theorem ofBoard (k : OnlyBoard s t) (p : ShowsOnly s t) : OffersNone s t :=
  ⟨(congrArg State.loader k.same :), p.line, (congrArg (fun u => u.start.phase) k.same :),
    (congrArg (fun u => u.start.keptLeave) k.same :)⟩

theorem foldl {α : Type} {f : State → α → State} (as : List α) (step : ∀ u, ∀ a ∈ as, OffersNone u (f u a)) :
    ∀ s, OffersNone s (as.foldl f s) := by
  induction as with
  | nil => exact refl
  | cons a as ih => exact fun s => (step s a (by simp)).trans (ih (fun u b m => step u b (by simp [m])) _)

theorem ifRole (h : OffersNone s t) (role : RoleSet → Bool) {act : State → State}
    (k : role s.loader.roles = true → OffersNone t (act t)) : OffersNone s (t.ifRole role act) := by
  unfold State.ifRole
  split
  · rename_i r; exact h.trans (k (h.loader ▸ r))
  · exact h

/-- In GONE a new backlog count moves no phase (R62, R64, R72). -/
theorem recountBacklog (g : s.start.phase = .gone) : OffersNone s s.recountBacklog := by
  obtain ⟨backlog, holds, settleAt, notices, overrun, e⟩ :=
    State.recountBacklog_atRest (s := s) (by simp [StartState.atRest, g])
  rw [e]
  exact ⟨rfl, rfl, rfl, rfl⟩

/-! ### The blocks at a change of the table -/

theorem edgeChange (s : State) (c : Change) : OffersNone s (s.edgeChange c) := by
  cases c with
  | removed r =>
    show OffersNone s (if s.edge.runOf r.hdr.attempt then s.modEdge EdgeState.discardRun else s)
    split <;> exact ⟨rfl, rfl, rfl, rfl⟩
  | entered r before forced =>
    show OffersNone s (if r.state.edgeDone && s.edge.runOf r.hdr.attempt then s.modEdge EdgeState.discardRun else s)
    split <;> exact ⟨rfl, rfl, rfl, rfl⟩

theorem windChange (s : State) (c : Change) : OffersNone s (s.windChange c) := by
  cases c with
  | removed r => exact ⟨rfl, rfl, rfl, rfl⟩
  | entered r before forced =>
    unfold State.windChange
    dsimp only
    split <;> exact ⟨rfl, rfl, rfl, rfl⟩

theorem spanChange (s : State) {c : Change} (a : c.grounded) : OffersNone s (s.spanChange c) := by
  cases c with
  | removed r =>
    unfold State.spanChange
    dsimp only
    split <;> exact ⟨rfl, rfl, rfl, rfl⟩
  | entered r before forced =>
    unfold State.spanChange
    dsimp only
    rw [if_neg a]
    split <;> exact ⟨rfl, rfl, rfl, rfl⟩

end OffersNone

theorem ShowsOnly.boardChange {s t : State} (h : ShowsOnly s t) (byLanding : Bool) (c : Change) :
    ShowsOnly s (t.boardChange byLanding c) := by
  unfold State.boardChange
  split
  · exact h.removePages _
  · split
    · exact h.removePages _
    · exact h.removePages _
    · split
      · exact h.removePages _
      · exact h
    · exact h

theorem ShowsOnly.boardPhase {s t : State} (h : ShowsOnly s t) (l : LineHdr) (hd : AttemptHdr) (p : Phase) (n : Nat) :
    ShowsOnly s (t.boardPhase l hd p n) := by
  unfold State.boardPhase
  dsimp only
  split
  · exact h
  · split
    · exact h
    · split
      · exact h.arrive _
      · split
        · exact (h.mapPages _ _).recompose _
        · split
          · split
            · exact h.showPage _
            · exact h.mapPages _ _
          · exact h

theorem ShowsOnly.boardChanges (s : State) (byLanding : Bool) (cs : List Change) (before : StandingsState) :
    ShowsOnly s ((cs.foldl (fun s c => s.boardChange byLanding c) s).boardListChange before) := by
  refine boardListChange ?_ before
  induction cs generalizing s with
  | nil => exact .refl s
  | cons c cs ih => exact ((ShowsOnly.refl s).boardChange byLanding c).trans (ih _)

namespace OffersNone

variable {s t : State}

/-- Changes of the table that bring no record into the air, at a START station without JURY in GONE. -/
theorem handChanges (h : OffersNone s t) (j : s.loader.roles.jury = false) (g : s.start.phase = .gone) (l : LineHdr)
    (byLanding : Bool) {cs : List Change} (a : ∀ c ∈ cs, c.grounded) : OffersNone s (t.handChanges l byLanding cs) := by
  have no : ∀ {P : Prop}, s.loader.roles.jury = true → P := fun k => by simp [j] at k
  unfold State.handChanges
  refine ifRole (ifRole (ifRole (ifRole (ifRole (ifRole (ifRole (ifRole h _ fun _ => ?_) _ fun _ => ?_) _ fun _ => ?_) _
    fun _ => ?_) _ no) _ no) _ no) _ fun _ => ?_
  · exact recountBacklog (h.phase.trans g)
  · exact foldl cs (fun u c _ => edgeChange u c) _
  · exact foldl cs (fun u c _ => windChange u c) _
  · exact foldl cs (fun u c m => spanChange u (a c m)) _
  · exact ofBoard ((Only.foldl (f := fun s c => s.boardChange byLanding c) (fun h _ => h.boardChange _ _) cs
      (.refl blockBoard _)).boardListChange _) (ShowsOnly.boardChanges _ byLanding cs _)

/-! ### The roster and the tracker -/

/-- In GONE the roster's readers move no phase (R71). -/
theorem rosterTake (j : s.loader.roles.jury = false) (g : s.start.phase = .gone) (l : LineHdr) (b : Body) :
    OffersNone s (s.rosterTake l b) := by
  unfold State.rosterTake
  extract_lets e e' heard changed s1 s2 s3
  have k1 : OffersNone s s1 := ⟨rfl, rfl, rfl, rfl⟩
  have k2 : OffersNone s s2 := by
    unfold s2; split
    · exact k1.raise _
    · exact k1
  have k3 : OffersNone s s3 := by
    unfold s3; split
    · exact k2.raise _
    · exact k2
  split
  · unfold State.rosterReaders
    refine ifRole (ifRole k3 _ fun _ => ?_) _ fun k => by simp [j] at k
    exact ofHolds ((HoldListOnly.refl s3).evalRosterHolds (by simp [StartState.atRest, k3.phase, g]))
  · exact k3

theorem raiseChanges (h : OffersNone s t) (cs : List Change) : OffersNone s (t.raiseChanges cs) := by
  refine h.trans (foldl cs (fun u c _ => ?_) t)
  unfold State.raiseChange
  split
  · exact .refl u
  · exact (refl u).raise _

theorem forceOthers (h : OffersNone s t) (n : Nat) (put : Bool) : OffersNone s (t.forceOthers n put).1 := by
  unfold State.forceOthers
  split
  · exact h.withTable _
  · exact h

theorem addRecord (h : OffersNone s t) (r : AttemptRecord) : OffersNone s (t.addRecord r).1 :=
  ((h.withTable _).forceOthers _ _).raiseChanges _

theorem takeKnown (h : OffersNone s t) (own : Bool) (l : LineHdr) (b : Body) (hd : AttemptHdr) (r : AttemptRecord) :
    OffersNone s (t.takeKnown own l b hd r).1 := by
  unfold State.takeKnown
  extract_lets s1 r' s2
  have k1 : OffersNone s s1 := by
    unfold s1
    split
    · exact h
    · exact h.raise _
  have k2 : OffersNone s s2 := k1.withTable _
  split
  · exact k2
  · exact (k2.forceOthers _ _).raiseChanges _

theorem removeRecord (h : OffersNone s t) (j : s.loader.roles.jury = false) (g : s.start.phase = .gone) (l : LineHdr)
    (r : AttemptRecord) : OffersNone s (t.removeRecord l r) :=
  (h.withTable _).handChanges j g l false (by simp [Change.grounded])

theorem createRecord (h : OffersNone s t) (j : s.loader.roles.jury = false) (g : s.start.phase = .gone) (l : LineHdr)
    (b : Body) (hd : AttemptHdr) : OffersNone s (t.createRecord l b hd).1 := by
  unfold State.createRecord
  dsimp only
  split
  · exact h.addRecord _
  · exact (h.removeRecord j g _ _).addRecord _
  · exact ((h.report _ _).removeRecord j g _ _).addRecord _
  · exact h.raise _

theorem track (h : OffersNone s t) (j : s.loader.roles.jury = false) (g : s.start.phase = .gone) (l : LineHdr)
    (b : Body) : OffersNone s (t.track l b).1 := by
  unfold State.track
  split
  · exact h.withTable _
  · split
    · exact h
    · split
      · exact h.takeKnown _ _ _ _ _
      · split
        · exact h.createRecord j g _ _ _
        · exact h.raise _

end OffersNone

/-! ## PHASE GONE brings no record into the air (R36, R43) -/

theorem State.forceOthers_grounded (s : State) (n : Nat) (put : Bool) : ∀ c ∈ (s.forceOthers n put).2, c.grounded := by
  unfold State.forceOthers
  split
  · intro c m
    obtain ⟨r, -, rfl⟩ := List.mem_map.1 m
    simp [Change.grounded, AttemptRecord.forceLanded]
  · simp

/-- The changes of a frame that puts a record in a state: those that R43 forces, and its own. -/
theorem State.forced_grounded (s : State) (n : Nat) (put : Bool) {r : AttemptRecord} (k : r.state ≠ .airborne)
    (before : Option AttemptState) : ∀ c ∈ (s.forceOthers n put).2 ++ [.entered r before false], c.grounded := by
  intro c m
  rcases List.mem_append.1 m with m | m
  · exact s.forceOthers_grounded n put c m
  · rw [List.mem_singleton.1 m]; exact k

/-- A record in the air after a PHASE GONE was there before. -/
theorem AttemptRecord.take_gone (r : AttemptRecord) (l : LineHdr) (h : AttemptHdr) (g sec n : Nat)
    (bound : Bool) (k : (r.take bound l (.phase h .gone g sec n)).state = .airborne) : r.state = .airborne := by
  rw [take_state] at k
  cases e : r.state <;> cases bound <;> simp_all [nextState, impliedState, AttemptState.rank]

theorem State.track_gone (s : State) (l : LineHdr) (h : AttemptHdr) (g sec n : Nat) :
    ∀ c ∈ (s.track l (.phase h .gone g sec n)).2, c.grounded := by
  have hd : (Body.phase h .gone g sec n).hdr? = some h := rfl
  have created : (newRecord h l (.phase h .gone g sec n)).state ≠ .airborne := by
    rw [(newRecord_keeps h l _).2.1]
    simp [impliedState]
  cases k : s.attempt? h.attempt with
  | some r =>
    rw [State.track_known hd k]
    unfold State.takeKnown
    extract_lets s1 r' s2
    split
    · simp
    · rename_i moved
      refine s2.forced_grounded _ _ (fun air => moved ?_) _
      rw [air, r.take_gone l h g sec n _ air]
  | none =>
    rw [State.track_unknown hd k]
    split
    · unfold State.createRecord
      dsimp only
      split
      · exact State.forced_grounded _ _ _ created _
      · exact State.forced_grounded _ _ _ created _
      · exact State.forced_grounded _ _ _ created _
      · simp
    · simp

/-! ## The echo of PHASE GONE (R69) -/

/-- The blocks at the echo of PHASE GONE, at a START station without JURY in GONE that still keeps its LEAVE. -/
theorem State.handFrame_gone {s : State} {l : LineHdr} {k : KeptFrame} (own : s.isOwn l = true)
    (r : s.loader.roles.start = true) (j : s.loader.roles.jury = false) (gone : s.start.phase = .gone)
    (leave : s.start.keptLeave = some k) (h : AttemptHdr) (g sec n : Nat) {cs : List Change}
    (a : ∀ c ∈ cs, c.grounded) :
    (s.handFrame l (.phase h .gone g sec n) cs).line = (s.offer k.body k.eventTime).line := by
  have count := OffersNone.recountBacklog gone
  have first : (s.startTake l (.phase h .gone g sec n)).line = (s.offer k.body k.eventTime).line := by
    show (if s.recountBacklog.isOwn l then s.recountBacklog.startOwnPhase _ else s.recountBacklog : State).line = _
    rw [if_pos (by unfold State.isOwn at own ⊢; rw [count.loader, own]),
      State.startOwnPhase_gone h g sec n (count.leave.trans leave)]
    exact State.offer_line_congr count.loader count.line _ _
  obtain ⟨s1, s2, s3, s4, s5, s6, s7, ⟨e1, o1⟩, ⟨e2, -⟩, ⟨e3, -⟩, ⟨e4, -⟩, ⟨e5, -⟩, ⟨e6, -⟩, ⟨e7, -⟩, e8, -⟩ :=
    s.handFrame_stages l (.phase h .gone g sec n) cs
  have d1 : s1.loader = s.loader := (congrArg State.loader o1.same :)
  have no : ∀ {P : Prop}, s1.loader.roles.jury = true → P := fun x => by simp [d1, j] at x
  have edge : ∀ u : State, OffersNone u ((cs.foldl State.edgeChange u).edgeFrame l (.phase h .gone g sec n)) :=
    fun u => by
      unfold State.edgeFrame
      exact (ite_self _).symm ▸ OffersNone.foldl cs (fun u c _ => .edgeChange u c) u
  have span : ∀ u : State, OffersNone u ((cs.foldl State.spanChange u).spanFrame l (.phase h .gone g sec n)) :=
    fun u => by
      unfold State.spanFrame
      exact (ite_self _).symm ▸ OffersNone.foldl cs (fun u c m => .spanChange u (a c m)) u
  have standings : ∀ u : State, u.loader.roles.jury = false → u.standingsTake l (.phase h .gone g sec n) cs = u :=
    fun u ju => by
      have frame : u.standingsFrame l (.phase h .gone g sec n) = u := if_neg (by simp [ju])
      have test : u.testClosing = u := if_neg (by simp [ju])
      unfold State.standingsTake
      rw [frame]
      dsimp only
      rw [test, ite_self]
  have board : ∀ u : State, OffersNone u (u.boardTake s.standings l (.phase h .gone g sec n) cs) := fun u => by
    refine .ofBoard ((Only.refl blockBoard u).boardTake _ l _ cs) ?_
    have changed := ShowsOnly.boardChanges u (isLanding (.phase h .gone g sec n)) cs s.standings
    unfold State.boardTake
    show ShowsOnly u (if _ then State.boardPhase _ l h .gone sec else _)
    split
    · exact changed.boardPhase l h .gone sec
    · exact changed
  have k1 := OffersNone.refl s1
  have k2 : OffersNone s1 s2 := e2 ▸ k1.ifRole _ fun _ => edge s1
  have k3 : OffersNone s1 s3 := e3 ▸ k2.ifRole _ fun _ => .foldl cs (fun u c _ => .windChange u c) s2
  have k4 : OffersNone s1 s4 := e4 ▸ k3.ifRole _ fun _ => span s3
  have k5 : OffersNone s1 s5 := e5 ▸ k4.ifRole _ no
  have k6 : OffersNone s1 s6 := e6 ▸ k5.ifRole _ no
  have k7 : OffersNone s1 s7 := e7 ▸ k6.ifRole _ fun _ => by
    rw [standings s6 (by rw [k6.loader, d1, j])]; exact .refl s6
  have k8 := k7.ifRole (·.board) (act := fun u => u.boardTake s.standings l (.phase h .gone g sec n) cs) fun _ => board s7
  rw [e8, k8.line, e1]
  unfold State.ifRole
  rw [if_pos r, first]

/-- The own PHASE GONE delivered to the station itself. -/
theorem State.deliver_gone {s : State} {l : LineHdr} {k : KeptFrame} {h : AttemptHdr} {g sec n : Nat}
    (base : s.loader.state.base = .run) (filter : s.passesFilter l (.phase h .gone g sec n) = true)
    (own : s.isOwn l = true) (r : s.loader.roles.start = true) (j : s.loader.roles.jury = false)
    (gone : s.start.phase = .gone) (leave : s.start.keptLeave = some k) :
    (s.deliver l (.phase h .gone g sec n)).line = (s.offer k.body k.eventTime).line := by
  have roster := OffersNone.rosterTake j gone l (.phase h .gone g sec n)
  have tracked := roster.track j gone l (.phase h .gone g sec n)
  have grounded := State.track_gone (s.rosterTake l (.phase h .gone g sec n)) l h g sec n
  rw [State.deliver_passed base filter]
  show (State.handFrame ((s.rosterTake l _).track l _).1 l _ ((s.rosterTake l _).track l _).2).line = _
  generalize (s.rosterTake l (.phase h .gone g sec n)).track l (.phase h .gone g sec n) = v at *
  have own' : v.1.isOwn l = true := by unfold State.isOwn at own ⊢; rw [tracked.loader, own]
  rw [State.handFrame_gone own' (by rw [tracked.loader, r]) (by rw [tracked.loader, j]) (tracked.phase.trans gone)
    (tracked.leave.trans leave) h g sec n grounded]
  exact State.offer_line_congr tracked.loader tracked.line _ _

/-! ## O13 -/

/-- The content of a STATUS (R27, R31, R80, R83, R110, R121, R169). -/
theorem State.statusNow_content (s : State) :
    s.statusNow.roles = s.loader.roles ∧ s.statusNow.digest = s.loader.digest ∧
    s.statusNow.fault = s.latch.record.map (·.kind) ∧
    (s.loader.state = .invalid → s.statusNow.condition = .invalid) ∧
    (s.loader.state = .run → (s.statusNow.condition = .degraded ↔
      (s.loader.roles.mast = true ∧ s.wind.bus.hungSource = true) ∨
      (s.loader.roles.span = true ∧ s.span.heard = false) ∨
      (s.loader.roles.start = true ∧ (s.start.barrier = .stuck ∨ s.start.failed ≠ {})) ∨
      (s.loader.roles.edge = true ∧ (s.edge.a = .stuck ∨ s.edge.b = .stuck ∨ s.edge.t = .stuck)))) ∧
    (s.loader.state = .run → s.statusNow.condition ≠ .invalid) ∧
    s.statusNow.start = (if s.loader.roles.start then
      some ⟨s.start.phase, s.start.current.map (·.attempt), CauseSet.ofHolds s.start.holds, s.start.backlog⟩
      else none) ∧
    s.statusNow.jury = (if s.loader.roles.jury then
      some ⟨s.standings.lastAttempt, s.standings.round.number, s.standings.round.state⟩ else none) ∧
    s.statusNow.mast = (if s.loader.roles.mast then some ⟨s.loader.mast, s.wind.stable⟩ else none) ∧
    s.statusNow.span = (if s.loader.roles.span then some ⟨s.loader.span, s.span.heard⟩ else none) ∧
    s.statusNow.edge = (if s.loader.roles.edge then
      some ⟨decide (s.edge.a ≠ .stuck ∧ s.edge.b ≠ .stuck ∧ s.edge.t ≠ .stuck)⟩ else none) := by
  obtain ⟨invalid, degraded, run⟩ := s.condition_iff
  refine ⟨rfl, rfl, rfl, invalid, fun h => (degraded h).trans s.degraded_iff, run, rfl, rfl, rfl, rfl, ?_⟩
  rw [← s.edge.none_stuck]
  rfl

/-- The line after the station's own frame, whose duration is that of its bytes (R2, R12). -/
theorem State.endOwn_eq (s : State) (l : LineHdr) (b : Body) : s.endOwn b = { s with line := { s.line with
    tx := none, quietUs := 0, rx := {}, yieldMark := s.line.yieldMark || !b.urgent
    busyUs := some (20 * (frameBytes l.sender l.event l.age b).length) } } := by
  unfold State.endOwn
  rw [lineUs_eq _ l.sender l.event l.age]
  rfl

/-- Settles O13: the cadences (`cadences_offer`), the content (`State.statusNow_content`), the copies offered again at
the echo of a STATUS (`State.deliver_ownStatus`) and dropped at their own (`State.Echoes.drops`), and a LEAVE still kept
at PHASE GONE (`State.startOwnPhase_gone`, `State.deliver_gone`). -/
theorem cadencesAndStatusContent : Obligations.CadencesAndStatusContent := by
  obtain ⟨status, corridor, statusEarly, corridorEarly⟩ := cadences_offer
  refine ⟨⟨status, fun s e used next due samples => ?_, statusEarly, corridorEarly⟩, State.statusNow_content,
    fun s l p e pres same count event => ?_, fun s l b e => e.drops, fun s h g sec n k leave =>
    State.startOwnPhase_gone h g sec n leave, fun s l h g sec n k e r j gone leave => ?_⟩
  · rw [corridor s e next due, s.corridorBody_eq used samples]
  · obtain ⟨base, -, own⟩ := e.ready
    have copies : (s.endOwn (.status p)).keptCopies = s.keptCopies := rfl
    refine ⟨_, e.exec, (State.deliver_ownStatus base own pres same count event).trans ?_⟩
    rw [copies, s.endOwn_eq l, show (s.line.yieldMark || !(Body.status p).urgent) = true from Bool.or_true _]
    rfl
  · obtain ⟨base, filter, own⟩ := e.ready
    refine ⟨_, e.exec, (State.deliver_gone base filter own r j gone leave).trans ?_⟩
    rw [s.endOwn_eq l]

end Sys2Proof.Machine
end

section
/-! RESET, its release, and the state after it (R19 to R21). -/

namespace Sys2Proof.Machine

open Sys2Proof

/-- RESET empties the station but for the commands waiting, and a second one does nothing (R20; log entry 5). -/
theorem exec_resetAssert (s : State) : exec .resetAssert s =
    .next (if s.resetAsserted then s else { pending := s.pending, resetAsserted := true }) := rfl

/-- The release of RESET samples the straps and begins a read of the image; without RESET it does nothing (R19 to
R21). -/
theorem exec_resetRelease (n : BitVec 4) (s : State) : exec (.resetRelease n) s =
    .next (if s.resetAsserted then
      { pending := s.pending, loader := { station := n.toNat, eeprom := eepromOpening } } else s) := rfl

/-- While RESET is asserted the outputs of the start stand at their reset levels (R20). -/
theorem State.outputs_of_reset {s : State} (h : s.resetAsserted = true) :
    s.lampOutputs = { red := true } ∧ s.countdown = none := by
  simp [State.lampOutputs, State.countdown, h]

/-- Every invariant of the statements holds of the state after reset. -/
theorem reset_sound : State.reset.QueuesSound ∧ State.reset.MutedQuiet ∧ State.reset.ConsoleSound ∧
    State.reset.RosterSound ∧ State.reset.WindSound ∧ State.reset.TableSound ∧ State.reset.HoldsSound ∧
    State.reset.CycleSound ∧ State.reset.StandingsSound ∧ State.reset.BoardSound := by
  refine ⟨?_, ?_, ?_, rfl, ?_, ?_, ?_, ?_, ?_, ?_⟩
  · unfold State.QueuesSound; decide
  · unfold State.MutedQuiet; decide
  · unfold State.ConsoleSound; decide
  · unfold State.WindSound; decide
  · unfold State.TableSound; decide
  · unfold State.HoldsSound; decide
  · unfold State.CycleSound; decide
  · unfold State.StandingsSound; decide
  · unfold State.BoardSound; decide

/-- Settles O3: the two commands are `exec_resetAssert` and `exec_resetRelease`, the state after reset is read off its
definition, and it meets the invariants by `reset_sound`. -/
theorem resetAndItsState : Obligations.ResetAndItsState := by
  refine ⟨⟨fun s h => ?_, fun s h => ?_, fun s n h => ?_, fun s n h => ?_, fun s h => State.outputs_of_reset h⟩,
    rfl, rfl, rfl, rfl, rfl, rfl, rfl, rfl, rfl, rfl, rfl, rfl, rfl, rfl, rfl, rfl, rfl, rfl, rfl, rfl, rfl, rfl, rfl,
    reset_sound⟩
  · rw [exec_resetAssert, if_neg (by simp [h])]
  · rw [exec_resetAssert, if_pos h]
  · rw [exec_resetRelease, if_pos h]; rfl
  · rw [exec_resetRelease, if_neg (by simp [h])]

end Sys2Proof.Machine
end

section
/-! The ends of a pass that do not bring RUN (R21, R25; log entries 9 and 57). -/

namespace Sys2Proof.Machine

open Sys2Proof

/-- The end of the load in INVALID, as one change of the state: no role and no constant is held, the digest and
CONSTANTS_INVALID are reported, and a first STATUS is offered (R16, R25). -/
theorem State.enterInvalid_form {s : State} (r : s.line.routine = []) (detail : Nat) (digest : Word16) :
    ∃ console p, s.enterInvalid detail digest = { s with
      loader := { station := s.loader.station, state := .invalid, digest := digest, eeprom := s.loader.eeprom }
      latch := s.latch.take .constantsInvalid s.clock detail
      console := console
      line := { s.line with
        nextStatus := some (s.clock + 2500)
        routine := [⟨.status p, s.line.eventNumber, none⟩] } } :=
  ⟨_, _, State.firstStatus_eq (s := State.report { s with loader := {
    station := s.loader.station, state := .invalid, digest := digest, eeprom := s.loader.eeprom } }
    .constantsInvalid detail) rfl r⟩

/-- A station in LOADING, out of RESET and not waiting, reads (R21). -/
theorem State.reading_of {s : State} (released : s.resetAsserted = false) (loading : s.loader.state = .loading)
    (idle : s.loader.retryAt = none) : s.reading = true := by simp [State.reading, released, loading, idle]

/-- The wait's end takes effect once the wait is over (R21; log entry 9). -/
theorem exec_eepromRetryTimer {s : State} {e : Tick} (wait : s.loader.retryAt = some e)
    (done : reached s.clock e = true) : exec .eepromRetryTimer s = .next (
      if 20 ≤ s.loader.failedReads then s.enterInvalid 0 0
      else { s with loader := { s.loader with retryAt := none, eeprom := eepromOpening } }) := by
  simp only [exec, execEepromRetryTimer, wait, expired, done, if_true]
  rfl

/-- Settles O5: a failing check and the 20th failure end the load in INVALID (`State.enterInvalid_form`), and the bytes
read are those that decide it (`loadImage_bytesTaken`), or all of them where the read failed. -/
theorem loadFails : Obligations.LoadFails := by
  refine ⟨?_, ?_, ?_, ?_⟩
  · intro s bytes broken detail digest released loading idle quiet bad
    obtain ⟨few, enough, least⟩ := loadImage_bytesTaken s.loader.station bytes
    obtain ⟨console, p, form⟩ :=
      (s.sendOnEeprom (eepromSends s.loader.station bytes)).enterInvalid_form quiet detail digest
    have run : exec (.eepromReadEnd bytes broken) s =
        .next ((s.sendOnEeprom (eepromSends s.loader.station bytes)).enterInvalid detail digest) := by
      simp only [exec, execEepromReadEnd, State.reading_of released loading idle, if_true, bad]
    refine ⟨_, bytesTaken s.loader.station bytes, run, few, enough.trans bad, least, ?_⟩
    rw [form]
    exact ⟨rfl, rfl, rfl, ⟨_, rfl, rfl⟩, rfl⟩
  · intro s bytes broken released loading idle failed
    simp only [exec, execEepromReadEnd, State.reading_of released loading idle, if_true, failed, eepromSends,
      bytesTaken_of_failedRead failed]
    rfl
  · intro s e wait done few
    rw [exec_eepromRetryTimer wait done, if_neg (by omega)]
    rfl
  · intro s e wait done many quiet _
    obtain ⟨console, p, form⟩ := s.enterInvalid_form quiet 0 0
    refine ⟨_, exec_eepromRetryTimer wait done, ?_⟩
    rw [if_pos many, form]
    exact ⟨rfl, rfl, ⟨_, rfl, rfl⟩, rfl⟩

end Sys2Proof.Machine
end

section
/-! What an image that brings RUN carries (R21, R22, R24). -/

namespace Sys2Proof.Machine

open Sys2Proof

/-! ## The image's shape (R21, R22) -/

/-- What follows the termination packet of a sequence stands right after it. -/
theorem readPackets_suffix : ∀ (fuel room : Nat) (bs : List Byte) (ps : List Packet) (rest : List Byte),
    readPackets fuel room bs = .good ps rest → rest <:+ bs := by
  intro fuel
  induction fuel with
  | zero => intro room bs ps rest h; cases h
  | succ fuel ih =>
    intro room bs ps rest h
    unfold readPackets at h
    split at h
    · cases h
    split at h
    · rename_i id len tail
      have inner : tail <:+ id :: len :: tail := List.suffix_append [id, len] tail
      split at h
      · split at h
        · cases h; exact inner
        · cases h
      split at h
      · split at h
        · cases h
        · cases e : readPackets fuel (room - 2 - len.toNat) (tail.drop len.toNat) with
          | short => rw [e] at h; cases h
          | bad => rw [e] at h; cases h
          | good ps' rest' =>
            rw [e] at h
            cases h
            exact ((ih _ _ _ _ e).trans (List.drop_suffix _ _)).trans inner
      · cases h
    · cases h

/-- An image that brings RUN has passed every check: marker, length, packets, digest and constants. -/
theorem loadImage_run {own : Nat} {bytes : List Byte} {digest : Word16} {k : Constants}
    (h : loadImage own bytes = .run digest k) : ∃ l0 l1 body ps d0 d1 tail,
      bytes = 0x48 :: 0x4C :: l0 :: l1 :: body ∧ 8 ≤ u16 l0 l1 ∧ u16 l0 l1 ≤ 1024 ∧
      readPackets 512 (u16 l0 l1 - 6) body = .good ps (d0 :: d1 :: tail) ∧
      digest = crc16 (bytes.take (u16 l0 l1 - 2)) ∧ digest = BitVec.ofNat 16 (u16 d0 d1) ∧
      readConstants own ps = .ok k := by
  unfold loadImage at h
  split at h
  · rename_i m0 m1 rest
    split at h
    · cases h
    rename_i marker
    obtain ⟨rfl, rfl⟩ : m0 = 0x48 ∧ m1 = 0x4C := by simpa using marker
    split at h
    · rename_i l0 l1 body
      dsimp only at h
      split at h
      · cases h
      rename_i len
      split at h
      · cases h
      · cases h
      · rename_i ps d0 d1 tail shape
        split at h
        · cases h
        rename_i crc
        split at h
        · cases h
        · rename_i consts
          cases h
          exact ⟨l0, l1, body, ps, d0, d1, tail, rfl, by omega, by omega, shape, rfl, by simpa using crc, consts⟩
      · cases h
    · cases h
  · cases h

/-- The stored digest of a well-shaped image stands in the last two bytes of its length. -/
theorem digest_place {bytes body tail : List Byte} {m0 m1 l0 l1 d0 d1 : Byte} {len : Nat} {ps : List Packet}
    (image : bytes = m0 :: m1 :: l0 :: l1 :: body) (long : 8 ≤ len)
    (shape : readPackets 512 (len - 6) body = .good ps (d0 :: d1 :: tail)) :
    len ≤ bytes.length ∧ bytes[len - 2]? = some d0 ∧ bytes[len - 1]? = some d1 := by
  have size := readPackets_good _ _ _ _ _ shape
  obtain ⟨packets, split⟩ := readPackets_suffix _ _ _ _ _ shape
  have room : packets.length = len - 6 := by
    have := congrArg List.length split
    simp only [List.length_append, List.length_cons] at this size
    omega
  have form : bytes = (m0 :: m1 :: l0 :: l1 :: packets) ++ d0 :: d1 :: tail := by rw [image, ← split]; rfl
  have front : (m0 :: m1 :: l0 :: l1 :: packets).length = len - 2 := by simp only [List.length_cons]; omega
  rw [form]
  refine ⟨by simp only [List.length_append, front, List.length_cons]; omega, ?_, ?_⟩
  · rw [← front, List.getElem?_append_right le_rfl]; simp
  · rw [show len - 1 = (m0 :: m1 :: l0 :: l1 :: packets).length + 1 by omega, List.getElem?_append_right (by omega)]
    simp

/-- A 16-bit number loses nothing in a word of 16 bits. -/
theorem toNat_ofNat_u16 (lo hi : Byte) : (BitVec.ofNat 16 (u16 lo hi)).toNat = lo.toNat + 256 * hi.toNat := by
  unfold u16
  rw [BitVec.toNat_ofNat, Nat.mod_eq_of_lt (by omega)]

/-! ## The station map (R24) -/

theorem distinct_iff (ns : List Nat) : distinct ns = true ↔ ns.Nodup := by
  induction ns with
  | nil => simp [distinct]
  | cons n ns ih => simp [distinct, ih]

/-- Constants that are read from an image have passed the checks across packets. -/
theorem readConstants_checked {own : Nat} {ps : List Packet} {k : Constants} (h : readConstants own ps = .ok k) :
    stationsOk own k.stations = true ∧ mastsOk k = true ∧ spansOk k = true := by
  have checked : crossCheck own k = none := by
    unfold readConstants at h
    split at h
    · cases h
    split at h
    · cases h
    split at h
    · cases h
    · rename_i c; cases h; exact c
  unfold crossCheck at checked
  by_cases s : stationsOk own k.stations = true <;> by_cases m : mastsOk k = true <;>
    by_cases p : spansOk k = true <;> simp_all

theorem within_iff (lo hi n : Nat) : within lo hi n = true ↔ lo ≤ n ∧ n ≤ hi := by simp [within]

/-- The number of a role that an entry holds, or does not hold. -/
theorem roleNumber_iff (role : Bool) (n : Nat) : (if role then within 1 8 n else n == 0) = true ↔
    (role = true → 1 ≤ n ∧ n ≤ 8) ∧ (role = false → n = 0) := by
  cases role <;> simp [within]

/-- Rows 7 and 8 of R24: the numbers of a packet's entries differ, and every number of a station other than 0 has an
entry. -/
theorem mastsOk_iff (k : Constants) : mastsOk k = true ↔ (k.masts.map (·.mast)).Nodup ∧
    ∀ e ∈ k.stations, e.mast = 0 ∨ ∃ m ∈ k.masts, m.mast = e.mast := by
  simp [mastsOk, distinct_iff]

theorem spansOk_iff (k : Constants) : spansOk k = true ↔ (k.spans.map (·.span)).Nodup ∧
    ∀ e ∈ k.stations, e.span = 0 ∨ ∃ m ∈ k.spans, m.span = e.span := by
  simp [spansOk, distinct_iff]

/-- Settles O6: the image has passed its checks (`loadImage_run`), its digest stands where its length says
(`digest_place`), and its map has passed those of R24 (`readConstants_checked`). -/
theorem loadedMapIsSound : Obligations.LoadedMapIsSound := by
  intro own bytes digest k h
  obtain ⟨l0, l1, body, ps, d0, d1, tail, image, long, short, shape, crc, stored, consts⟩ := loadImage_run h
  obtain ⟨fits, low, high⟩ := digest_place image long shape
  obtain ⟨stations, masts, spans⟩ := readConstants_checked consts
  obtain ⟨mastNumbers, mastEntries⟩ := (mastsOk_iff k).1 masts
  obtain ⟨spanNumbers, spanEntries⟩ := (spansOk_iff k).1 spans
  simp only [stationsOk, Bool.and_eq_true, distinct_iff, List.all_eq_true, List.any_eq_true, roleNumber_iff,
    within_iff, beq_iff_eq, decide_eq_true_eq, Bool.not_eq_true'] at stations
  obtain ⟨⟨⟨⟨⟨⟨⟨⟨⟨⟨⟨⟨numbers, start⟩, edge⟩, jury⟩, apart⟩, board⟩, mast⟩, span⟩, mastRole⟩, mastOnce⟩, spanRole⟩,
    spanOnce⟩, mine⟩ := stations
  refine ⟨⟨u16 l0 l1, l0, l1, d0, d1, by simp [image], by simp [image], rfl, long, short, fits, crc, low, high, ?_⟩,
    by simp [image], start, edge, jury, board, mast, span.1, span.2, numbers, mine,
    by simpa [bne, beq_eq_decide] using mastOnce, by simpa [bne, beq_eq_decide] using spanOnce,
    fun e m => ⟨apart e m, fun r => ?_, (mastRole e m).2, fun r => ?_, (spanRole e m).2⟩, mastNumbers, spanNumbers⟩
  · rw [stored, toNat_ofNat_u16]
  · obtain ⟨least, most⟩ := (mastRole e m).1 r
    exact ⟨least, most, (mastEntries e m).resolve_left (by omega)⟩
  · obtain ⟨least, most⟩ := (spanRole e m).1 r
    exact ⟨least, most, (spanEntries e m).resolve_left (by omega)⟩

end Sys2Proof.Machine
end

section
/-! What the loader holds after the load: no command but a cold reset changes it, and entry into MUTED alone changes the
station state (R4, R19, R25, R26). -/

namespace Sys2Proof.Machine

open Sys2Proof

/-! ## A change that leaves the loader alone -/

/-- From `s` to `t` the loader stays as it is. -/
def LoaderStays (s t : State) : Prop := t.loader = s.loader

namespace LoaderStays

variable {s t u : State}

theorem of_eq (h : t.loader = s.loader) : LoaderStays s t := h

theorem refl (s : State) : LoaderStays s s := of_eq rfl

theorem trans (h : LoaderStays s t) (k : LoaderStays t u) : LoaderStays s u := Eq.trans k h

/-- A change of a block, of the attempt table or of the outbox. -/
theorem only {R : State → State → State} (h : Only R s t)
    (w : ∀ u v, (R u v).loader = v.loader := by exact fun _ _ => rfl) : LoaderStays s t :=
  (w s t).symm.trans (congrArg State.loader h.same)

theorem ite {c : Prop} [Decidable c] (h : LoaderStays s t) (k : LoaderStays s u) :
    LoaderStays s (if c then t else u) := by split <;> assumption

theorem ifRole (h : LoaderStays s t) (role : RoleSet → Bool) {act : State → State}
    (k : ∀ t, LoaderStays t (act t)) : LoaderStays s (t.ifRole role act) := by
  unfold State.ifRole
  exact .ite (h.trans (k t)) h

/-- A console command leaves the loader alone where its act does. -/
theorem command (s : State) (kind : Nat) (ok : Bool) (role : RoleSet → Bool) {act : State → State}
    (k : ∀ t, LoaderStays t (act t)) : LoaderStays s (s.command kind ok role act) := by
  rcases s.command_cases kind ok role act with
    ⟨-, x⟩ | ⟨-, -, x⟩ | ⟨-, -, ⟨-, x⟩ | ⟨-, ⟨r, x⟩ | ⟨-, -, x⟩⟩⟩ <;> rw [x]
  · exact refl s
  · exact of_eq rfl
  · exact of_eq rfl
  · exact of_eq rfl
  · exact trans (of_eq rfl) (k s.clearAssembler)

/-- A jury command behind the EVENT test. -/
theorem juryCommand (s : State) (kind : Nat) (ok : Bool) {act : State → State} (k : ∀ t, LoaderStays t (act t)) :
    LoaderStays s (s.command kind ok (·.jury) (fun s => s.eventTest kind act)) :=
  command s kind ok _ fun t => .ite (of_eq rfl) (k t)

/-! ### The line interface and the roster -/

theorem abandonTx (s : State) (k : FaultKind) : LoaderStays s (s.abandonTx k) := by
  unfold State.abandonTx
  split <;> exact of_eq rfl

/-- A delivered frame leaves the loader alone, as do the roster, the tracker and the blocks that take it. -/
theorem deliver (s : State) (l : LineHdr) (b : Body) : LoaderStays s (s.deliver l b) := only (s.deliver_only l b)

theorem stationSilent (s : State) (n : Nat) (h : execStationSilent n s = .next t) : LoaderStays s t := by
  cases h
  refine .ite ?_ (refl s)
  refine LoaderStays.ifRole (LoaderStays.ifRole (LoaderStays.ifRole (of_eq rfl) _ fun t => ?_) _
    fun t => ?_) _ fun t => ?_
  · exact only (Only.refl blockStart t).evalRosterHolds
  · exact of_eq rfl
  · exact only (OnlyScoring.refl t).gatherAll.toOnly

/-! ### RESTART and a lapsed call -/

theorem emptyTable (s : State) : LoaderStays s s.emptyTable := by
  unfold State.emptyTable
  exact (ifRole (t := { s with table := [] }) (of_eq rfl) _
    fun t => only (Only.refl blockStart t).startRestart).trans (only (State.handChanges_only _ _ _ _).toOnly)

theorem restart (s : State) : LoaderStays s s.restart := by
  have k1 : LoaderStays s.emptyConsole s.emptyConsole.standingsRestart :=
    only (Only.refl blockStandings s.emptyConsole).standingsRestart
  have k2 := (k1.trans (emptyTable _)).ifRole (·.mast) fun t => only (WindStep.windRestart t).toOnly
  exact (k2.trans (only (OnlyScoring.refl _).scoringRestart.toOnly)).ifRole (·.board)
    fun t => only (Only.refl blockBoard t).boardRestart

theorem callLapsed (s : State) (h : execCallLapsed s = .next t) : LoaderStays s t := by
  cases h
  split
  · exact refl s
  · refine trans (t := s.modStandings (fun t => { t with pendingCall := none })) (of_eq rfl)
      (only (R := restoreTracked) ?_)
    exact (OnlyTracked.handChanges (.voidLocally (.refl blockTracked _) _) _ _ _).raise _

/-! ### The sequencer, the wind unit and the span unit -/

theorem corridorEntryAged (s : State) (mast : Nat) (h : execCorridorEntryAged mast s = .next t) :
    LoaderStays s t := by
  cases h
  split
  · exact refl s
  · exact .ite (of_eq rfl) (only (R := restoreStart) ((Only.refl blockStart s).modStart _).evalWind)

theorem lampCheck (s : State) (faulty : LampSet) (h : execLampCheck faulty s = .next t) : LoaderStays s t := by
  cases h
  refine command _ _ _ _ fun u => .ite (of_eq rfl) (.ite ?_ (of_eq rfl))
  exact only (R := restoreStart) ((((Only.refl blockStart u).modStart _).releaseHold _).answer _ _)

theorem pollTime (s : State) (low : Bool) (h : execPollTime low s = .next t) : LoaderStays s t := by
  cases h
  have k := (WindStep.refl s).modWind
    (f := fun w => { w with nextPoll := w.nextPoll.map (· + pollPeriod), dataLow := low }) id
  exact .ite (.ite (of_eq rfl) (.ite (.ite (only (k.detectHang _).failedPoll.toOnly)
    (only (k.beginTransaction _ _).toOnly)) (only k.failedPoll.toOnly))) (refl s)

theorem sensorTransferEnd (s : State) (o : TransferOutcome) (read : List Byte)
    (h : execSensorTransferEnd o read s = .next t) : LoaderStays s t := by
  cases h
  split
  · exact .ite (only ((((WindStep.refl s).modWind id).endTransaction _ _).answerTransfer _).toOnly) (refl s)
  · exact refl s

theorem clockStretchTimeout (s : State) (read : List Byte) (h : execClockStretchTimeout read s = .next t) :
    LoaderStays s t := by
  cases h
  split
  · exact only ((WindStep.refl s).detectHang _).failedPoll.toOnly
  · exact only ((((WindStep.refl s).modWind id).detectHang _).answerTransfer _).toOnly
  · exact refl s

theorem releaseBurstEnd (s : State) (high : Bool) (h : execReleaseBurstEnd high s = .next t) :
    LoaderStays s t := by
  cases h
  split
  · have k := ((WindStep.refl s).modWind (f := fun w => { w with dataLow := !high }) id).setBus
      (if high then .free else .hung)
    exact .ite (only ((k.modWind id).reply _).toOnly) (only k.carryOut.toOnly)
  · exact refl s

theorem presence (s : State) (on : Bool) (e : Tick) (h : execPresence on e s = .next t) : LoaderStays s t := by
  cases h
  have o := (Only.refl blockSpan s).headRecord e
  exact .ite (.ite (only o) (.ite (only (o.modSpan _).beginClaim) (only (o.presenceOff _)))) (refl s)

theorem viewLimitExpiry (s : State) (h : execViewLimitExpiry s = .next t) : LoaderStays s t := by
  cases h
  split
  · exact refl s
  · exact .ite (only ((Only.refl blockSpan s).endClaim _ _)) (refl s)

/-! ### The jury's blocks -/

/-- A command of the landing resolver that acts on the context of an attempt. -/
theorem onContext {n : Nat} {act : LandingContext → State} (k : ∀ c, OnlyLanding s (act c)) :
    LoaderStays s (match s.context? n with
      | none => s
      | some c => act c) := by
  split
  · exact refl s
  · exact only (k _)

theorem closingEnd (s : State) (n : Nat) (h : execClosingEnd n s = .next t) : LoaderStays s t := by
  cases h
  refine onContext fun c => .ite ?_ (.refl blockLanding s)
  split <;> exact (Only.refl blockLanding s).offerLanding _ _ _ _ _

theorem gatherDeadline (s : State) (n : Nat) (h : execGatherDeadline n s = .next t) : LoaderStays s t := by
  cases h
  split
  · exact refl s
  · exact .ite (only ((OnlyScoring.refl s).gatherDone _ _ _).toOnly) (refl s)

theorem takeManual (s : State) (n d : Nat) : LoaderStays s (s.takeManual n d) := by
  unfold State.takeManual
  refine .ite (of_eq rfl) ?_
  split
  · exact of_eq rfl
  · refine .ite (of_eq rfl) ?_
    split
    · exact .ite (of_eq rfl) (of_eq rfl)
    · exact .ite (only ((OnlyScoring.refl s).scoringManual _ _).toOnly) (of_eq rfl)

theorem keypadRecord (s : State) (channel : Nat) (seat mark check : Byte)
    (h : execKeypadRecord channel seat mark check s = .next t) : LoaderStays s t := by
  cases h
  refine .ite (.ite ?_ (of_eq rfl)) (refl s)
  unfold State.keypad
  refine .ite ?_ (of_eq rfl)
  have k := (OnlyScoring.refl (s.modSeat channel (fun c => { c with gathered := [] }))).takeMark seat.toNat mark.toNat
  have m : LoaderStays _ _ := only k.toOnly
  exact m.trans (of_eq rfl)

theorem closeRound (s : State) (h : execCloseRound s = .next t) : LoaderStays s t := by
  cases h
  refine juryCommand s _ _ fun u => ifRole (only (R := restoreStandings) ?_) _
    fun v => only ((Only.refl blockBoard v).boardListChange _)
  have o := Only.refl blockStandings u
  exact .ite ((((o.modStandings _).answer _ _).raise _).testClosing) (o.answer _ _)

theorem noticeMask (s : State) (flags : Nat) (h : execNoticeMask flags s = .next t) : LoaderStays s t := by
  cases h
  refine command s _ _ _ fun u => ?_
  split <;> exact of_eq rfl

end LoaderStays

/-! ## Every command after the load -/

/-- What a station keeps from the load to the next cold reset: its number, constants, digest, roles, mast and span, the
state but for entry into MUTED, and MUTED itself (R19, R25, R26). -/
structure LoaderHeld (s t : State) : Prop where
  station : t.loader.station = s.loader.station
  consts : t.loader.consts = s.loader.consts
  digest : t.loader.digest = s.loader.digest
  roles : t.loader.roles = s.loader.roles
  mast : t.loader.mast = s.loader.mast
  span : t.loader.span = s.loader.span
  base : t.loader.state.base = s.loader.state.base
  muted : s.loader.state.isMuted = true → t.loader.state = s.loader.state

namespace LoaderHeld

variable {s t : State}

theorem of_stays (h : LoaderStays s t) : LoaderHeld s t := by
  have e : t.loader = s.loader := h
  constructor <;> simp [e]

/-- Entry into MUTED, out of RUN or INVALID, leaves all but the state, which remembers where it came from (R4, R26). -/
theorem mute (s : State) (kind : Nat) (loaded : s.loader.state ≠ .loading) (m : s.loader.state.isMuted = false) :
    LoaderHeld s (s.mute kind) := by
  have e : (s.ifRole (·.start) (·.startMuted)).loader = s.loader :=
    (LoaderStays.refl s).ifRole _ fun t => .only (Only.refl blockStart t).startMuted
  have form : (s.mute kind).loader = { s.loader with state := .muted (s.loader.state == .run) } := by
    unfold State.mute
    simp [e]
  have base : StationState.base (.muted (s.loader.state == .run)) = s.loader.state.base := by
    cases x : s.loader.state with
    | loading => exact absurd x loaded
    | muted _ => rw [x] at m; cases m
    | _ => rfl
  constructor <;> simp [form, base, m]

/-- A frame heard leaves the loader alone, or mutes a station that is not MUTED (R3 to R5, R13). -/
theorem receive (s : State) (h : RxHdr) (b : Body) : LoaderHeld s (s.receive h b) := by
  have stays : ∀ {t : State}, t.loader = s.loader → LoaderHeld s t := fun e => of_stays e
  unfold State.receive
  split
  · exact stays rfl
  split
  · exact stays rfl
  rename_i loading
  have loaded : s.loader.state ≠ .loading := by simpa using loading
  split
  · split
    · unfold State.echo
      dsimp only
      split
      · exact stays (LoaderStays.deliver _ _ _)
      · exact stays rfl
    · exact stays rfl
  · dsimp only
    split
    · exact stays rfl
    split
    · unfold State.hearOther
      dsimp only
      split
      · split
        · exact stays rfl
        · rename_i m
          have k := mute { s with line := s.line.heard b } b.kind loaded (by simpa using m)
          exact ⟨k.station, k.consts, k.digest, k.roles, k.mast, k.span, k.base, k.muted⟩
      · exact stays (LoaderStays.deliver _ _ _)
    · exact stays rfl

/-- Every command but a cold reset keeps what the load has left (R19, R25, R26): the loader's own commands find neither a
read nor a wait under way, a frame at most mutes the station, and no other command touches the loader. -/
theorem exec {c : Instr} (released : s.resetAsserted = false) (loaded : s.loader.state ≠ .loading)
    (idle : s.loader.retryAt = none) (reset : c ≠ .resetAssert) (h : Machine.exec c s = .next t) :
    LoaderHeld s t := by
  have start := Only.refl blockStart s
  have edge := Only.refl blockEdge s
  have wind := WindStep.refl s
  have span := Only.refl blockSpan s
  have landing := Only.refl blockLanding s
  have board := Only.refl blockBoard s
  have standings (u : State) := Only.refl blockStandings u
  have scoring (u : State) := OnlyScoring.refl u
  have all := LoaderStays.refl s
  cases c with
  | resetAssert => exact absurd rfl reset
  | resetRelease n =>
    cases h
    rw [if_neg (by simp [released])]
    exact of_stays all
  | eepromReadEnd bytes broken =>
    cases h
    rw [if_neg (by simp [State.reading, loaded])]
    exact of_stays all
  | eepromRetryTimer =>
    cases h
    rw [if_neg (by simp [idle, expired])]
    exact of_stays all
  | statusFrame l p | corridorFrame l m x y u f | eventFrame l n m r | callFrame l h g | goFrame l h
  | gateFrame l h g a | holdFrame l b | roundFrame l r m g | textFrame l cs | phaseFrame l h p g sec n
  | coachFrame l h g q w | leaveFrame l h b | voidFrame l h r | speedFrame l h v | takeoffFrame l h n
  | inViewFrame l h sp | viewLostFrame l h sp r | contactFrame l h sp t p | landingFrame l h d q n c
  | mastmeanFrame l h m x u p | resultFrame l r => cases h; exact receive s l _
  | txEcho => cases h; exact of_stays (.abandonTx s _)
  | txJabber us => cases h; exact of_stays (.ite (.abandonTx s _) all)
  | transmissionStart us => cases h; refine of_stays ?_; split <;> exact .of_eq rfl
  | lineHung us | invalidFrame bytes | rxFramingError =>
    cases h; exact of_stays (.ite (.ite (.of_eq rfl) (.of_eq rfl)) all)
  | lineHungEnd us | rxCharacterGap us | statusOffer | corridorOffer | graceTimerExpiry | countdownTick
  | leaveBarrierClear | leaveBarrierStuck | rejectLampEnd | edgeBarrierClear x | edgeBarrierStuck x
  | headRecordDiscard why | keypadGapTimeout ch why | lampFlashToggle ch | lampAnswerEnd ch | panelRowPeriod
  | consoleTransmit | consoleFramingError => cases h; exact of_stays (.ite (.of_eq rfl) (.of_eq rfl))
  | consoleGapTimeout gap => cases h; exact of_stays (.ite all (.ite (.of_eq rfl) all))
  | stationSilent n => exact of_stays (.stationSilent s n h)
  | readyTimerExpiry => cases h; exact of_stays (.ite (.ite (.only start.enterGreen) (.of_eq rfl)) all)
  | windowTimerExpiry =>
    cases h; exact of_stays (.ite (.ite (.only ((start.modStart _).ownVoid _)) (.of_eq rfl)) all)
  | settleTimerExpiry => cases h; exact of_stays (.ite (.only ((start.modStart _).releaseHold _)) all)
  | corridorEntryAged m => exact of_stays (.corridorEntryAged s m h)
  | leaveBreak => cases h; exact of_stays (.ite (.only ((start.modStart _).takeLeave _)) all)
  | trackHold => cases h; exact of_stays (.ite (.only (start.raiseHold _ _ _)) all)
  | trackRelease => cases h; exact of_stays (.ite (.only (start.releaseHold _)) all)
  | coachRequestPress sel => cases h; exact of_stays (.ite (.only (start.pressCoach sel)) all)
  | lampFail lamp =>
    cases h; exact of_stays (.ite (.only (((start.modStart _).report _ _).raiseHold _ _ _)) all)
  | lampCheck faulty => exact of_stays (.lampCheck s faulty h)
  | barrierABreak => cases h; exact of_stays (.only (edge.edgeBreak _ fun h r e u => h.breakA r e u))
  | barrierBBreak => cases h; exact of_stays (.only (edge.edgeBreak _ fun h r e u => h.breakB r e u))
  | barrierTBreak => cases h; exact of_stays (.only (edge.edgeBreak _ fun h r e _ => h.breakT r e))
  | pollTime low => exact of_stays (.pollTime s low h)
  | pollComplete r =>
    cases h; exact of_stays (.ite (.only ((wind.endTransaction _ _).pollOutcome _).carryOut.toOnly) all)
  | clockStretchTimeout read => exact of_stays (.clockStretchTimeout s read h)
  | releaseBurstEnd high => exact of_stays (.releaseBurstEnd s high h)
  | sensorMode m => cases h; exact of_stays (.command s _ _ _ fun t => .only ((WindStep.refl t).takeOp _ _).toOnly)
  | sensorTransfer a n w low =>
    cases h; exact of_stays (.command s _ _ _ fun t => .only (((WindStep.refl t).modWind id).takeOp _ _).toOnly)
  | sensorTransferEnd o read => exact of_stays (.sensorTransferEnd s o read h)
  | sensorRelease => cases h; exact of_stays (.command s _ _ _ fun t => .only ((WindStep.refl t).takeOp _ _).toOnly)
  | heartbeat e => cases h; exact of_stays (.ite (.only (span.headRecord e)) all)
  | presence on e => exact of_stays (.presence s on e h)
  | headContact k o e => cases h; exact of_stays (.ite (.only ((span.headRecord e).spanContact k o e)) all)
  | headLinkSilent =>
    cases h; exact of_stays (.ite (.only ((((span.modSpan _).report _ _).raise _).presenceOff _)) all)
  | viewLimitExpiry => exact of_stays (.viewLimitExpiry s h)
  | inrunTimerExpiry n => cases h; exact of_stays (.onContext fun c => landing.takeInrun c)
  | flightTimerExpiry n => cases h; exact of_stays (.onContext fun c => landing.takeFlight c)
  | claimLimitReached n sp => cases h; exact of_stays (.onContext fun c => .ite (landing.setContext _) landing)
  | resolutionTime n => cases h; exact of_stays (.onContext fun c => landing.takeResolution c)
  | closingEnd n => exact of_stays (.closingEnd s n h)
  | gatherDeadline n => exact of_stays (.gatherDeadline s n h)
  | manualDistance n d => cases h; exact of_stays (.juryCommand s _ _ fun t => .takeManual t n d)
  | keypadRecord ch seat mark check => exact of_stays (.keypadRecord s ch seat mark check h)
  | forceScore n => cases h; exact of_stays (.juryCommand s _ _ fun t => .only ((scoring t).takeForce n).toOnly)
  | correctDistance n d =>
    cases h; exact of_stays (.juryCommand s _ _ fun t => .only ((scoring t).takeCorrectDistance n d).toOnly)
  | correctMark n seat m =>
    cases h; exact of_stays (.juryCommand s _ _ fun t => .only ((scoring t).takeCorrectMark n seat m).toOnly)
  | void n r => cases h; exact of_stays (.juryCommand s _ _ fun t => .only ((scoring t).takeVoid n r).toOnly)
  | newEvent n m r => cases h; exact of_stays (.command s _ _ _ fun t => .only ((standings t).takeNewEvent n m r))
  | startList bs => cases h; exact of_stays (.juryCommand s _ _ fun t => .only ((standings t).takeStartList bs))
  | dns bib =>
    cases h
    refine of_stays (.juryCommand s _ _ fun t => ?_)
    exact .ite (.of_eq rfl) (.ite (.of_eq rfl) (.ite (.of_eq rfl) (.of_eq rfl)))
  | call g f => cases h; exact of_stays (.juryCommand s _ _ fun t => .only ((standings t).takeCall g f))
  | callLapsed => exact of_stays (.callLapsed s h)
  | go n =>
    cases h
    exact of_stays (.juryCommand s _ _ fun t => .only ((standings t).forCalled _ _ fun _ =>
      ((standings t).offer _ _).answer _ _))
  | setGate n g =>
    cases h
    exact of_stays (.juryCommand s _ _ fun t => .ite (.of_eq rfl) (.only ((standings t).forCalled _ _ fun _ =>
      ((standings t).offer _ _).answer _ _)))
  | coachAck n =>
    cases h
    exact of_stays (.juryCommand s _ _ fun t => .only ((standings t).forCalled _ _ fun _ =>
      .ite (((standings t).offer _ _).answer _ _) ((standings t).answer _ _)))
  | hold | release => cases h; exact of_stays (.juryCommand s _ _ fun t => .of_eq rfl)
  | closeRound => exact of_stays (.closeRound s h)
  | text cs => cases h; exact of_stays (.juryCommand s _ _ fun t => .ite (.of_eq rfl) (.of_eq rfl))
  | pageTimeEnd => cases h; exact of_stays (.ite (.only board.endPage) all)
  | liveSecondsTick => cases h; exact of_stays (.ite (.only (board.recompose _)) all)
  | statusQuery | clearFault => cases h; exact of_stays (.command s _ _ _ fun t => .of_eq rfl)
  | restart => cases h; exact of_stays (.command s _ _ _ fun t => .restart t)
  | noticeMask flags => exact of_stays (.noticeMask s flags h)
  | unknownCommand k p =>
    cases h; exact of_stays (.ite (.ite all (.of_eq rfl)) (.ite all (.command s _ _ _ fun t => .refl t)))

end LoaderHeld

/-- Settles O7, command by command (`LoaderHeld.exec`). -/
theorem loaderHeldUntilColdReset : Obligations.LoaderHeldUntilColdReset := by
  intro c s t released loaded idle reset h
  obtain ⟨station, consts, digest, roles, mast, span, base, muted⟩ := LoaderHeld.exec released loaded idle reset h
  exact ⟨station, consts, digest, roles, mast, span, base, muted⟩

end Sys2Proof.Machine
end

section
/-! An unheard station becomes SILENT (R29, R71, R125). -/

namespace Sys2Proof.Machine

open Sys2Proof

/-! ## The stages of the change -/

/-- The station with an entry SILENT and the notice raised, before the roster's readers take the change (R29). -/
def State.silenced (s : State) (n : Nat) : State :=
  ({ s with roster := s.roster.set n { s.rosterAt n with presence := .silent } }).raise (.stationSilent n)

/-- The station once the sequencer, the resolver and the scoring unit have taken the change (R71, R125). -/
def State.afterSilence (s : State) (n : Nat) : State :=
  (((s.silenced n).ifRole (·.start) (·.evalRosterHolds)).ifRole (·.jury) (·.landingSilent n)).ifRole (·.jury)
    (·.gatherAll)

/-- STATION_SILENT has its effect on an entry that is due, and none before (R29; log entry 2). -/
theorem exec_stationSilent (s : State) (n : Nat) : exec (.stationSilent n) s =
    .next (if (s.rosterAt n).silentDue s.clock then s.afterSilence n else s) := rfl

/-- `t` with the roster, the sequencer, the contexts, the scoring unit, the table and the outbox of `s`. -/
def restoreSilence (s t : State) : State :=
  { restoreScoring s t with roster := s.roster, start := s.start, contexts := s.contexts }

theorem blockSilence : BlockRestore restoreSilence := ⟨fun _ => rfl, fun _ _ _ => rfl, fun _ _ _ => rfl⟩

namespace Only

variable {s t : State}

/-- A change of one of the blocks that `restoreSilence` puts back. -/
theorem silence {R : State → State → State} (h : Only R s t)
    (w : ∀ u v, restoreSilence s (R u v) = restoreSilence s v := by exact fun _ _ => rfl) :
    Only restoreSilence s t := ⟨blockSilence, by rw [← w s t, h.same]; rfl, h.keeps⟩

theorem silenceRole (h : Only restoreSilence s t) (role : RoleSet → Bool) {act : State → State}
    (k : ∀ u, Only restoreSilence u (act u)) : Only restoreSilence s (t.ifRole role act) := by
  unfold State.ifRole
  exact .ite (h.trans (k t)) h

theorem start_leaves (h : OnlyStart s t) : t.roster = s.roster ∧ t.loader = s.loader :=
  ⟨(congrArg State.roster h.same :), (congrArg State.loader h.same :)⟩

theorem silence_leaves (h : Only restoreSilence s t) : t.loader = s.loader ∧ t.edge = s.edge ∧ t.wind = s.wind ∧
    t.span = s.span ∧ t.standings = s.standings ∧ t.board = s.board ∧ t.line.eventNumber = s.line.eventNumber :=
  ⟨(congrArg State.loader h.same :), (congrArg State.edge h.same :), (congrArg State.wind h.same :),
    (congrArg State.span h.same :), (congrArg State.standings h.same :), (congrArg State.board h.same :),
    (congrArg (·.line.eventNumber) h.same :)⟩

end Only

theorem OnlyScoring.leaves {s t : State} (h : OnlyScoring s t) : t.roster = s.roster ∧ t.start = s.start ∧
    t.contexts = s.contexts :=
  ⟨(congrArg State.roster h.same :), (congrArg State.start h.same :), (congrArg State.contexts h.same :)⟩

/-- The resolver changes the contexts alone. -/
theorem State.landingSilent_only (s : State) (n : Nat) : Only restoreSilence s (s.landingSilent n) := by
  unfold State.landingSilent
  exact ⟨blockSilence, rfl, .of_eq rfl rfl rfl⟩

/-- The change reaches the roster, the sequencer, the resolver and the scoring unit alone. -/
theorem State.afterSilence_only (s : State) (n : Nat) : Only restoreSilence s (s.afterSilence n) := by
  have entry : Only restoreSilence s { s with roster := s.roster.set n { s.rosterAt n with presence := .silent } } :=
    ⟨blockSilence, rfl, .of_eq rfl rfl rfl⟩
  refine (((entry.raise (.stationSilent n)).silenceRole _ fun u => ?_).silenceRole _ fun u => ?_).silenceRole _
    fun u => ?_
  · exact (Only.refl blockStart u).evalRosterHolds.silence
  · exact u.landingSilent_only n
  · exact (OnlyScoring.refl u).gatherAll.toOnly.silence

/-! ## What each reader finds -/

/-- A block that acts for another role leaves what it does not change. -/
theorem State.ifRole_field {α : Type} (f : State → α) (s : State) (role : RoleSet → Bool) {act : State → State}
    (k : f (act s) = f s) : f (s.ifRole role act) = f s := by
  unfold State.ifRole
  split
  · exact k
  · rfl

/-- The scoring unit, which takes the change last, leaves the roster, the sequencer and the contexts. -/
theorem State.gatherAll_leaves (s : State) : s.gatherAll.roster = s.roster ∧ s.gatherAll.start = s.start ∧
    s.gatherAll.contexts = s.contexts := (OnlyScoring.refl s).gatherAll.leaves

/-- No reader of the roster changes it. -/
theorem State.afterSilence_roster (s : State) (n : Nat) : (s.afterSilence n).roster = (s.silenced n).roster := by
  unfold State.afterSilence
  rw [State.ifRole_field _ _ _ (State.gatherAll_leaves _).1, State.ifRole_field State.roster _ _ rfl,
    State.ifRole_field State.roster _ _ (Only.refl blockStart _).evalRosterHolds.start_leaves.1]

/-- At a START station the sequencer evaluates STATION and CONFIG (R71). -/
theorem State.afterSilence_start {s : State} (r : s.loader.roles.start = true) (n : Nat) :
    (s.afterSilence n).start = (s.silenced n).evalRosterHolds.start := by
  unfold State.afterSilence
  rw [State.ifRole_field _ _ _ (State.gatherAll_leaves _).2.1, State.ifRole_field State.start _ _ rfl, State.ifRole,
    if_pos (show (s.silenced n).loader.roles.start = true from r)]

/-- At a JURY station the resolver drops the claims of the station (R125). -/
theorem State.afterSilence_contexts {s : State} (r : s.loader.roles.jury = true) (n : Nat) :
    ∃ v : State, (s.afterSilence n).contexts = (v.landingSilent n).contexts := by
  obtain ⟨v, hv⟩ : ∃ v, v = (s.silenced n).ifRole (·.start) (·.evalRosterHolds) := ⟨_, rfl⟩
  have loader : v.loader = s.loader := by
    rw [hv, State.ifRole_field State.loader _ _ (Only.refl blockStart _).evalRosterHolds.start_leaves.2]
    rfl
  refine ⟨v, ?_⟩
  unfold State.afterSilence
  rw [State.ifRole_field _ _ _ (State.gatherAll_leaves _).2.2, ← hv]
  exact congrArg State.contexts (if_pos (by rw [loader]; exact r))

/-- The claims of a SILENT station leave every context in FLIGHT_WAIT (R125). -/
theorem State.landingSilent_claims (s : State) (n : Nat) {c : LandingContext}
    (m : c ∈ (s.landingSilent n).contexts) (p : c.phase = .flightWait) {k : Claim} (mk : k ∈ c.claims) :
    k.station ≠ n := by
  obtain ⟨c', -, rfl⟩ := List.mem_map.1 m
  by_cases flight : c'.phase = .flightWait
  · rw [if_pos flight] at mk
    simpa using (List.mem_filter.1 mk).2
  · rw [if_neg flight] at p
    exact absurd p flight

/-- After the change the roster holds the entry as SILENT, and every other entry as before (R29). -/
theorem State.afterSilence_rosterAt {s : State} (sound : s.RosterSound) {n : Nat} (i : n < 16) (m : Nat) :
    (s.afterSilence n).rosterAt m = if m = n then { s.rosterAt n with presence := .silent } else s.rosterAt m := by
  have size : n < s.roster.length := by rw [sound]; exact i
  have roster : (s.afterSilence n).roster = s.roster.set n { s.rosterAt n with presence := .silent } :=
    s.afterSilence_roster n
  unfold State.rosterAt
  rw [roster, List.getD_eq_getElem?_getD, List.getElem?_set]
  by_cases e : m = n
  · simp [e, size, State.rosterAt]
  · simp [e, Ne.symm e]

/-- STATION and CONFIG follow the roster as it now stands (R71). -/
theorem State.afterSilence_follows {s : State} (r : s.loader.roles.start = true) (n : Nat) :
    s.RosterHoldsFollow (s.afterSilence n) := by
  obtain ⟨station, config⟩ := (s.silenced n).evalRosterHolds_entries
  rw [← State.afterSilence_start r] at station config
  exact .of_entries (u := s.silenced n) rfl rfl (s.afterSilence_roster n)
    (s.afterSilence_only n).silence_leaves.1 station config

/-- The silence of a required station closes the start by STATION (R30, R64, R71). -/
theorem State.afterSilence_closes {s : State} (r : s.loader.roles.start = true) (sound : s.RosterSound) {n : Nat}
    (i : n < 16) (required : n ∈ s.loader.consts.required) (holds : s.HoldsSound) :
    (s.afterSilence n).start.standing .station = true ∧ (s.afterSilence n).start.phase ≠ .amber ∧
      (s.afterSilence n).start.phase ≠ .green := by
  have loader : (s.afterSilence n).loader = s.loader := (s.afterSilence_only n).silence_leaves.1
  have notReady : (s.afterSilence n).ready n = false := by
    simp [State.ready, State.afterSilence_rosterAt sound i]
  have stands : (s.afterSilence n).start.standing .station = true := by
    obtain ⟨station, -⟩ := State.afterSilence_follows r n _ _ rfl rfl
    refine station.2 (List.ne_nil_of_mem (a := n) (List.mem_filter.2 ⟨?_, ?_⟩))
    · rw [loader]; exact required
    · rw [notReady]; rfl
  have openSound : (s.afterSilence n).start.OpenSound := by
    rw [State.afterSilence_start r]
    exact State.holdWhile_openSound (State.holdWhile_openSound (s := s.silenced n) holds.2 _ _) _ _
  have held := StartState.holds_ne_nil stands
  exact ⟨stands, fun p => held (openSound (.inl p)), fun p => held (openSound (.inr p))⟩

/-- Settles O29: a due entry takes effect (`exec_stationSilent`) on the roster (`State.afterSilence_rosterAt`), the hold
list (`State.afterSilence_follows`, `State.afterSilence_closes`) and the claims (`State.landingSilent_claims`), and on
no other block (`State.afterSilence_only`). -/
theorem stationSilence : Obligations.StationSilence := by
  refine ⟨fun s n heard sound i present last late => ?_, fun s n early => ?_⟩
  · have due : (s.rosterAt n).silentDue s.clock = true := by
      simp [RosterEntry.silentDue, present, last, silenceTime, late]
    refine ⟨s.afterSilence n, by rw [exec_stationSilent, if_pos due], ?_, fun m ne => ?_,
      fun r => State.afterSilence_follows r n,
      fun r required holds => State.afterSilence_closes r sound i required holds, fun r c m p k mk => ?_,
      (s.afterSilence_only n).silence_leaves.2⟩
    · rw [State.afterSilence_rosterAt sound i, if_pos rfl]
    · rw [State.afterSilence_rosterAt sound i, if_neg ne]
    · obtain ⟨v, contexts⟩ := State.afterSilence_contexts r n
      exact v.landingSilent_claims n (contexts ▸ m) p mk
  · rw [exec_stationSilent, if_neg (by simp [early])]

end Sys2Proof.Machine
end

section
/-! The commands of every station, and the console port (R33, R184 to R187). -/

namespace Sys2Proof.Machine

open Sys2Proof

/-! ## STATUS_QUERY (R186) -/

/-- STATUS_QUERY is taken in LOADING as in any other state: its reply carries the reports, and the two marks are
cleared. -/
theorem exec_statusQuery {s : State} (released : s.resetAsserted = false) (taking : s.console.skipping = false)
    (room : s.console.replies.length < 8) : exec .statusQuery s = .next { s with console := { s.console with
      gathered := [], rxQuietUs := 0, overrun := false, commandLost := false
      replies := s.console.replies ++ [⟨0x01, .ok, [], s.reports⟩] } } := by
  have taken : ∀ act, s.command 0x01 true anyRole act = act s.clearAssembler := fun act => by
    have full : ¬8 ≤ s.console.replies.length := by omega
    simp [State.command, released, taking, State.clearAssembler, replyLimit, full, anyRole]
  have cleared : s.clearAssembler = { s with console := { s.console with gathered := [], rxQuietUs := 0 } } := by
    simp only [State.clearAssembler, taking]
  show execStatusQuery s = _
  unfold execStatusQuery
  rw [taken, State.reply, ConsoleState.reply_room _ _ (by exact room), cleared]
  rfl

/-- In LOADING the Station report stands alone. -/
theorem State.reports_loading {s : State} (h : s.loader.state = .loading) : s.reports = [s.stationReport] := if_pos h

/-- After the load the reports are those of the station, of the sixteen roster entries and of the roles held. -/
theorem State.reports_kinds {s : State} (h : s.loader.state ≠ .loading) :
    s.reports.map (·.kind) = 0x82 :: List.replicate 16 0x83 ++
      (if s.loader.roles.start then [0x84] else []) ++ (if s.loader.roles.mast then [0x85] else []) ++
      (if s.loader.roles.jury then [0x86] else []) ++ (if s.loader.roles.board then [0x87] else []) := by
  have roster : ((List.range 16).map s.rosterReport).map (·.kind) = List.replicate 16 0x83 := rfl
  have one : ∀ (c : Bool) (r : ConsoleRecord), (if c then [r] else []).map (·.kind) = if c then [r.kind] else [] :=
    fun c r => by cases c <;> rfl
  unfold State.reports State.roleReports
  rw [if_neg h]
  simp only [List.map_append, List.map_cons, roster, one, List.cons_append, List.append_assoc]
  rfl

/-! ## NOTICE_MASK, CLEAR_FAULT and records of unknown kind (R33, R185, R186) -/

/-- The six flags of a NOTICE_MASK byte name the six classes. -/
theorem ClassSet.ofByte_byte {flags : Nat} (six : flags < 64) : ClassSet.ofByte (byte flags) =
    some ⟨flags.testBit 0, flags.testBit 1, flags.testBit 2, flags.testBit 3, flags.testBit 4, flags.testBit 5⟩ := by
  have same : (byte flags).toNat = flags := by simp [byte]; omega
  have bits : (List.range 6).map (byte flags).getLsbD = (List.range 6).map flags.testBit :=
    List.map_congr_left fun i _ => by rw [BitVec.getLsbD, same]
  unfold ClassSet.ofByte unpackByte
  rw [same, if_pos (by exact six), bits]
  rfl

/-- A flag outside the six classes is no class set. -/
theorem ClassSet.ofByte_byte_none {flags : Nat} (more : 64 ≤ flags) (wide : flags < 256) :
    ClassSet.ofByte (byte flags) = none := by
  have same : (byte flags).toNat = flags := by simp [byte]; omega
  unfold ClassSet.ofByte unpackByte
  rw [same, if_neg (by exact Nat.not_lt.2 more)]

namespace State.TakesRecord

variable {s : State}

/-- A change of what taking a record does not read leaves a station that takes one. -/
theorem withMask (h : s.TakesRecord) (m : ClassSet) :
    ({ s with console := { s.console with mask := m } } : State).TakesRecord :=
  ⟨h.released, h.loaded, h.taking, h.room⟩

theorem withLatch (h : s.TakesRecord) (l : FaultLatch) : ({ s with latch := l } : State).TakesRecord :=
  ⟨h.released, h.loaded, h.taking, h.room⟩

/-- A record that does not have the length of its kind is answered RANGE (R185). -/
theorem wrongLength (h : s.TakesRecord) (kind : Nat) (role : RoleSet → Bool) (act : State → State) :
    s.command kind false role act = s.afterAnswer kind .range := by
  rw [← h.answer]
  obtain ⟨released, loaded, taking, room⟩ := h
  have full : ¬8 ≤ s.console.replies.length := by omega
  simp [State.command, released, loaded, taking, State.clearAssembler, replyLimit, full]

theorem exec_noticeMask (h : s.TakesRecord) {flags : Nat} {m : ClassSet}
    (six : ClassSet.ofByte (byte flags) = some m) : exec (.noticeMask flags) s =
      .next (({ s with console := { s.console with mask := m } } : State).afterAnswer 0x04 .ok) := by
  show execNoticeMask flags s = _
  unfold execNoticeMask
  rw [h.command _ _ _ rfl, six, ← (h.withMask m).answer]
  rfl

theorem exec_noticeMask_none (h : s.TakesRecord) {flags : Nat} (more : ClassSet.ofByte (byte flags) = none) :
    exec (.noticeMask flags) s = .next (s.afterAnswer 0x04 .range) := by
  show execNoticeMask flags s = _
  unfold execNoticeMask
  rw [h.command _ _ _ rfl, more, ← h.answer]

theorem exec_clearFault (h : s.TakesRecord) : exec .clearFault s =
    .next (({ s with latch := { record := none, overflow := false } } : State).afterAnswer 0x03 .ok) := by
  show execClearFault s = _
  unfold execClearFault
  rw [h.command _ _ _ rfl, ← (h.withLatch _).answer]
  rfl

theorem exec_unknownCommand (h : s.TakesRecord) {kind : Nat} {payload : List Byte} (short : payload.length ≤ 60)
    (unknown : knownCommand kind payload.length = false) :
    exec (.unknownCommand kind payload) s = .next (s.afterAnswer kind .range) := by
  show execUnknownCommand kind payload s = _
  unfold execUnknownCommand
  rw [if_neg (by exact Nat.not_lt.2 short), if_neg (by simp [unknown]), h.wrongLength]

end State.TakesRecord

/-! ## The receive assembler (R184) -/

/-- Console RX quiet for 100 ticks ends the mark that ignores characters, and a longer gap drops the partial record. -/
theorem ConsoleState.quietFor_ticks (c : ConsoleState) {gap : Nat} (quiet : 100 ≤ gap) : c.quietFor (gap * tickUs) =
    { c with gathered := if gap = 100 then c.gathered else [], skipping := false, rxQuietUs := gap * 100 } := by
  have dropped : consoleGap * tickUs < gap * tickUs ↔ gap ≠ 100 := by unfold consoleGap tickUs; omega
  have ended : ¬gap * tickUs < consoleGap * tickUs := by unfold consoleGap tickUs; omega
  simp only [ConsoleState.quietFor, dropped, ended, decide_false, Bool.and_false, ite_not]
  rfl

section Released

variable {s : State} (released : s.resetAsserted = false)
include released

theorem exec_unknownCommand_long (kind : Nat) {payload : List Byte} (long : 60 < payload.length) :
    exec (.unknownCommand kind payload) s = .next { s with console := { s.console with
      gathered := [], skipping := true, rxQuietUs := 0 } } := by
  show execUnknownCommand kind payload s = _
  unfold execUnknownCommand
  rw [if_pos (by exact long), if_neg (by simp [released])]
  rfl

theorem exec_consoleGapTimeout {gap : Nat} (quiet : 100 ≤ gap) : exec (.consoleGapTimeout gap) s =
    .next { s with console := { s.console with
      gathered := if gap = 100 then s.console.gathered else [], skipping := false, rxQuietUs := gap * 100 } } := by
  show execConsoleGapTimeout gap s = _
  unfold execConsoleGapTimeout
  rw [if_neg (by simp [released]), if_pos (by exact quiet), State.modConsole, s.console.quietFor_ticks quiet]

theorem exec_consoleGapTimeout_short {gap : Nat} (short : gap < 100) : exec (.consoleGapTimeout gap) s = .next s := by
  show execConsoleGapTimeout gap s = _
  unfold execConsoleGapTimeout
  rw [if_neg (by simp [released]), if_neg (by exact Nat.not_le.2 short)]

theorem exec_consoleFramingError : exec .consoleFramingError s =
    .next { s with console := { s.console with gathered := [], rxQuietUs := 0 } } := by
  show execConsoleFramingError s = _
  unfold execConsoleFramingError
  rw [if_neg (by simp [released])]
  rfl

/-! ## The transmitter (R185, R187; log entry 12) -/

theorem exec_consoleTransmit : exec .consoleTransmit s = .next { s with console := s.console.transmit } := by
  show execConsoleTransmit s = _
  unfold execConsoleTransmit
  rw [if_neg (by simp [released])]
  rfl

end Released

namespace ConsoleState

variable {c : ConsoleState}

/-- The rest of a unit goes out first. -/
theorem transmit_unit {r : ConsoleRecord} {rest : List ConsoleRecord} (u : c.unit = r :: rest) :
    c.transmit = { c with sending := some r, unit := rest } := by
  unfold transmit; rw [u]

/-- A reply goes out before a notice, and its reports follow it as one unit. -/
theorem transmit_reply (u : c.unit = []) {r : Reply} {rest : List Reply} (q : c.replies = r :: rest) :
    c.transmit = { c with sending := some r.record, unit := r.reports, replies := rest } := by
  unfold transmit; rw [u, q]

theorem transmit_notice (u : c.unit = []) (q : c.replies = []) {n : Notice} {rest : List Notice}
    (w : c.notices = n :: rest) : c.transmit = { c with sending := some n.record, notices := rest } := by
  unfold transmit; rw [u, q, w]

theorem transmit_nothing (u : c.unit = []) (q : c.replies = []) (w : c.notices = []) :
    c.transmit = { c with sending := none } := by
  unfold transmit; rw [u, q, w]

end ConsoleState

/-! ## Notices (R187) -/

/-- A raised notice is not queued in LOADING, nor where its class is masked. -/
theorem State.raise_masked {s : State} {n : NoticeBody}
    (h : s.loader.state = .loading ∨ s.console.mask.has n.number.1 = false) : s.raise n = s := by
  have off : (s.loader.state == .loading || !s.console.mask.has n.number.1) = true := by
    rcases h with h | h <;> simp [h]
  unfold State.raise ConsoleState.raise
  rw [if_pos off]

section Unmasked

variable {s : State} {n : NoticeBody} (loaded : s.loader.state ≠ .loading)
  (named : s.console.mask.has n.number.1 = true)
include loaded named

/-- A notice of a named class joins the queue where fewer than 32 wait. -/
theorem State.raise_room (room : s.console.notices.length < 32) : s.raise n = { s with console := { s.console with
    notices := s.console.notices ++ [⟨s.clock, n⟩] } } := by
  unfold State.raise ConsoleState.raise
  rw [if_neg (by simp [loaded, named]), if_neg (by exact Nat.not_le.2 room)]

/-- A notice that finds 32 waiting is lost, with the overrun mark. -/
theorem State.raise_full (full : 32 ≤ s.console.notices.length) :
    s.raise n = { s with console := { s.console with overrun := true } } := by
  unfold State.raise ConsoleState.raise
  rw [if_neg (by simp [loaded, named]), if_pos (by exact full)]

end Unmasked

/-- Settles O52, clause by clause: the commands of every station, the receive assembler, the transmitter and the notice
queue. -/
theorem consolePort : Obligations.ConsolePort := by
  refine ⟨fun s released taking room =>
      ⟨exec_statusQuery released taking room, State.reports_loading, State.reports_kinds⟩,
    fun s h => ⟨fun flags six => h.exec_noticeMask (ClassSet.ofByte_byte six),
      fun flags more wide => h.exec_noticeMask_none (ClassSet.ofByte_byte_none more wide), h.exec_clearFault,
      fun kind payload short unknown => h.exec_unknownCommand short unknown⟩,
    fun s released => ⟨fun kind payload long => exec_unknownCommand_long released kind long,
      fun gap quiet => exec_consoleGapTimeout released quiet,
      fun gap short => exec_consoleGapTimeout_short released short, exec_consoleFramingError released, ?_⟩,
    fun s n loaded named => ⟨State.raise_room loaded named, State.raise_full loaded named⟩,
    fun s n h => State.raise_masked h⟩
  rw [exec_consoleTransmit released]
  refine ⟨fun r rest u => ?_, fun u => ⟨fun r rest q => ?_, fun q => ⟨fun n rest w => ?_, fun w => ?_⟩⟩⟩
  · rw [ConsoleState.transmit_unit u]
  · rw [ConsoleState.transmit_reply u q]; rfl
  · rw [ConsoleState.transmit_notice u q w]; rfl
  · rw [ConsoleState.transmit_nothing u q w]

end Sys2Proof.Machine
end

section
/-! What every step keeps of the attempt table (R35, R43): commands outside the tracker leave the records but for their
scoring parts, and the tracker keeps the table sound. -/

namespace Sys2Proof.Machine

open Sys2Proof

/-! ## A change that leaves the records -/

/-- From `s` to `t` the attempt records stay, but for their scoring parts. -/
def RecordsStay (s t : State) : Prop := t.table.map AttemptRecord.bare = s.table.map AttemptRecord.bare

namespace RecordsStay

variable {s t u : State}

theorem of_eq (h : t.table = s.table) : RecordsStay s t := congrArg (List.map AttemptRecord.bare) h

theorem refl (s : State) : RecordsStay s s := of_eq rfl

theorem trans (h : RecordsStay s t) (k : RecordsStay t u) : RecordsStay s u := Eq.trans k h

/-- A change of a block that writes no scoring part. -/
theorem only {R : State → State → State} (h : Only R s t)
    (w : ∀ u v, (R u v).table = v.table := by exact fun _ _ => rfl) : RecordsStay s t :=
  of_eq ((w s t).symm.trans (congrArg State.table h.same))

theorem ite {c : Prop} [Decidable c] (h : RecordsStay s t) (k : RecordsStay s u) :
    RecordsStay s (if c then t else u) := by split <;> assumption

theorem ifRole (h : RecordsStay s t) (role : RoleSet → Bool) {act : State → State}
    (k : ∀ t, RecordsStay t (act t)) : RecordsStay s (t.ifRole role act) := by
  unfold State.ifRole
  exact .ite (h.trans (k t)) h

/-- A console command comes to its act on a cleared assembler, or leaves the records. -/
theorem command_or (s : State) (kind : Nat) (ok : Bool) (role : RoleSet → Bool) (act : State → State) :
    RecordsStay s (s.command kind ok role act) ∨ s.command kind ok role act = act s.clearAssembler := by
  rcases s.command_cases kind ok role act with
    ⟨-, x⟩ | ⟨-, -, x⟩ | ⟨-, -, ⟨-, x⟩ | ⟨-, ⟨r, x⟩ | ⟨-, -, x⟩⟩⟩ <;> rw [x]
  · exact .inl (refl s)
  · exact .inl (of_eq rfl)
  · exact .inl (of_eq rfl)
  · exact .inl (of_eq rfl)
  · exact .inr rfl

/-- A console command leaves the records where its act does. -/
theorem command (s : State) (kind : Nat) (ok : Bool) (role : RoleSet → Bool) {act : State → State}
    (k : ∀ t, RecordsStay t (act t)) : RecordsStay s (s.command kind ok role act) := by
  rcases command_or s kind ok role act with h | h
  · exact h
  · rw [h]
    exact trans (of_eq rfl) (k s.clearAssembler)

/-- A jury command behind the EVENT test. -/
theorem juryCommand (s : State) (kind : Nat) (ok : Bool) {act : State → State} (k : ∀ t, RecordsStay t (act t)) :
    RecordsStay s (s.command kind ok (·.jury) (fun s => s.eventTest kind act)) :=
  command s kind ok _ fun t => .ite (of_eq rfl) (k t)

/-! ### The load and the line interface -/

theorem startBlocks (s : State) (broken : BarrierInputs) : RecordsStay s (s.startBlocks broken) := by
  unfold State.startBlocks
  refine ((((((refl s).ifRole _ fun t => ?_).ifRole _ fun t => ?_).ifRole _ fun t => ?_).ifRole _ fun t => ?_).ifRole _
    fun t => ?_).ifRole _ fun t => ?_
  · exact only ((Only.refl blockStart t).startEntry _)
  · exact of_eq rfl
  · exact of_eq rfl
  · exact of_eq rfl
  · exact of_eq rfl
  · exact only (Only.refl blockBoard t).boardEntry

theorem enterRun (s : State) (digest : Word16) (k : Constants) (broken : BarrierInputs) :
    RecordsStay s (s.enterRun digest k broken) :=
  trans (t := ({ s with loader := s.loader.enterRun digest k } : State).startBlocks broken) (startBlocks _ broken)
    (trans (t := State.startCorridorCadence _) ((refl _).ifRole _ fun _ => of_eq rfl) (of_eq rfl))

theorem eepromReadEnd (s : State) (bytes : List Byte) (broken : BarrierInputs)
    (h : execEepromReadEnd bytes broken s = .next t) : RecordsStay s t := by
  cases h
  refine .ite ?_ (refl s)
  have sent := of_eq (s := s) (t := s.sendOnEeprom (eepromSends s.loader.station bytes)) rfl
  dsimp only
  split
  · exact of_eq rfl
  · exact of_eq rfl
  · exact sent.trans (enterRun _ _ _ _)

theorem abandonTx (s : State) (k : FaultKind) : RecordsStay s (s.abandonTx k) := by
  unfold State.abandonTx
  split <;> exact of_eq rfl

/-! ### The roster, the sequencer, the wind unit and the span unit -/

theorem stationSilent (s : State) (n : Nat) (h : execStationSilent n s = .next t) : RecordsStay s t := by
  cases h
  refine .ite ?_ (refl s)
  refine RecordsStay.ifRole (RecordsStay.ifRole (RecordsStay.ifRole (of_eq rfl) _ fun t => ?_) _
    fun t => ?_) _ fun t => ?_
  · exact only (Only.refl blockStart t).evalRosterHolds
  · exact of_eq rfl
  · exact (OnlyScoring.refl t).gatherAll.bare

theorem corridorEntryAged (s : State) (mast : Nat) (h : execCorridorEntryAged mast s = .next t) :
    RecordsStay s t := by
  cases h
  split
  · exact refl s
  · exact .ite (of_eq rfl) (only (R := restoreStart) ((Only.refl blockStart s).modStart _).evalWind)

theorem lampCheck (s : State) (faulty : LampSet) (h : execLampCheck faulty s = .next t) : RecordsStay s t := by
  cases h
  refine command _ _ _ _ fun u => .ite (of_eq rfl) (.ite ?_ (of_eq rfl))
  exact only (R := restoreStart) ((((Only.refl blockStart u).modStart _).releaseHold _).answer _ _)

theorem pollTime (s : State) (low : Bool) (h : execPollTime low s = .next t) : RecordsStay s t := by
  cases h
  have k := (Only.refl blockWind s).modWind
    (fun w => { w with nextPoll := w.nextPoll.map (· + pollPeriod), dataLow := low })
  exact .ite (.ite (of_eq rfl) (.ite (.ite (only (k.detectHang _).failedPoll)
    (only (k.beginTransaction _ _))) (only k.failedPoll))) (refl s)

theorem clockStretchTimeout (s : State) (read : List Byte) (h : execClockStretchTimeout read s = .next t) :
    RecordsStay s t := by
  cases h
  have o := Only.refl blockWind s
  split
  · exact only (o.detectHang _).failedPoll
  · exact only (((o.modWind _).detectHang _).answerTransfer _)
  · exact refl s

theorem releaseBurstEnd (s : State) (high : Bool) (h : execReleaseBurstEnd high s = .next t) :
    RecordsStay s t := by
  cases h
  split
  · have k := ((Only.refl blockWind s).modWind (fun w => { w with dataLow := !high })).setBus
      (if high then .free else .hung)
    exact .ite (only ((k.modWind _).reply _)) (only k.carryOut)
  · exact refl s

theorem sensorTransferEnd (s : State) (o : TransferOutcome) (read : List Byte)
    (h : execSensorTransferEnd o read s = .next t) : RecordsStay s t := by
  cases h
  split
  · exact .ite (only ((((Only.refl blockWind s).modWind _).endTransaction _ _).answerTransfer _)) (refl s)
  · exact refl s

theorem presence (s : State) (on : Bool) (e : Tick) (h : execPresence on e s = .next t) : RecordsStay s t := by
  cases h
  have o := (Only.refl blockSpan s).headRecord e
  exact .ite (.ite (only o) (.ite (only (o.modSpan _).beginClaim) (only (o.presenceOff _)))) (refl s)

theorem viewLimitExpiry (s : State) (h : execViewLimitExpiry s = .next t) : RecordsStay s t := by
  cases h
  split
  · exact refl s
  · exact .ite (only ((Only.refl blockSpan s).endClaim _ _)) (refl s)

/-! ### The jury's blocks -/

/-- A command of the landing resolver that acts on the context of an attempt. -/
theorem onContext {n : Nat} {act : LandingContext → State} (k : ∀ c, OnlyLanding s (act c)) :
    RecordsStay s (match s.context? n with
      | none => s
      | some c => act c) := by
  split
  · exact refl s
  · exact only (k _)

theorem closingEnd (s : State) (n : Nat) (h : execClosingEnd n s = .next t) : RecordsStay s t := by
  cases h
  refine onContext fun c => .ite ?_ (.refl blockLanding s)
  split <;> exact (Only.refl blockLanding s).offerLanding _ _ _ _ _

theorem gatherDeadline (s : State) (n : Nat) (h : execGatherDeadline n s = .next t) : RecordsStay s t := by
  cases h
  split
  · exact refl s
  · exact .ite ((OnlyScoring.refl s).gatherDone _ _ _).bare (refl s)

theorem takeManual (s : State) (n d : Nat) : RecordsStay s (s.takeManual n d) := by
  unfold State.takeManual
  refine .ite (of_eq rfl) ?_
  split
  · exact of_eq rfl
  · refine .ite (of_eq rfl) ?_
    split
    · exact .ite (of_eq rfl) (of_eq rfl)
    · exact .ite ((OnlyScoring.refl s).scoringManual _ _).bare (of_eq rfl)

theorem keypadRecord (s : State) (channel : Nat) (seat mark check : Byte)
    (h : execKeypadRecord channel seat mark check s = .next t) : RecordsStay s t := by
  cases h
  refine .ite (.ite ?_ (of_eq rfl)) (refl s)
  unfold State.keypad
  refine .ite ?_ (of_eq rfl)
  exact ((OnlyScoring.refl (s.modSeat channel (fun c => { c with gathered := [] }))).takeMark
    seat.toNat mark.toNat).bare

theorem closeRound (s : State) (h : execCloseRound s = .next t) : RecordsStay s t := by
  cases h
  refine juryCommand s _ _ fun u => ifRole (only (R := restoreStandings) ?_) _
    fun v => only ((Only.refl blockBoard v).boardListChange _)
  have o := Only.refl blockStandings u
  exact .ite ((((o.modStandings _).answer _ _).raise _).testClosing) (o.answer _ _)

theorem noticeMask (s : State) (flags : Nat) (h : execNoticeMask flags s = .next t) : RecordsStay s t := by
  cases h
  refine command s _ _ _ fun u => ?_
  split <;> exact of_eq rfl

end RecordsStay

/-! ## Commands outside the tracker -/

/-- A command brings a frame, empties the table, voids a record locally, or leaves the records but for their scoring
parts (R35, R53, R57). -/
theorem exec_records {c : Instr} {s t : State} (e : exec c s = .next t) : (∃ h b, t = s.receive h b) ∨
    (c = .restart ∨ c = .callLapsed ∨ c = .resetAssert ∨ ∃ n, c = .resetRelease n) ∨ RecordsStay s t := by
  have start := Only.refl blockStart s
  have edge := Only.refl blockEdge s
  have wind := Only.refl blockWind s
  have span := Only.refl blockSpan s
  have landing := Only.refl blockLanding s
  have board := Only.refl blockBoard s
  have standings (u : State) := Only.refl blockStandings u
  have scoring (u : State) := OnlyScoring.refl u
  have all := RecordsStay.refl s
  cases c with
  | resetAssert => exact .inr (.inl (.inr (.inr (.inl rfl))))
  | resetRelease n => exact .inr (.inl (.inr (.inr (.inr ⟨n, rfl⟩))))
  | restart => exact .inr (.inl (.inl rfl))
  | callLapsed => exact .inr (.inl (.inr (.inl rfl)))
  | statusFrame l p | corridorFrame l m x y u f | eventFrame l n m r | callFrame l h g | goFrame l h
  | gateFrame l h g a | holdFrame l b | roundFrame l r m g | textFrame l cs | phaseFrame l h p g sec n
  | coachFrame l h g q w | leaveFrame l h b | voidFrame l h r | speedFrame l h v | takeoffFrame l h n
  | inViewFrame l h sp | viewLostFrame l h sp r | contactFrame l h sp k p | landingFrame l h d q n c
  | mastmeanFrame l h m x u p | resultFrame l r => cases e; exact .inl ⟨_, _, rfl⟩
  | eepromReadEnd bytes broken => exact .inr (.inr (.eepromReadEnd s bytes broken e))
  | eepromRetryTimer => cases e; exact .inr (.inr (.ite (.ite (.of_eq rfl) (.of_eq rfl)) all))
  | txEcho => cases e; exact .inr (.inr (.abandonTx s _))
  | txJabber us => cases e; exact .inr (.inr (.ite (.abandonTx s _) all))
  | transmissionStart us => cases e; refine .inr (.inr ?_); split <;> exact .of_eq rfl
  | lineHung us | invalidFrame bytes | rxFramingError =>
    cases e; exact .inr (.inr (.ite (.ite (.of_eq rfl) (.of_eq rfl)) all))
  | lineHungEnd us | rxCharacterGap us | statusOffer | corridorOffer | graceTimerExpiry | countdownTick
  | leaveBarrierClear | leaveBarrierStuck | rejectLampEnd | edgeBarrierClear x | edgeBarrierStuck x
  | headRecordDiscard why | keypadGapTimeout ch why | lampFlashToggle ch | lampAnswerEnd ch | panelRowPeriod
  | consoleTransmit | consoleFramingError => cases e; exact .inr (.inr (.ite (.of_eq rfl) (.of_eq rfl)))
  | consoleGapTimeout gap => cases e; exact .inr (.inr (.ite all (.ite (.of_eq rfl) all)))
  | stationSilent n => exact .inr (.inr (.stationSilent s n e))
  | readyTimerExpiry => cases e; exact .inr (.inr (.ite (.ite (.only start.enterGreen) (.of_eq rfl)) all))
  | windowTimerExpiry =>
    cases e; exact .inr (.inr (.ite (.ite (.only ((start.modStart _).ownVoid _)) (.of_eq rfl)) all))
  | settleTimerExpiry => cases e; exact .inr (.inr (.ite (.only ((start.modStart _).releaseHold _)) all))
  | corridorEntryAged m => exact .inr (.inr (.corridorEntryAged s m e))
  | leaveBreak => cases e; exact .inr (.inr (.ite (.only ((start.modStart _).takeLeave _)) all))
  | trackHold => cases e; exact .inr (.inr (.ite (.only (start.raiseHold _ _ _)) all))
  | trackRelease => cases e; exact .inr (.inr (.ite (.only (start.releaseHold _)) all))
  | coachRequestPress sel => cases e; exact .inr (.inr (.ite (.only (start.pressCoach sel)) all))
  | lampFail lamp =>
    cases e; exact .inr (.inr (.ite (.only (((start.modStart _).report _ _).raiseHold _ _ _)) all))
  | lampCheck faulty => exact .inr (.inr (.lampCheck s faulty e))
  | barrierABreak => cases e; exact .inr (.inr (.only (edge.edgeBreak _ fun h r e u => h.breakA r e u)))
  | barrierBBreak => cases e; exact .inr (.inr (.only (edge.edgeBreak _ fun h r e u => h.breakB r e u)))
  | barrierTBreak => cases e; exact .inr (.inr (.only (edge.edgeBreak _ fun h r e _ => h.breakT r e)))
  | pollTime low => exact .inr (.inr (.pollTime s low e))
  | pollComplete r => cases e; exact .inr (.inr (.ite (.only ((wind.endTransaction _ _).pollOutcome _).carryOut) all))
  | clockStretchTimeout read => exact .inr (.inr (.clockStretchTimeout s read e))
  | releaseBurstEnd high => exact .inr (.inr (.releaseBurstEnd s high e))
  | sensorMode m | sensorRelease =>
    cases e; exact .inr (.inr (.command s _ _ _ fun t => .only ((Only.refl blockWind t).takeOp _ _)))
  | sensorTransfer a n w low =>
    cases e; exact .inr (.inr (.command s _ _ _ fun t => .only (((Only.refl blockWind t).modWind _).takeOp _ _)))
  | sensorTransferEnd o read => exact .inr (.inr (.sensorTransferEnd s o read e))
  | heartbeat w => cases e; exact .inr (.inr (.ite (.only (span.headRecord w)) all))
  | presence on w => exact .inr (.inr (.presence s on w e))
  | headContact k o w => cases e; exact .inr (.inr (.ite (.only ((span.headRecord w).spanContact k o w)) all))
  | headLinkSilent =>
    cases e; exact .inr (.inr (.ite (.only ((((span.modSpan _).report _ _).raise _).presenceOff _)) all))
  | viewLimitExpiry => exact .inr (.inr (.viewLimitExpiry s e))
  | inrunTimerExpiry n => cases e; exact .inr (.inr (.onContext fun c => landing.takeInrun c))
  | flightTimerExpiry n => cases e; exact .inr (.inr (.onContext fun c => landing.takeFlight c))
  | claimLimitReached n sp => cases e; exact .inr (.inr (.onContext fun c => .ite (landing.setContext _) landing))
  | resolutionTime n => cases e; exact .inr (.inr (.onContext fun c => landing.takeResolution c))
  | closingEnd n => exact .inr (.inr (.closingEnd s n e))
  | gatherDeadline n => exact .inr (.inr (.gatherDeadline s n e))
  | manualDistance n d => cases e; exact .inr (.inr (.juryCommand s _ _ fun t => .takeManual t n d))
  | keypadRecord ch seat mark check => exact .inr (.inr (.keypadRecord s ch seat mark check e))
  | forceScore n => cases e; exact .inr (.inr (.juryCommand s _ _ fun t => ((scoring t).takeForce n).bare))
  | correctDistance n d => cases e; exact .inr (.inr (.juryCommand s _ _ fun t => ((scoring t).takeCorrectDistance n d).bare))
  | correctMark n seat m => cases e; exact .inr (.inr (.juryCommand s _ _ fun t => ((scoring t).takeCorrectMark n seat m).bare))
  | void n r => cases e; exact .inr (.inr (.juryCommand s _ _ fun t => ((scoring t).takeVoid n r).bare))
  | newEvent n m r => cases e; exact .inr (.inr (.command s _ _ _ fun t => .only ((standings t).takeNewEvent n m r)))
  | startList bs => cases e; exact .inr (.inr (.juryCommand s _ _ fun t => .only ((standings t).takeStartList bs)))
  | dns bib =>
    cases e
    exact .inr (.inr (.juryCommand s _ _ fun t => .ite (.of_eq rfl) (.ite (.of_eq rfl) (.ite (.of_eq rfl) (.of_eq rfl)))))
  | call g f => cases e; exact .inr (.inr (.juryCommand s _ _ fun t => .only ((standings t).takeCall g f)))
  | go n =>
    cases e
    exact .inr (.inr (.juryCommand s _ _ fun t => .only ((standings t).forCalled _ _ fun _ =>
      ((standings t).offer _ _).answer _ _)))
  | setGate n g =>
    cases e
    exact .inr (.inr (.juryCommand s _ _ fun t => .ite (.of_eq rfl) (.only ((standings t).forCalled _ _ fun _ =>
      ((standings t).offer _ _).answer _ _))))
  | coachAck n =>
    cases e
    exact .inr (.inr (.juryCommand s _ _ fun t => .only ((standings t).forCalled _ _ fun _ =>
      .ite (((standings t).offer _ _).answer _ _) ((standings t).answer _ _))))
  | hold | release => cases e; exact .inr (.inr (.juryCommand s _ _ fun t => .of_eq rfl))
  | closeRound => exact .inr (.inr (.closeRound s e))
  | text cs => cases e; exact .inr (.inr (.juryCommand s _ _ fun t => .ite (.of_eq rfl) (.of_eq rfl)))
  | pageTimeEnd => cases e; exact .inr (.inr (.ite (.only board.endPage) all))
  | liveSecondsTick => cases e; exact .inr (.inr (.ite (.only (board.recompose _)) all))
  | statusQuery | clearFault => cases e; exact .inr (.inr (.command s _ _ _ fun t => .of_eq rfl))
  | noticeMask flags => exact .inr (.inr (.noticeMask s flags e))
  | unknownCommand k p =>
    cases e; exact .inr (.inr (.ite (.ite all (.of_eq rfl)) (.ite all (.command s _ _ _ fun t => .refl t))))

/-! ## A sound table (R35, R43) -/

/-- At most one record is in a flight state where no two of different attempts are. -/
theorem State.tableSound_iff {s : State} : s.TableSound ↔ s.table.length ≤ 8 ∧
    (s.table.map (·.hdr.attempt)).Nodup ∧ ∀ x ∈ s.table, ∀ y ∈ s.table, x.state.flight = true →
      y.state.flight = true → x.hdr.attempt = y.hdr.attempt := by
  unfold State.TableSound
  refine and_congr_right fun _ => and_congr_right fun nodup => ?_
  generalize s.table = rs at nodup
  have inj : ∀ x ∈ rs, ∀ y ∈ rs, x.hdr.attempt = y.hdr.attempt → x = y :=
    fun x hx y hy e => List.inj_on_of_nodup_map nodup hx hy e
  have flights : (rs.filter (·.state.flight)).Nodup := (List.Nodup.of_map _ nodup).filter _
  constructor
  · intro le x hx y hy fx fy
    have mx : x ∈ rs.filter (·.state.flight) := List.mem_filter.2 ⟨hx, fx⟩
    have my : y ∈ rs.filter (·.state.flight) := List.mem_filter.2 ⟨hy, fy⟩
    match e : rs.filter (·.state.flight) with
    | [] => rw [e] at mx; cases mx
    | [z] => rw [e, List.mem_singleton] at mx my; rw [mx, my]
    | _ :: _ :: _ => rw [e] at le; simp at le
  · intro one
    match e : rs.filter (·.state.flight) with
    | [] => simp [e]
    | [z] => simp [e]
    | x :: y :: zs =>
      have mx : x ∈ rs.filter (·.state.flight) := by rw [e]; simp
      have my : y ∈ rs.filter (·.state.flight) := by rw [e]; simp
      rw [List.mem_filter] at mx my
      have same := inj x mx.1 y my.1 (one x mx.1 y my.1 mx.2 my.2)
      rw [e, same] at flights
      simp at flights

/-- Records with the same headers have the same numbers. -/
theorem numbers_of_headers {s t : State} (h : t.table.map (·.hdr) = s.table.map (·.hdr)) :
    t.table.map (·.hdr.attempt) = s.table.map (·.hdr.attempt) := by
  have e := congrArg (List.map (·.attempt)) h
  rwa [List.map_map, List.map_map] at e

/-- RESTART leaves no record (R57). -/
theorem State.restart_table (s : State) : s.restart.table = [] := by
  obtain ⟨u, hu⟩ : ∃ u : State, u = s.emptyConsole.standingsRestart := ⟨_, rfl⟩
  have empty : RecordsStay { u with table := [] } u.emptyTable :=
    (RecordsStay.ifRole (.refl _) _ fun t => .only (Only.refl blockStart t).startRestart).trans
      (State.handChanges_only _ _ _ _).bare
  have k1 := empty.ifRole (·.mast) fun t => .only (WindStep.windRestart t).toOnly
  have k2 := (k1.trans (t := State.scoringRestart _) (.of_eq rfl)).ifRole (·.board)
    fun t => .only (Only.refl blockBoard t).boardRestart
  subst hu
  exact List.map_eq_nil_iff.1 k2

/-- Time that passes leaves the records. -/
theorem RecordsStay.tick (s : State) : RecordsStay s s.tick := by
  unfold State.tick
  split
  · unfold State.micro
    refine .ite (.refl s) ((RecordsStay.of_eq ?_).ifRole _ fun t => .of_eq rfl)
    show State.table (if _ then _ else _) = _
    split <;> rfl
  · exact .of_eq rfl

/-! ## Room for a new record (R42) -/

theorem oldest_mem {now : Tick} {rs : List AttemptRecord} {r : AttemptRecord} (h : oldest now rs = some r) : r ∈ rs := by
  induction rs with
  | nil => cases h
  | cons x xs ih =>
    unfold oldest at h
    split at h
    · cases h
      exact List.mem_cons_self ..
    · rename_i o e
      split at h
      · cases h
        exact List.mem_cons_of_mem _ (ih e)
      · cases h
        exact List.mem_cons_self ..

/-- Room is free where the table holds fewer than eight records. -/
theorem State.roomFor_free {s : State} {live : Bool} (h : s.roomFor live = .free) : s.table.length < 8 := by
  unfold State.roomFor at h
  split at h
  · assumption
  · split at h
    · cases h
    · split at h
      · split at h <;> cases h
      · cases h

/-- A record that makes room is one of the table. -/
theorem State.roomFor_mem {s : State} {live : Bool} {r : AttemptRecord}
    (h : s.roomFor live = .reuse r ∨ s.roomFor live = .evict r) : r ∈ s.table := by
  unfold State.roomFor at h
  split at h
  · rcases h with h | h <;> cases h
  · split at h
    · rename_i e
      rcases h with h | h <;> cases h
      exact (List.mem_filter.1 (oldest_mem e)).1
    · split at h
      · split at h
        · rename_i e
          rcases h with h | h <;> cases h
          exact oldest_mem e
        · rcases h with h | h <;> cases h
      · rcases h with h | h <;> cases h

namespace State.TableSound

variable {s t : State}

theorem of_records (h : RecordsStay s t) (k : s.TableSound) : t.TableSound := by
  have via : ∀ u : State, u.TableSound ↔ (u.table.map AttemptRecord.bare).length ≤ 8 ∧
      ((u.table.map AttemptRecord.bare).map (·.hdr.attempt)).Nodup ∧
      ((u.table.map AttemptRecord.bare).filter (·.state.flight)).length ≤ 1 := fun u => by
    unfold State.TableSound
    rw [List.length_map, List.map_map, List.filter_map, List.length_map]
    rfl
  rw [via] at k ⊢
  rwa [h]

/-- Records with unchanged numbers, where no two of different attempts are in flight. -/
theorem map (k : s.TableSound) (f : AttemptRecord → AttemptRecord)
    (number : ∀ r ∈ s.table, (f r).hdr.attempt = r.hdr.attempt)
    (one : ∀ x ∈ s.table, ∀ y ∈ s.table, (f x).state.flight = true → (f y).state.flight = true →
      x.hdr.attempt = y.hdr.attempt) : ({ s with table := s.table.map f } : State).TableSound := by
  obtain ⟨len, nodup, -⟩ := State.tableSound_iff.1 k
  refine State.tableSound_iff.2 ⟨by simpa using len, ?_, ?_⟩
  · show ((s.table.map f).map (·.hdr.attempt)).Nodup
    rw [List.map_map, List.map_congr_left (g := (·.hdr.attempt)) number]
    exact nodup
  · intro x hx y hy fx fy
    obtain ⟨x, mx, rfl⟩ := List.mem_map.1 hx
    obtain ⟨y, my, rfl⟩ := List.mem_map.1 hy
    rw [number x mx, number y my]
    exact one x mx y my fx fy

theorem dropRecord (k : s.TableSound) (n : Nat) : (s.dropRecord n).TableSound := by
  obtain ⟨len, nodup, one⟩ := State.tableSound_iff.1 k
  refine State.tableSound_iff.2 ⟨(List.length_filter_le _ _).trans len, ?_, fun x hx y hy => ?_⟩
  · exact nodup.sublist (List.filter_sublist.map _)
  · exact one x (List.mem_filter.1 hx).1 y (List.mem_filter.1 hy).1

/-- A record that alone of its number is changed, and comes into no flight state that it was not in. -/
theorem setRecord (k : s.TableSound) {n : Nat} {r r' : AttemptRecord} (found : s.attempt? n = some r)
    (number : r'.hdr.attempt = n) (grounded : r'.state.flight = true → r.state.flight = true) :
    (s.setRecord n (fun _ => r')).TableSound := by
  obtain ⟨-, nodup, one⟩ := State.tableSound_iff.1 k
  have mem : r ∈ s.table := List.mem_of_find?_eq_some found
  have rn := State.attempt?_number found
  have flight : ∀ x ∈ s.table, (if x.hdr.attempt == n then r' else x).state.flight = true →
      x.state.flight = true := fun x hx fx => by
    by_cases e : x.hdr.attempt = n
    · have same : x = r := List.inj_on_of_nodup_map nodup hx mem (e.trans rn.symm)
      rw [if_pos (by simpa using e)] at fx
      rw [same]
      exact grounded fx
    · rwa [if_neg (by simpa using e)] at fx
  refine k.map _ (fun x _ => ?_) fun x hx y hy fx fy => one x hx y hy (flight x hx fx) (flight y hy fy)
  by_cases e : x.hdr.attempt = n <;> simp [e, number]

/-- R43 leaves no other attempt in flight. -/
theorem forceOthers (nodup : (s.table.map (·.hdr.attempt)).Nodup) (len : s.table.length ≤ 8) (n : Nat) :
    (s.forceOthers n true).1.TableSound := by
  have hdr : ∀ r : AttemptRecord, (if r.forcedBy n then r.forceLanded else r).hdr = r.hdr := fun r => by
    split <;> rfl
  have only : ∀ r : AttemptRecord, (if r.forcedBy n then r.forceLanded else r).state.flight = true →
      r.hdr.attempt = n := fun r f => by
    by_contra ne
    by_cases fl : r.state.flight = true
    · rw [if_pos (by simp [AttemptRecord.forcedBy, ne, fl])] at f
      cases f
    · simp [AttemptRecord.forcedBy, fl] at f
  refine State.tableSound_iff.2 ⟨?_, ?_, fun x hx y hy fx fy => ?_⟩
  · simpa [State.forceOthers] using len
  · rw [numbers_of_headers (s.forceOthers_attempt n true).2]
    exact nodup
  · obtain ⟨x, -, rfl⟩ := List.mem_map.1 hx
    obtain ⟨y, -, rfl⟩ := List.mem_map.1 hy
    rw [hdr, hdr, only x fx, only y fy]

theorem raiseChanges (k : s.TableSound) (cs : List Change) : (s.raiseChanges cs).TableSound :=
  k.of_records (.of_eq (s.raiseChanges_table cs))

/-- A created record joins a table with room, and no other stays in flight with it (R41, R43). -/
theorem addRecord (k : s.TableSound) {r : AttemptRecord} (room : s.table.length < 8)
    (new : s.attempt? r.hdr.attempt = none) : (s.addRecord r).1.TableSound := by
  obtain ⟨-, nodup, one⟩ := State.tableSound_iff.1 k
  have len : ({ s with table := s.table ++ [r] } : State).table.length ≤ 8 := by simpa using room
  have fresh : ∀ x ∈ s.table, x.hdr.attempt ≠ r.hdr.attempt := by
    simpa [State.attempt?, List.find?_eq_none] using new
  have nodup' : (({ s with table := s.table ++ [r] } : State).table.map (·.hdr.attempt)).Nodup := by
    simpa [List.nodup_append, nodup] using fresh
  refine raiseChanges ?_ _
  by_cases f : r.state.flight = true
  · rw [f]
    exact forceOthers nodup' len _
  · rw [Bool.not_eq_true] at f
    rw [f]
    refine State.tableSound_iff.2 ⟨len, nodup', fun x hx y hy fx fy => ?_⟩
    have old : ∀ z ∈ s.table ++ [r], z.state.flight = true → z ∈ s.table := fun z hz fz => by
      rcases List.mem_append.1 hz with m | m
      · exact m
      · rw [List.mem_singleton.1 m, f] at fz
        cases fz
    exact one x (old x hx fx) y (old y hy fy) fx fy

/-- A frame of a record held keeps the table sound: one that puts it into a flight state forces the others to LANDED. -/
theorem takeKnown (k : s.TableSound) (own : Bool) (l : LineHdr) (b : Body) {h : AttemptHdr} {r : AttemptRecord}
    (found : s.attempt? h.attempt = some r) : (s.takeKnown own l b h r).1.TableSound := by
  unfold State.takeKnown
  extract_lets s1 r' s2
  have t1 : s1.table = s.table := by
    unfold s1
    split <;> simp
  have k1 : s1.TableSound := k.of_records (.of_eq t1)
  have found1 : s1.attempt? h.attempt = some r := by
    unfold State.attempt? at found ⊢; rw [t1, found]
  have number : r'.hdr.attempt = h.attempt := by
    unfold r'
    rw [(r.take_keeps _ l b).1]
    exact State.attempt?_number found
  split
  · rename_i same
    exact k1.setRecord found1 number fun f => same ▸ f
  · refine raiseChanges ?_ _
    by_cases f : r'.state.flight = true
    · rw [f]
      obtain ⟨len, nodup, -⟩ := State.tableSound_iff.1
        (k1.setRecord (r' := { r' with state := .landed }) found1 number fun x => by cases x)
      refine forceOthers ?_ (by simpa [s2] using len) _
      refine (congrArg List.Nodup ?_).mp nodup
      simp only [s2, State.setRecord_table, List.map_map]
      refine List.map_congr_left fun x _ => ?_
      by_cases e : x.hdr.attempt = h.attempt <;> simp [e]
    · rw [Bool.not_eq_true] at f
      rw [f]
      exact k1.setRecord found1 number fun g => absurd (f.symm.trans g) (by decide)

/-- The number of a removed record is free, and its place (R42). -/
theorem removeRecord (k : s.TableSound) (l : LineHdr) {old : AttemptRecord} (mem : old ∈ s.table) {n : Nat}
    (new : s.attempt? n = none) : (s.removeRecord l old).TableSound ∧ (s.removeRecord l old).table.length < 8 ∧
      (s.removeRecord l old).attempt? n = none := by
  have stay : RecordsStay (s.dropRecord old.hdr.attempt) (s.removeRecord l old) := (State.handChanges_only _ _ _ _).bare
  refine ⟨(k.dropRecord _).of_records stay, ?_, ?_⟩
  · have shorter : (s.dropRecord old.hdr.attempt).table.length < s.table.length :=
      List.length_filter_lt_length_iff_exists.2 ⟨old, mem, by simp⟩
    have same : (s.removeRecord l old).table.length = (s.dropRecord old.hdr.attempt).table.length := by
      simpa using congrArg List.length stay
    have := k.1
    omega
  · have e := State.attempt?_bare stay n
    have gone : (s.dropRecord old.hdr.attempt).attempt? n = none := by
      simp only [State.attempt?, State.dropRecord, List.find?_eq_none, List.mem_filter] at new ⊢
      exact fun x hx => new x hx.1
    rw [gone] at e
    exact Option.map_eq_none_iff.1 e

/-- A frame of an unknown attempt keeps the table sound: room is made before its record joins (R42). -/
theorem createRecord (k : s.TableSound) (l : LineHdr) (b : Body) {h : AttemptHdr} (new : s.attempt? h.attempt = none) :
    (s.createRecord l b h).1.TableSound := by
  have hdr := (newRecord_keeps h l b).1
  unfold State.createRecord
  dsimp only
  cases room : s.roomFor (newRecord h l b).state.live with
  | free => exact k.addRecord (State.roomFor_free room) (by rwa [hdr])
  | reuse old =>
    obtain ⟨k', len, new'⟩ := k.removeRecord l (State.roomFor_mem (.inl room)) new
    exact k'.addRecord len (by rwa [hdr])
  | evict old =>
    have kr : (s.report .tableEvict old.hdr.attempt).TableSound := k
    obtain ⟨k', len, new'⟩ := kr.removeRecord l (State.roomFor_mem (s := s) (.inr room)) new
    exact k'.addRecord len (by rwa [hdr])
  | none => exact k

theorem track (k : s.TableSound) (l : LineHdr) (b : Body) : (s.track l b).1.TableSound := by
  unfold State.track
  split
  · exact ⟨Nat.zero_le _, List.nodup_nil, Nat.zero_le _⟩
  · split
    · exact k
    · split
      · rename_i found; exact k.takeKnown _ l b found
      · rename_i new
        split
        · exact k.createRecord l b new
        · exact k

/-- A delivered frame keeps the table sound: the roster and the blocks leave the records, and the tracker keeps it. -/
theorem deliver (k : s.TableSound) (l : LineHdr) (b : Body) : (s.deliver l b).TableSound := by
  by_cases p : s.loader.state.base ≠ .run ∨ s.passesFilter l b = false
  · rw [State.deliver_filtered p]
    exact k.of_records (AttemptsStay.rosterTake s l b).table
  · rw [not_or, not_not, Bool.not_eq_false] at p
    exact ((k.of_records (s.tracked_stays l b).table).track l b).of_records (State.deliver_bare p.1 p.2)

/-- A frame heard is delivered, or leaves the records. -/
theorem receive (k : s.TableSound) (h : RxHdr) (b : Body) : (s.receive h b).TableSound := by
  have muted : ∀ u : State, RecordsStay u (u.mute b.kind) := fun u =>
    ((RecordsStay.refl u).ifRole (·.start) fun t => .only (Only.refl blockStart t).startMuted).trans (.of_eq rfl)
  have heard : ∀ (line : LineState) {l : LineHdr}, (({ s with line := line } : State).deliver l b).TableSound :=
    fun line l => State.TableSound.deliver (s := { s with line := line }) k l b
  unfold State.receive
  split
  · exact k
  split
  · exact k
  split
  · split
    · unfold State.echo
      dsimp only
      split
      · exact heard _
      · exact k
    · exact k
  · dsimp only
    split
    · exact k
    split
    · unfold State.hearOther
      dsimp only
      split
      · split
        · exact k
        · exact State.TableSound.of_records (muted { s with line := s.line.heard b }) k
      · exact heard _
    · exact k

/-- A record that is voided locally is in no flight state (R53). -/
theorem voidLocally (k : s.TableSound) (n : Nat) : (s.voidLocally n).1.TableSound := by
  unfold State.voidLocally
  split
  · exact k
  · rename_i r found
    split
    · exact k
    · exact (k.setRecord (r := r) (r' := { r with state := .void }) found (State.attempt?_number (r := r) found)
        fun f => by cases f).raiseChanges _

theorem callLapsed (k : s.TableSound) (h : execCallLapsed s = .next t) : t.TableSound := by
  cases h
  split
  · exact k
  · rename_i p _
    have k1 : (s.modStandings (fun t => { t with pendingCall := none })).TableSound := k
    exact (k1.voidLocally p.attempt).of_records
      (.trans (State.handChanges_only _ _ _ _).bare (.of_eq (State.raise_table _ _)))

/-- RESTART empties the table, or is not taken (R57, R185). -/
theorem restart (k : s.TableSound) (h : execRestart s = .next t) : t.TableSound := by
  cases h
  rcases RecordsStay.command_or s 0x02 true anyRole (fun s => s.restart.answer 0x02 .ok) with h | h
  · exact k.of_records h
  · rw [h]
    unfold State.TableSound
    rw [State.answer_table, State.restart_table]
    exact ⟨Nat.zero_le _, List.nodup_nil, Nat.zero_le _⟩

end State.TableSound

/-- Every command keeps the table sound. -/
theorem exec_tableSound {c : Instr} {s t : State} (h : exec c s = .next t) (k : s.TableSound) : t.TableSound := by
  rcases exec_records h with ⟨hd, b, rfl⟩ | (rfl | rfl | rfl | ⟨n, rfl⟩) | stay
  · exact k.receive hd b
  · exact k.restart h
  · exact k.callLapsed h
  · cases h
    split
    · exact k
    · exact ⟨Nat.zero_le _, List.nodup_nil, Nat.zero_le _⟩
  · cases h
    split
    · exact ⟨Nat.zero_le _, List.nodup_nil, Nat.zero_le _⟩
    · exact k
  · exact k.of_records stay

/-- Settles O56: every command keeps the table sound (`exec_tableSound`), and the passing of time leaves it. -/
theorem everyStepKeepsTheTable : Obligations.EveryStepKeepsTheTable := by
  intro s t h k
  unfold Machine.step at h
  split at h
  · cases h
    exact k.of_records (.tick s)
  · exact exec_tableSound h (State.TableSound.of_records (.of_eq rfl) k)

end Sys2Proof.Machine
end

section
/-! The record of a known attempt after a delivered frame (R36 to R41, R44 to R52). -/

namespace Sys2Proof.Machine

open Sys2Proof

/-! ## What a frame writes does not hang on the scoring part -/

theorem AttemptRecord.markSaturated_eq (r : AttemptRecord) (l : LineHdr) : r.markSaturated l =
    { r with flags := { r.flags with timeSaturated := r.flags.timeSaturated || l.saturated } } := by
  unfold AttemptRecord.markSaturated
  cases l.saturated <;> simp

theorem AttemptRecord.writeFields_scoring (r : AttemptRecord) (x : Option ScoringPart) (l : LineHdr) (b : Body) :
    ({ r with scoring := x } : AttemptRecord).writeFields l b = { r.writeFields l b with scoring := x } := by
  cases b with
  | gate h g a =>
    simp only [writeFields, markSaturated_eq, writeGate]
    split
    · rfl
    · split
      · rfl
      · rfl
      · split <;> rfl
      · split <;> rfl
  | coach h g q w =>
    simp only [writeFields, markSaturated_eq, writeCoach]
    split
    · rfl
    · split
      · split <;> rfl
      · split <;> rfl
  | landing h d q nt lc =>
    simp only [writeFields, markSaturated_eq, writeLanding]
    split <;> rfl
  | result p =>
    simp only [writeFields, markSaturated_eq, writeResult]
    split <;> rfl
  | _ => simp only [writeFields, markSaturated_eq]

/-- A VOID record takes nothing. -/
theorem AttemptRecord.take_of_void {r : AttemptRecord} (v : r.state = .void) (bound : Bool) (l : LineHdr) (b : Body) :
    r.take bound l b = r := by
  simp only [take, v, if_true]

theorem AttemptRecord.take_eq {r : AttemptRecord} (nv : r.state ≠ .void) (bound : Bool) (l : LineHdr) {b : Body}
    (other : ∀ h why, b ≠ .void h why) :
    r.take bound l b = ({ r with state := nextState bound b r.state } : AttemptRecord).writeFields l b := by
  unfold AttemptRecord.take
  rw [if_neg nv]
  split
  · exact absurd rfl (other _ _)
  · rfl

theorem AttemptRecord.take_void {r : AttemptRecord} (nv : r.state ≠ .void) (bound : Bool) (l : LineHdr)
    (h : AttemptHdr) (why : VoidReason) : r.take bound l (.void h why) = { r with
      state := .void, voidReason := some why
      flags := { r.flags with timeSaturated := r.flags.timeSaturated || l.saturated } } := by
  unfold AttemptRecord.take
  rw [if_neg nv]
  simp only [writeFields, markSaturated_eq]

/-- A frame takes a record alike, whatever its scoring part. -/
theorem AttemptRecord.take_scoring (r : AttemptRecord) (x : Option ScoringPart) (bound : Bool) (l : LineHdr) (b : Body) :
    ({ r with scoring := x } : AttemptRecord).take bound l b = { r.take bound l b with scoring := x } := by
  by_cases v : r.state = .void
  · rw [take_of_void v, take_of_void (r := { r with scoring := x }) v]
  · by_cases other : ∀ h why, b ≠ .void h why
    · rw [take_eq v bound l other, take_eq (r := { r with scoring := x }) v bound l other]
      exact writeFields_scoring { r with state := nextState bound b r.state } x l b
    · simp only [not_forall, not_not] at other
      obtain ⟨h, why, rfl⟩ := other
      rw [take_void v, take_void (r := { r with scoring := x }) v]

/-! ## The record after a delivery -/

/-- The record of a known attempt is what the frame makes of it, but for its scoring part (R36, R39). -/
theorem State.deliver_record {s : State} {l : LineHdr} {b : Body} {h : AttemptHdr} {r : AttemptRecord}
    (base : s.loader.state.base = .run) (f : s.passesFilter l b = true) (hd : b.hdr? = some h)
    (k : s.attempt? h.attempt = some r) : ∃ r', (s.deliver l b).attempt? h.attempt = some r' ∧
      { r' with scoring := r.scoring } = r.take (s.loader.roles.start && !s.isOwn l) l b := by
  have stays := s.tracked_stays l b
  have own : (s.tracked l b).isOwn l = s.isOwn l := by unfold State.isOwn; rw [stays.loader]
  have e := State.attempt?_bare stays.table h.attempt
  rw [k] at e
  obtain ⟨rv, kv, ev⟩ := Option.map_eq_some_iff.1 e
  have d := State.attempt?_bare (State.deliver_bare base f) h.attempt
  rw [State.track_known hd kv, State.takeKnown_attempt kv, own, stays.loader] at d
  obtain ⟨r', k', e'⟩ := Option.map_eq_some_iff.1 d
  generalize (s.loader.roles.start && !s.isOwn l) = bound at d e' ⊢
  refine ⟨r', k', ?_⟩
  calc { r' with scoring := r.scoring }
    _ = { r'.bare with scoring := r.scoring } := rfl
    _ = { rv.take bound l b with scoring := r.scoring } := by rw [e']; rfl
    _ = ({ rv with scoring := r.scoring } : AttemptRecord).take bound l b := (rv.take_scoring _ _ _ _).symm
    _ = ({ rv.bare with scoring := r.scoring } : AttemptRecord).take bound l b := rfl
    _ = r.take bound l b := by rw [ev]; rfl

theorem State.Delivers.filter {s : State} {l : LineHdr} {b : Body} (h : s.Delivers l b) : s.passesFilter l b = true := by
  rcases h with h | h
  · exact h.filter
  · exact h.filter

theorem State.Delivers.filter_of_event {s : State} {l : LineHdr} {b : Body} (h : s.Delivers l b) {line : LineState}
    (event : line.eventNumber = s.line.eventNumber) : State.passesFilter { s with line := line } l b = true := by
  have f := h.filter
  unfold State.passesFilter at f ⊢
  rwa [event]

/-- The same, after the command of the frame. -/
theorem State.Delivers.record {s : State} {l : LineHdr} {b : Body} (d : s.Delivers l b) {h : AttemptHdr}
    {r : AttemptRecord} (hd : b.hdr? = some h) (k : s.attempt? h.attempt = some r) : ∃ t r',
      Sys2Proof.Machine.exec (frameCommand l.rx b) s = .next t ∧ t.attempt? h.attempt = some r' ∧
        { r' with scoring := r.scoring } = r.take (s.loader.roles.start && !s.isOwn l) l b := by
  obtain ⟨line, event, run⟩ := d.exec_event
  obtain ⟨r', k', e⟩ := State.deliver_record (s := { s with line := line }) d.base (d.filter_of_event event) hd k
  exact ⟨_, r', run, k', e⟩

/-! ## The states of a record not VOID (R36, R38, R39) -/

/-- R39 holds a record in CALLED or GREEN. -/
def AttemptRecord.held (r : AttemptRecord) (bound : Bool) : Bool := bound && (r.state == .called || r.state == .green)

theorem nextState_eq (bound : Bool) (b : Body) (r : AttemptRecord) :
    nextState bound b r.state = if r.held bound = true then r.state else nextState false b r.state := by
  unfold nextState AttemptRecord.held
  split <;> simp

/-- A frame other than PHASE moves a record up, where R39 does not hold it (R36). -/
theorem nextState_rises (bound : Bool) {b : Body} {r : AttemptRecord} (k : ∀ h p g sec n, b ≠ .phase h p g sec n) :
    nextState bound b r.state =
      if r.state.rank < (impliedState b).rank ∧ r.held bound = false then impliedState b else r.state := by
  have rises : nextState false b r.state =
      if r.state.rank < (impliedState b).rank then impliedState b else r.state := by
    unfold nextState
    cases b with
    | phase h p g sec n => exact absurd rfl (k h p g sec n)
    | _ => simp
  rw [nextState_eq, rises]
  cases r.held bound <;> simp

/-- Nor does one that implies CALLED move it. -/
theorem nextState_stays (bound : Bool) {b : Body} {r : AttemptRecord} (k : ∀ h p g sec n, b ≠ .phase h p g sec n)
    (called : impliedState b = .called) : nextState bound b r.state = r.state := by
  rw [nextState_rises bound k, called, if_neg (fun c => Nat.not_lt_zero _ c.1)]

theorem rank_lt_onInrun (st : AttemptState) : st = .called ∨ st = .green ↔ st.rank < AttemptState.rank .onInrun := by
  cases st <;> decide

/-! ## What each frame writes, with its state -/

section writes

variable {r : AttemptRecord} (nv : r.state ≠ .void) (bound : Bool) (l : LineHdr) (h : AttemptHdr)
include nv

theorem AttemptRecord.take_phase (p : Phase) (g sec n : Nat) : r.take bound l (.phase h p g sec n) = { r with
    state :=
      if r.held bound = true then r.state
      else if r.state = .green ∧ (p = .red ∨ p = .amber) then .called
      else if p = .green ∧ r.state = .called then .green
      else if p = .gone ∧ (r.state = .called ∨ r.state = .green) then .onInrun
      else r.state
    gateUsed := some g, greenCount := n
    juryGate := if r.juryGate = none then some g else r.juryGate
    flags := { r.flags with timeSaturated := r.flags.timeSaturated || l.saturated } } := by
  have state : nextState false (.phase h p g sec n) r.state =
      if r.state = .green ∧ (p = .red ∨ p = .amber) then .called
      else if p = .green ∧ r.state = .called then .green
      else if p = .gone ∧ (r.state = .called ∨ r.state = .green) then .onInrun
      else r.state := by
    generalize r.state = st
    cases st <;> cases p <;> rfl
  rw [take_eq nv bound l (by simp), nextState_eq, state]
  simp only [writeFields, markSaturated_eq]
  cases r.juryGate <;> rfl

theorem AttemptRecord.take_leave (held : Bool) : r.take bound l (.leave h held) = { r with
    state := if (r.state = .called ∨ r.state = .green) ∧ r.held bound = false then .onInrun else r.state
    leaveTime := if r.leaveTime = none then some l.eventTime else r.leaveTime
    flags := { r.flags with
      timeSaturated := r.flags.timeSaturated || l.saturated, leftOnHold := r.flags.leftOnHold || held } } := by
  rw [take_eq nv bound l (by simp), nextState_rises bound (by simp), impliedState]
  simp only [writeFields, markSaturated_eq, rank_lt_onInrun]
  cases r.leaveTime <;> rfl

theorem AttemptRecord.take_speed (v : Nat) : r.take bound l (.speed h v) = { r with
    state := if (r.state = .called ∨ r.state = .green) ∧ r.held bound = false then .onInrun else r.state
    speed := some v
    flags := { r.flags with timeSaturated := r.flags.timeSaturated || l.saturated } } := by
  rw [take_eq nv bound l (by simp), nextState_rises bound (by simp), impliedState]
  simp only [writeFields, markSaturated_eq, rank_lt_onInrun]

theorem AttemptRecord.take_takeoff (n : Bool) : r.take bound l (.takeoff h n) = { r with
    state := if r.state.rank < 3 ∧ r.held bound = false then .airborne else r.state
    takeoffTime := if r.takeoffTime = none then some l.eventTime else r.takeoffTime
    flags := { r.flags with timeSaturated := r.flags.timeSaturated || l.saturated } } := by
  rw [take_eq nv bound l (by simp), nextState_rises bound (by simp), impliedState]
  simp only [writeFields, markSaturated_eq]
  cases r.takeoffTime <;> rfl

/-- The first LANDING is written whole; a later one sets TIME_SATURATED alone (R50). -/
theorem AttemptRecord.take_landing_fields (d : Nat) (q : Quality) (nt lc : Bool) :
    r.take bound l (.landing h d q nt lc) =
      if r.quality = none then { r with
        state := if r.state.rank < 4 ∧ r.held bound = false then .landed else r.state
        landingTime := some l.eventTime, quality := some q
        distance := if q = .none then r.distance else some d
        flags := { r.flags with
          timeSaturated := r.flags.timeSaturated || l.saturated
          noTakeoff := r.flags.noTakeoff || nt, lateContact := r.flags.lateContact || lc } }
      else { r with
        state := if r.state.rank < 4 ∧ r.held bound = false then .landed else r.state
        flags := { r.flags with timeSaturated := r.flags.timeSaturated || l.saturated } } := by
  rw [take_eq nv bound l (by simp), nextState_rises bound (by simp), impliedState]
  simp only [writeFields, markSaturated_eq, writeLanding]
  cases r.quality <;> rfl

/-- A RESULT of a newer revision is written; an older one moves the record alone (R51). -/
theorem AttemptRecord.take_result_fields (p : ResultPayload) : r.take bound l (.result p) =
    if newerRevision r.revision p.revision = true then { r with
      state := if r.held bound = true then r.state else .published
      revision := some p.revision, distance := some p.distance
      quality := some (if p.flags.manualDistance then .manual else p.quality)
      speed := if p.speed = none then r.speed else p.speed
      gateUsed := some p.gateUsed
      flags := { r.flags with timeSaturated := r.flags.timeSaturated || l.saturated || p.flags.timeSaturated } }
    else { r with state := if r.held bound = true then r.state else .published } := by
  have state : nextState bound (.result p) r.state = if r.held bound = true then r.state else .published := by
    rw [nextState_eq]
    generalize r.state = st at nv ⊢
    cases st with
    | void => exact absurd rfl nv
    | _ => rfl
  rw [take_eq nv bound l (by simp), state]
  simp only [writeFields, markSaturated_eq, writeResult]
  cases p.speed <;> rfl

/-- A GATE in CALLED grants or withdraws a request, or sets the gates (R45). -/
theorem AttemptRecord.take_gate_called (called : r.state = .called) (g : Nat) (ack : Bool) :
    r.take bound l (.gate h g ack) =
      if (r.coach = .pending ∨ r.coach = .granted) ∧ ack = true ∧ r.requested = some g then { r with
        flags := { r.flags with timeSaturated := r.flags.timeSaturated || l.saturated }, coach := .granted
        gateUsed := if r.coach = .pending then some g else r.gateUsed }
      else { r with
        flags := { r.flags with timeSaturated := r.flags.timeSaturated || l.saturated }
        juryGate := some g, gateUsed := some g
        coach := if r.coach = .none then .none else .withdrawn } := by
  have ackn : acknowledging r.requested g ack = true ↔ ack = true ∧ r.requested = some g := by
    simp [acknowledging]
  rw [take_eq nv bound l (by simp), nextState_stays bound (by simp) rfl]
  simp only [writeFields, markSaturated_eq, writeGate, called, ← ackn]
  cases r.coach <;> cases acknowledging r.requested g ack <;> simp

/-- A COACH in CALLED makes or withdraws a request (R46). -/
theorem AttemptRecord.take_coach_called (called : r.state = .called) (g q : Nat) (w : Bool) :
    r.take bound l (.coach h g q w) =
      if w = true then { r with
        flags := { r.flags with timeSaturated := r.flags.timeSaturated || l.saturated }
        coach := if r.coach = .pending then .withdrawn else r.coach }
      else if r.coach = .none ∨ r.coach = .withdrawn then { r with
        flags := { r.flags with timeSaturated := r.flags.timeSaturated || l.saturated }
        coach := .pending, requested := some q, juryGate := some g }
      else { r with flags := { r.flags with timeSaturated := r.flags.timeSaturated || l.saturated } } := by
  rw [take_eq nv bound l (by simp), nextState_stays bound (by simp) rfl]
  simp only [writeFields, markSaturated_eq, writeCoach, called]
  cases r.coach <;> cases w <;> simp

/-- Outside CALLED a GATE and a COACH set TIME_SATURATED alone (R45, R46). -/
theorem AttemptRecord.take_uncalled (nc : r.state ≠ .called) {b : Body}
    (k : (∃ g ack, b = .gate h g ack) ∨ ∃ g q w, b = .coach h g q w) : r.take bound l b =
      { r with flags := { r.flags with timeSaturated := r.flags.timeSaturated || l.saturated } } := by
  rcases k with ⟨g, ack, rfl⟩ | ⟨g, q, w, rfl⟩
  · rw [take_eq nv bound l (by simp), nextState_stays bound (by simp) rfl]
    simp only [writeFields, markSaturated_eq, writeGate, if_pos nc]
  · rw [take_eq nv bound l (by simp), nextState_stays bound (by simp) rfl]
    simp only [writeFields, markSaturated_eq, writeCoach, if_pos nc]

end writes
/-- R39 holds a record at a frame of another station, at the start station. -/
theorem State.held_iff (s : State) (l : LineHdr) (r : AttemptRecord) :
    r.held (s.loader.roles.start && !s.isOwn l) = true ↔ s.loader.roles.start = true ∧ l.sender ≠ s.loader.station ∧
      (r.state = .called ∨ r.state = .green) := by
  simp [AttemptRecord.held, State.isOwn, and_assoc]

/-- Settles O23: the equations of `AttemptRecord.take` for PHASE, GATE and COACH, over `State.Delivers.record`. -/
theorem calledRecordsAreWritten : Obligations.CalledRecordsAreWritten := by
  refine ⟨fun s l h r sat k called es => ?_, fun s l b h r d k nc form => ?_⟩
  · subst es
    have nv : r.state ≠ .void := by simp [called]
    refine ⟨fun p g n c d closed => ?_, fun g ack d => ?_, fun g q w d => ?_⟩
    · obtain ⟨t, r', run, k', e⟩ := d.record rfl k
      refine ⟨t, r', run, k', ?_⟩
      rw [e, AttemptRecord.take_phase nv]
      rcases closed with rfl | rfl <;> simp [called]
    · obtain ⟨t, r', run, k', e⟩ := d.record rfl k
      exact ⟨t, r', run, k', e.trans (AttemptRecord.take_gate_called nv _ l h called g ack)⟩
    · obtain ⟨t, r', run, k', e⟩ := d.record rfl k
      exact ⟨t, r', run, k', e.trans (AttemptRecord.take_coach_called nv _ l h called g q w)⟩
  · have hd : b.hdr? = some h := by
      rcases form with ⟨g, ack, rfl⟩ | ⟨g, q, w, rfl⟩ <;> rfl
    obtain ⟨t, r', run, k', e⟩ := d.record hd k
    refine ⟨t, r', run, k', ?_⟩
    by_cases v : r.state = .void
    · rw [e, if_pos v, AttemptRecord.take_of_void v]
    · rw [e, if_neg v, AttemptRecord.take_uncalled v _ l h nc form]

/-- Settles O24: the equations of `AttemptRecord.take` for PHASE, LEAVE, SPEED and TAKEOFF. -/
theorem flightRecordsAreWritten : Obligations.FlightRecordsAreWritten := by
  intro s l h r sat stays k nv held es
  obtain rfl : stays = r.held (s.loader.roles.start && !s.isOwn l) :=
    Bool.eq_iff_iff.2 (held.trans (s.held_iff l r).symm)
  subst es
  refine ⟨fun p g sec n d => ?_, fun held d => ?_, fun v d => ?_, fun n d => ?_⟩
  all_goals obtain ⟨t, r', run, k', e⟩ := d.record rfl k; refine ⟨t, r', run, k', e.trans ?_⟩
  · exact AttemptRecord.take_phase nv _ l h p g sec n
  · exact AttemptRecord.take_leave nv _ l h held
  · exact AttemptRecord.take_speed nv _ l h v
  · exact AttemptRecord.take_takeoff nv _ l h n

theorem newerRevision_iff (held : Option Nat) (n : Nat) : newerRevision held n = true ↔ ∀ v, held = some v → v < n := by
  cases held <;> simp [newerRevision]

/-! ## Where a frame leaves a record -/

/-- The table after a frame handed to the blocks is what the scoring unit leaves of it, at a jury station. -/
theorem State.handFrame_table (s : State) (l : LineHdr) (b : Body) (cs : List Change) : ∃ u : State,
    u.table = s.table ∧ u.loader = s.loader ∧ (s.handFrame l b cs).table = (u.ifRole (·.jury)
      (fun u => (cs.foldl State.scoringChange u).scoringFrame l b (s.handedManual l b))).table := by
  obtain ⟨s1, s2, s3, s4, s5, s6, s7, ⟨-, h1⟩, ⟨-, h2⟩, ⟨-, h3⟩, ⟨-, h4⟩, ⟨-, h5⟩, ⟨e6, -⟩, ⟨-, h7⟩, -, h8⟩ :=
    s.handFrame_stages l b cs
  refine ⟨s5, ?_, ?_, ?_⟩
  · calc s5.table = s4.table := (congrArg State.table h5.same :)
      _ = s3.table := (congrArg State.table h4.same :)
      _ = s2.table := (congrArg State.table h3.same :)
      _ = s1.table := (congrArg State.table h2.same :)
      _ = s.table := (congrArg State.table h1.same :)
  · calc s5.loader = s4.loader := (congrArg State.loader h5.same :)
      _ = s3.loader := (congrArg State.loader h4.same :)
      _ = s2.loader := (congrArg State.loader h3.same :)
      _ = s1.loader := (congrArg State.loader h2.same :)
      _ = s.loader := (congrArg State.loader h1.same :)
  · rw [← e6]
    exact (congrArg State.table h8.same :).trans (congrArg State.table h7.same :)

/-- The changes that a known record's move hands to the blocks: those of the records that R43 forces, and its own. -/
theorem State.takeKnown_moved {s : State} {own : Bool} {l : LineHdr} {b : Body} {h : AttemptHdr} {r r' : AttemptRecord}
    (e : r' = r.take (s.loader.roles.start && !own) l b) (moved : r'.state ≠ r.state) :
    (s.takeKnown own l b h r).1.table = ((s.setRecord h.attempt fun _ => r').forceOthers h.attempt r'.state.flight).1.table ∧
    (s.takeKnown own l b h r).2 = ((s.setRecord h.attempt fun _ => r').forceOthers h.attempt r'.state.flight).2 ++
      [.entered r' (some r.state) false] := by
  have forced : ∀ u : State, u.table = s.table →
      ((u.setRecord h.attempt fun _ => r').forceOthers h.attempt r'.state.flight).1.table =
        ((s.setRecord h.attempt fun _ => r').forceOthers h.attempt r'.state.flight).1.table ∧
      ((u.setRecord h.attempt fun _ => r').forceOthers h.attempt r'.state.flight).2 =
        ((s.setRecord h.attempt fun _ => r').forceOthers h.attempt r'.state.flight).2 := fun u t => by
    have t' : (u.setRecord h.attempt fun _ => r').table = (s.setRecord h.attempt fun _ => r').table := by
      simp only [State.setRecord_table, t]
    unfold State.forceOthers
    split <;> simp only [t', and_self]
  unfold State.takeKnown
  extract_lets u x v
  have tu : u.table = s.table := by
    unfold u
    split <;> simp
  have lu : u.loader = s.loader := by
    unfold u
    split <;> simp
  have ex : x = r' := by unfold x; rw [lu, e]
  subst ex
  rw [if_neg moved]
  obtain ⟨f1, f2⟩ := forced u tu
  exact ⟨(State.raiseChanges_table _ _).trans f1, congrArg (· ++ _) f2⟩

/-- A VOID leaves a live record no scoring part at a jury station (R132). -/
theorem State.deliver_void_unscored {s : State} {l : LineHdr} {h : AttemptHdr} {why : VoidReason} {r : AttemptRecord}
    (base : s.loader.state.base = .run) (f : s.passesFilter l (.void h why) = true) (jury : s.loader.roles.jury = true)
    (k : s.attempt? h.attempt = some r) (nv : r.state ≠ .void) :
    ∃ r', (s.deliver l (.void h why)).attempt? h.attempt = some r' ∧ r'.scoring = none := by
  have stays := s.tracked_stays l (.void h why)
  have e := State.attempt?_bare stays.table h.attempt
  rw [k] at e
  obtain ⟨rv, kv, ev⟩ := Option.map_eq_some_iff.1 e
  have nvv : rv.state ≠ .void := fun v => nv ((congrArg AttemptRecord.state ev :).symm.trans v)
  rw [State.deliver_passed base f]
  show ∃ r', (((s.tracked l (.void h why)).track l (.void h why)).1.handFrame l _
    ((s.tracked l (.void h why)).track l (.void h why)).2).attempt? h.attempt = some r' ∧ _
  generalize s.tracked l (.void h why) = u at *
  obtain ⟨x, ex⟩ : ∃ x, x = rv.take (u.loader.roles.start && !u.isOwn l) l (.void h why) := ⟨_, rfl⟩
  have voided : x.state = .void := by rw [ex, AttemptRecord.take_void nvv]
  have number : x.hdr.attempt = h.attempt := by
    rw [ex, (rv.take_keeps _ _ _).1, State.attempt?_number kv]
  have moved := State.takeKnown_moved (s := u) (own := u.isOwn l) (h := h) ex (by rw [voided]; exact nvv.symm)
  have only := OnlyTable.takeKnown u (u.isOwn l) l (.void h why) h rv
  have after := State.takeKnown_attempt (own := u.isOwn l) (l := l) (b := .void h why) kv
  rw [State.track_known (b := .void h why) rfl kv]
  rw [← ex] at after
  rw [voided] at moved
  generalize u.takeKnown (u.isOwn l) l (.void h why) h rv = w at *
  obtain ⟨w, cs⟩ := w
  obtain ⟨-, one⟩ := moved
  replace one : cs = [.entered x (some rv.state) false] := one
  subst one
  dsimp only at after only ⊢
  obtain ⟨v, tv, lv, te⟩ := w.handFrame_table l (.void h why) [.entered x (some rv.state) false]
  have lw : v.loader = s.loader := lv.trans ((congrArg State.loader only.same :).trans stays.loader)
  have frame : ∀ y : State, (y.scoringFrame l (.void h why) (w.handedManual l (.void h why))).table = y.table := fun y => by
    unfold State.scoringFrame
    dsimp only
    split <;> rfl
  rw [State.ifRole, if_pos (by rw [lw]; exact jury), frame, List.foldl_cons, List.foldl_nil] at te
  have cleared : v.scoringChange (.entered x (some rv.state) false) =
      v.setRecord h.attempt (fun r => { r with scoring := none }) := by
    simp [State.scoringChange, voided, AttemptState.scored, number]
  have found : v.attempt? h.attempt = some x := by
    unfold State.attempt? at after ⊢
    rwa [tv]
  have a := State.setRecord_attempt (s := v) (n := h.attempt)
    (f := fun r : AttemptRecord => { r with scoring := none }) (fun _ e => e) h.attempt
  rw [if_pos rfl, found] at a
  rw [cleared] at te
  refine ⟨{ x with scoring := none }, ?_, rfl⟩
  unfold State.attempt? at a ⊢
  rwa [te]

/-- A known record keeps its creation stamp. -/
theorem AttemptRecord.take_created (r : AttemptRecord) (bound : Bool) (l : LineHdr) (b : Body) :
    (r.take bound l b).created = r.created := by
  unfold AttemptRecord.take
  split
  · rfl
  · split
    · exact (({ r with state := .void } : AttemptRecord).writeFields_keeps l _).2.2.1
    · exact (({ r with state := nextState bound b r.state } : AttemptRecord).writeFields_keeps l b).2.2.1

theorem AttemptState.rank_le_void (st : AttemptState) : st.rank ≤ AttemptState.rank .void := by
  cases st <;> decide

/-- A record goes forward in the order of section 3.3, but from GREEN back to CALLED (R36, R38). -/
theorem AttemptRecord.take_forward (r : AttemptRecord) (l : LineHdr) (b : Body) :
    r.state.rank ≤ (r.take false l b).state.rank ∨ r.state = .green ∧ (r.take false l b).state = .called := by
  obtain ⟨void, voided, back, rise⟩ := r.take_moves l b
  by_cases v : r.state = .void
  · exact .inl (by rw [void v, v])
  by_cases w : ∃ h why, b = .void h why
  · rw [voided v w]
    exact .inl (r.state.rank_le_void)
  by_cases g : r.state = .green ∧ ∃ h p g n c, b = .phase h p g n c ∧ (p = .red ∨ p = .amber)
  · exact .inr ⟨g.1, back g.1 g.2⟩
  · rw [rise v (by simpa using w) g]
    split
    · exact .inl (by omega)
    · exact .inl le_rfl

/-- Where R39 does not hold a record, it moves as at any other station. -/
theorem AttemptRecord.take_unheld {r : AttemptRecord} {bound : Bool} (u : r.held bound = false) (l : LineHdr) (b : Body) :
    r.take bound l b = r.take false l b := by
  have next : ∀ b : Body, nextState bound b r.state = nextState false b r.state := fun b => by
    rw [nextState_eq, u]; rfl
  unfold AttemptRecord.take
  simp only [next]

/-- Where R39 holds it, it stays where it is. -/
theorem AttemptRecord.take_held {r : AttemptRecord} {bound : Bool} (u : r.held bound = true) (l : LineHdr) {b : Body}
    (other : ∀ h why, b ≠ .void h why) : (r.take bound l b).state = r.state := by
  have nv : r.state ≠ .void := fun v => by simp [held, v] at u
  rw [take_eq nv bound l other, nextState_eq, if_pos u]
  exact (AttemptRecord.writeFields_keeps _ l b).2.1

/-- Settles O22: the moves by `AttemptRecord.take_moves`, and the record that is created or not by
`State.deliver_created` and `State.deliver_ignored`. -/
theorem attemptsFollowTheFrames : Obligations.AttemptsFollowTheFrames := by
  refine ⟨fun s l b h r d hd k => ?_, fun s l b h d hd k => ?_⟩
  · have own : s.isOwn l = false := by simpa [State.isOwn] using d.other
    have dl : s.Delivers l b := .inl d
    obtain ⟨line, event, run⟩ := dl.exec_event
    have f := dl.filter_of_event event
    obtain ⟨r', k', e⟩ := State.deliver_record (s := { s with line := line }) dl.base f hd k
    replace e : { r' with scoring := r.scoring } = r.take (s.loader.roles.start && !s.isOwn l) l b := e
    obtain ⟨hdr, -⟩ := r.take_keeps (s.loader.roles.start && !s.isOwn l) l b
    have created := r.take_created (s.loader.roles.start && !s.isOwn l) l b
    have held := s.held_iff l r
    have st : r'.state = (r.take (s.loader.roles.start && !s.isOwn l) l b).state := (congrArg AttemptRecord.state e :)
    generalize (s.loader.roles.start && !s.isOwn l) = bound at *
    refine ⟨_, r', run, k', (congrArg AttemptRecord.hdr e :).trans hdr, (congrArg AttemptRecord.created e :).trans created,
      fun v => ?_, fun nv w => ?_, fun nv w => ?_⟩
    · rw [st, AttemptRecord.take_of_void v, v]
    · refine ⟨?_, fun jury => ?_⟩
      · obtain ⟨why, rfl⟩ := w
        rw [st, AttemptRecord.take_void nv]
      · obtain ⟨why, rfl⟩ := w
        obtain ⟨r'', found, none⟩ := State.deliver_void_unscored (s := { s with line := line }) dl.base f jury k nv
        obtain rfl := Option.some.inj (k'.symm.trans found)
        exact none
    · have other : ∀ h' why, b ≠ .void h' why := fun h' why e => w why (Body.hdr_void hd e ▸ e)
      refine ⟨fun start at_ => ?_, fun free => ?_, ?_⟩
      · rw [st, AttemptRecord.take_held (held.2 ⟨start, d.other, at_⟩) l other]
      · have un : r.held bound = false :=
          Bool.eq_false_iff.2 fun c => free ⟨(held.1 c).1, (held.1 c).2.2⟩
        obtain ⟨-, -, back, rise⟩ := r.take_moves l b
        rw [st, AttemptRecord.take_unheld un]
        refine ⟨fun g ⟨p, g', n, c, eb, ep⟩ => back g ⟨h, p, g', n, c, eb, ep⟩, fun np => rise nv other fun ⟨g, h', p, g',
          n, c, eb, ep⟩ => np ⟨g, p, g', n, c, Body.hdr_phase hd eb ▸ eb, ep⟩⟩
      · rw [st]
        by_cases un : r.held bound = true
        · exact .inl (by rw [AttemptRecord.take_held un l other])
        · rw [AttemptRecord.take_unheld (Bool.eq_false_iff.2 un)]
          exact r.take_forward l b
  · have t : s.Delivers l b := .inl d
    have own : s.isOwn l = false := by simpa [State.isOwn] using d.other
    obtain ⟨line, event, run⟩ := t.exec_event
    have f := t.filter_of_event event
    refine ⟨_, run, fun roles => ?_, fun jury start room => ?_⟩
    · refine State.deliver_ignored t.base f hd k ?_
      show State.mayCreate s (s.isOwn l) b = false
      unfold State.mayCreate
      rw [own]
      rcases roles with j | st
      · rw [if_pos j, Bool.false_and]
      · rw [if_pos st, Bool.false_and, Bool.false_and, ite_self]
    · have may : State.mayCreate s (s.isOwn l) b = true := by
        unfold State.mayCreate
        rw [jury, start]
        rfl
      obtain ⟨r, found, e, table⟩ := State.deliver_created (s := { s with line := line }) t.base f hd k room may
      obtain ⟨nh, ns, nc⟩ := newRecord_keeps h l b
      exact ⟨r, found, (congrArg AttemptRecord.hdr e :).trans nh, (congrArg AttemptRecord.state e :).trans ns,
        (congrArg AttemptRecord.created e :).trans nc, table⟩

end Sys2Proof.Machine
end

section
/-! What a delivered frame does to the records of other attempts (R42, R43). -/

namespace Sys2Proof.Machine

open Sys2Proof

/-! ## A record beside one that is put into a flight state (R43) -/

/-- A record of another attempt, where a frame puts a record into a flight state or puts none there. -/
def AttemptRecord.beside (r : AttemptRecord) (put : Bool) : AttemptRecord := if put && r.state.flight then r.forceLanded else r

theorem AttemptRecord.beside_bare (r : AttemptRecord) (put : Bool) : (r.beside put).bare = r.bare.beside put := by
  unfold beside
  show bare (if put && r.state.flight then _ else _) = if put && r.state.flight then _ else _
  split <;> rfl

theorem AttemptRecord.beside_false (x : Option AttemptRecord) : x.map (·.beside false) = x := by
  cases x <;> rfl

variable {s : State} {n m : Nat}

theorem State.forceOthers_other (ne : m ≠ n) (put : Bool) :
    (s.forceOthers n put).1.attempt? m = (s.attempt? m).map (·.beside put) := by
  unfold State.forceOthers
  split
  · rename_i yes
    unfold State.attempt?
    dsimp only
    rw [find_record_map (fun r => by split <;> rfl)]
    cases e : s.table.find? (fun r => r.hdr.attempt == m) with
    | none => rfl
    | some r =>
      have k : r.hdr.attempt = m := by simpa using List.find?_some e
      simp [AttemptRecord.forcedBy, AttemptRecord.beside, yes, k, ne]
  · rename_i no
    rw [Bool.not_eq_true] at no
    rw [no, AttemptRecord.beside_false]

/-- Where a known record keeps its state, it alone changes. -/
theorem State.takeKnown_unmoved {own : Bool} {l : LineHdr} {b : Body} {h : AttemptHdr} {r r' : AttemptRecord}
    (e : r' = r.take (s.loader.roles.start && !own) l b) (still : r'.state = r.state) :
    (s.takeKnown own l b h r).1.table = (s.setRecord h.attempt fun _ => r').table ∧ (s.takeKnown own l b h r).2 = [] := by
  unfold State.takeKnown
  extract_lets u x v
  have tu : u.table = s.table := by
    unfold u
    split <;> simp
  have lu : u.loader = s.loader := by
    unfold u
    split <;> simp
  have ex : x = r' := by unfold x; rw [lu, e]
  subst ex
  rw [if_pos still]
  refine ⟨?_, rfl⟩
  simp only [v, State.setRecord_table, tu]

/-- A frame of a known attempt, and a record of another. -/
theorem State.takeKnown_other {own : Bool} {l : LineHdr} {b : Body} {h : AttemptHdr} {r r' : AttemptRecord}
    (e : r' = r.take (s.loader.roles.start && !own) l b) (number : r.hdr.attempt = h.attempt) (ne : m ≠ h.attempt) :
    (s.takeKnown own l b h r).1.attempt? m =
      (s.attempt? m).map (·.beside (decide (r'.state ≠ r.state) && r'.state.flight)) := by
  have hr : r'.hdr.attempt = h.attempt := by rw [e, (r.take_keeps _ _ _).1, number]
  have set : (s.setRecord h.attempt fun _ => r').attempt? m = s.attempt? m := by
    rw [State.setRecord_attempt (fun _ _ => hr), if_neg ne]
  by_cases still : r'.state = r.state
  · have := (State.takeKnown_unmoved (s := s) (h := h) e still).1
    unfold State.attempt? at set ⊢
    rw [this, set]
    simp [still, AttemptRecord.beside_false]
  · have := (State.takeKnown_moved (s := s) (h := h) e still).1
    have f := State.forceOthers_other (s := s.setRecord h.attempt fun _ => r') ne r'.state.flight
    rw [set] at f
    unfold State.attempt? at f ⊢
    rw [this, f]
    simp [still]

theorem State.addRecord_other {r : AttemptRecord} (ne : m ≠ r.hdr.attempt) :
    (s.addRecord r).1.attempt? m = (s.attempt? m).map (·.beside r.state.flight) := by
  have f := State.forceOthers_other (s := { s with table := s.table ++ [r] }) ne r.state.flight
  have a : ({ s with table := s.table ++ [r] } : State).attempt? m = s.attempt? m := by
    simp [State.attempt?, List.find?_append, ne.symm]
  rw [a] at f
  show (State.raiseChanges _ _).attempt? m = _
  unfold State.attempt? at f ⊢
  rw [State.raiseChanges_table]
  exact f

/-- The record of an attempt, its scoring part apart. -/
def State.bare? (s : State) (n : Nat) : Option AttemptRecord := (s.attempt? n).map AttemptRecord.bare

theorem RecordsStay.bare? {s t : State} (h : RecordsStay s t) (n : Nat) : t.bare? n = s.bare? n := State.attempt?_bare h n

theorem State.bare?_beside {s t : State} {put : Bool} (h : t.attempt? m = (s.attempt? m).map (·.beside put)) :
    t.bare? m = (s.bare? m).map (·.beside put) := by
  unfold State.bare?
  rw [h]
  cases s.attempt? m with
  | none => rfl
  | some r => exact congrArg some (r.beside_bare put)

/-- A record that is removed whole is gone, and every other stays (R42). -/
theorem State.removeRecord_bare? (l : LineHdr) (old : AttemptRecord) (m : Nat) :
    (s.removeRecord l old).bare? m = if m = old.hdr.attempt then none else s.bare? m := by
  have stay : RecordsStay (s.dropRecord old.hdr.attempt) (s.removeRecord l old) := (State.handChanges_only _ _ _ _).bare
  rw [stay.bare? m]
  unfold State.bare? State.attempt? State.dropRecord
  dsimp only
  rw [List.find?_filter]
  split
  · rename_i e
    subst e
    rw [List.find?_eq_none.2 (by simp)]
    rfl
  · rename_i ne
    congr 2
    funext r
    by_cases e : r.hdr.attempt = m
    · simp [e, ne]
    · simp [e]

theorem oldest_none {now : Tick} {rs : List AttemptRecord} (h : oldest now rs = none) : rs = [] := by
  cases rs with
  | nil => rfl
  | cons r rs =>
    unfold oldest at h
    split at h
    · cases h
    · split at h <;> cases h

/-- A live record finds room (R42). -/
theorem State.roomFor_none {live : Bool} (h : s.roomFor live = .none) : live = false := by
  by_contra yes
  rw [Bool.not_eq_false] at yes
  unfold State.roomFor at h
  rw [if_pos yes] at h
  split at h
  · cases h
  · rename_i full
    split at h
    · cases h
    · split at h
      · cases h
      · rename_i e
        rw [oldest_none e] at full
        exact full (by decide)

theorem AttemptState.grounded_of_ended {st : AttemptState} (h : st.live = false) : st.flight = false := by
  revert h; cases st <;> decide

/-- A frame that creates a record, and a record of another attempt: it is beside the new one, or it has made room for
it in a full table (R42, R43). -/
theorem State.createRecord_other {l : LineHdr} {b : Body} {h : AttemptHdr} (ne : m ≠ h.attempt) :
    (s.createRecord l b h).1.bare? m = (s.bare? m).map (·.beside (impliedState b).flight) ∨
      8 ≤ s.table.length ∧ (s.createRecord l b h).1.bare? m = none := by
  obtain ⟨nh, ns, -⟩ := newRecord_keeps h l b
  have full : s.roomFor (newRecord h l b).state.live ≠ .free → 8 ≤ s.table.length := fun k => by
    by_contra room
    exact k (if_pos (Nat.lt_of_not_le room))
  have joined : ∀ u : State, (u.addRecord (newRecord h l b)).1.bare? m =
      (u.bare? m).map (·.beside (impliedState b).flight) := fun u =>
    State.bare?_beside (by rw [← ns]; exact State.addRecord_other (by rwa [nh]))
  have made : ∀ (u : State) (old : AttemptRecord), u.bare? m = s.bare? m → 8 ≤ s.table.length →
      ((u.removeRecord l old).addRecord (newRecord h l b)).1.bare? m =
        (s.bare? m).map (·.beside (impliedState b).flight) ∨
      8 ≤ s.table.length ∧ ((u.removeRecord l old).addRecord (newRecord h l b)).1.bare? m = none := fun u old e f => by
    rw [joined, State.removeRecord_bare?, e]
    split
    · exact .inr ⟨f, rfl⟩
    · exact .inl rfl
  unfold State.createRecord
  dsimp only
  cases room : s.roomFor (newRecord h l b).state.live with
  | free => exact .inl (joined s)
  | reuse old => exact made s old rfl (full (by simp [room]))
  | evict old => exact made (s.report .tableEvict old.hdr.attempt) old rfl (full (by simp [room]))
  | none =>
    have dead : (impliedState b).flight = false := by
      rw [← ns]
      exact AttemptState.grounded_of_ended (State.roomFor_none room)
    rw [dead, AttemptRecord.beside_false]
    exact .inl rfl

/-! ## Whether a frame puts its record into a flight state (R36, R39, R40) -/

/-- The frame moves a known record up. -/
def State.MovesUp (s : State) (l : LineHdr) (b : Body) (h : AttemptHdr) : Prop :=
  ∃ r, s.attempt? h.attempt = some r ∧ r.state.rank < (impliedState b).rank ∧
    ¬(s.loader.roles.start = true ∧ l.sender ≠ s.loader.station ∧ (r.state = .called ∨ r.state = .green))

/-- The frame creates a record at a station without JURY. -/
def State.CreatesRecord (s : State) (l : LineHdr) (b : Body) (h : AttemptHdr) : Prop :=
  s.attempt? h.attempt = none ∧ s.loader.roles.jury = false ∧
    (s.loader.roles.start = false ∨ l.sender = s.loader.station ∧ ∃ p g sec n, b = .phase h p g sec n)

/-- The frame puts its record into a flight state. -/
def State.PutsInFlight (s : State) (l : LineHdr) (b : Body) (h : AttemptHdr) : Prop :=
  (s.MovesUp l b h ∨ s.CreatesRecord l b h) ∧ (impliedState b).flight = true

/-- A known record comes into a flight state exactly where the frame moves it up to one. -/
theorem AttemptRecord.take_flight (r : AttemptRecord) (bound : Bool) (l : LineHdr) (b : Body) :
    (r.take bound l b).state ≠ r.state ∧ (r.take bound l b).state.flight = true ↔
      r.state.rank < (impliedState b).rank ∧ ¬r.held bound = true ∧ (impliedState b).flight = true := by
  by_cases v : r.state = .void
  · have top := (impliedState b).rank_le_void
    rw [take_of_void v, v]
    exact ⟨fun k => absurd rfl k.1, fun k => absurd k.1 (by omega)⟩
  by_cases w : ∃ h why, b = .void h why
  · obtain ⟨h, why, rfl⟩ := w
    rw [take_void v]
    exact ⟨fun k => absurd k.2 Bool.false_ne_true, fun k => absurd k.2.2 Bool.false_ne_true⟩
  have other : ∀ h why, b ≠ .void h why := fun h why e => w ⟨h, why, e⟩
  by_cases un : r.held bound = true
  · rw [take_held un l other]
    exact ⟨fun k => absurd rfl k.1, fun k => absurd un k.2.1⟩
  rw [take_unheld (Bool.eq_false_iff.2 un)]
  obtain ⟨-, -, back, rise⟩ := r.take_moves l b
  by_cases g : r.state = .green ∧ ∃ h p g n c, b = .phase h p g n c ∧ (p = .red ∨ p = .amber)
  · rw [back g.1 g.2]
    obtain ⟨-, h, p, g, n, c, rfl, rfl | rfl⟩ := g
    · exact ⟨fun k => absurd k.2 Bool.false_ne_true, fun k => absurd k.2.2 Bool.false_ne_true⟩
    · exact ⟨fun k => absurd k.2 Bool.false_ne_true, fun k => absurd k.2.2 Bool.false_ne_true⟩
  · rw [rise v other g]
    by_cases up : r.state.rank < (impliedState b).rank
    · have moved : impliedState b ≠ r.state := fun e => by rw [e] at up; exact lt_irrefl _ up
      rw [if_pos up]
      exact ⟨fun k => ⟨up, un, k.2⟩, fun k => ⟨moved, k.2.2⟩⟩
    · rw [if_neg up]
      exact ⟨fun k => absurd rfl k.1, fun k => absurd k.1 up⟩

/-- A record that may be created in a flight state is created at a station without JURY (R40). -/
theorem State.putsInFlight_of_unknown {l : LineHdr} {b : Body} {h : AttemptHdr} (hd : b.hdr? = some h)
    (k : s.attempt? h.attempt = none) :
    s.PutsInFlight l b h ↔ s.mayCreate (s.isOwn l) b = true ∧ (impliedState b).flight = true := by
  unfold State.PutsInFlight State.MovesUp State.CreatesRecord State.mayCreate State.isOwn
  simp only [k, reduceCtorEq, false_and, exists_false, false_or, true_and]
  refine and_congr_left fun f => ?_
  cases s.loader.roles.jury with
  | true =>
    cases b with
    | call h g => exact absurd f Bool.false_ne_true
    | _ => simp
  | false =>
    cases s.loader.roles.start with
    | true =>
      cases b with
      | phase h' p g sec n =>
        cases hd
        simp
      | _ => simp
    | false => simp

/-- The records of other attempts after the tracker has taken a frame. -/
theorem State.track_other {l : LineHdr} {b : Body} {h : AttemptHdr} {put : Bool} (hd : b.hdr? = some h)
    (puts : put = true ↔ s.PutsInFlight l b h) (ne : m ≠ h.attempt) :
    (s.track l b).1.bare? m = (s.bare? m).map (·.beside put) ∨
      s.attempt? h.attempt = none ∧ 8 ≤ s.table.length ∧ (s.track l b).1.bare? m = none := by
  cases k : s.attempt? h.attempt with
  | some r =>
    left
    rw [State.track_known hd k]
    refine State.bare?_beside ?_
    rw [State.takeKnown_other rfl (State.attempt?_number k) ne]
    have same : (decide ((r.take (s.loader.roles.start && !s.isOwn l) l b).state ≠ r.state) &&
        (r.take (s.loader.roles.start && !s.isOwn l) l b).state.flight) = put := by
      rw [Bool.eq_iff_iff, Bool.and_eq_true, decide_eq_true_iff, AttemptRecord.take_flight, puts, s.held_iff]
      unfold State.PutsInFlight State.MovesUp State.CreatesRecord
      simp only [k, Option.some.injEq, exists_eq_left', reduceCtorEq, false_and, or_false, and_assoc]
    rw [same]
  | none =>
    rw [State.track_unknown hd k]
    have flies := State.putsInFlight_of_unknown (l := l) hd k
    split
    · rename_i may
      have same : put = (impliedState b).flight := Bool.eq_iff_iff.2 (puts.trans (flies.trans (and_iff_right may)))
      rw [same]
      exact (State.createRecord_other ne).imp_right fun gone => ⟨rfl, gone⟩
    · rename_i not
      have none : put = false := Bool.eq_false_iff.2 fun p => not (flies.1 (puts.1 p)).1
      rw [none, AttemptRecord.beside_false]
      exact .inl rfl

theorem State.bare?_none : s.bare? n = none ↔ s.attempt? n = none := by simp [State.bare?]

/-- Scoring parts are nothing to it. -/
theorem State.putsInFlight_congr {s t : State} {l : LineHdr} {b : Body} {h : AttemptHdr} (loader : t.loader = s.loader)
    (same : t.bare? h.attempt = s.bare? h.attempt) : t.PutsInFlight l b h ↔ s.PutsInFlight l b h := by
  have moves : ∀ u : State, u.MovesUp l b h ↔ ∃ r, u.bare? h.attempt = some r ∧
      r.state.rank < (impliedState b).rank ∧ ¬(u.loader.roles.start = true ∧ l.sender ≠ u.loader.station ∧
        (r.state = .called ∨ r.state = .green)) := fun u => by
    unfold State.MovesUp State.bare?
    cases u.attempt? h.attempt with
    | none => simp
    | some r => simp [AttemptRecord.bare]
  unfold State.PutsInFlight State.CreatesRecord
  rw [moves, moves, ← State.bare?_none, ← State.bare?_none, same, loader]

/-- The same over a delivery: the roster, the line interface and the blocks leave the records. -/
theorem State.deliver_other {l : LineHdr} {b : Body} {h : AttemptHdr} {put : Bool} (base : s.loader.state.base = .run)
    (f : s.passesFilter l b = true) (hd : b.hdr? = some h) (puts : put = true ↔ s.PutsInFlight l b h)
    (ne : m ≠ h.attempt) : (s.deliver l b).bare? m = (s.bare? m).map (·.beside put) ∨
      s.attempt? h.attempt = none ∧ 8 ≤ s.table.length ∧ (s.deliver l b).bare? m = none := by
  have stays := s.tracked_stays l b
  have len : (s.tracked l b).table.length = s.table.length := by simpa using congrArg List.length stays.table
  have same := State.putsInFlight_congr (l := l) (b := b) stays.loader (RecordsStay.bare? stays.table h.attempt)
  have known : (s.tracked l b).attempt? h.attempt = none ↔ s.attempt? h.attempt = none := by
    rw [← State.bare?_none, ← State.bare?_none, RecordsStay.bare? stays.table]
  rw [RecordsStay.bare? (State.deliver_bare base f) m, ← RecordsStay.bare? stays.table m, ← known, ← len]
  exact State.track_other hd (puts.trans same.symm) ne

/-- What a delivered frame does to the record of another attempt: it is forced to LANDED where the frame puts its own
into a flight state, and it makes room in a full table (R42, R43). -/
theorem State.Delivers.other {l : LineHdr} {b : Body} {h : AttemptHdr} {moves creates : Prop} (d : s.Delivers l b)
    (hd : b.hdr? = some h) (em : moves ↔ s.MovesUp l b h) (ec : creates ↔ s.CreatesRecord l b h) :
    ∃ t, Sys2Proof.Machine.exec (frameCommand l.rx b) s = .next t ∧
      ∀ q, s.attempt? q.hdr.attempt = some q → q.hdr.attempt ≠ h.attempt →
        (s.table.length < 8 ∨ s.attempt? h.attempt ≠ none → ∃ q', t.attempt? q.hdr.attempt = some q') ∧
        ∀ q', t.attempt? q.hdr.attempt = some q' →
          ((moves ∨ creates) → (impliedState b).flight = true → q.state.flight = true →
            { q' with scoring := q.scoring } = { q with
              state := .landed, flags := { q.flags with missed := true }
              forcedFromGreen := decide (q.state = .green) }) ∧
          (¬(moves ∨ creates) ∨ (impliedState b).flight = false ∨ q.state.flight = false →
            { q' with scoring := q.scoring } = q) := by
  obtain ⟨line, event, run⟩ := d.exec_event
  obtain ⟨put, puts⟩ : ∃ put : Bool, put = true ↔ s.PutsInFlight l b h :=
    ⟨@decide _ (Classical.dec _), @decide_eq_true_iff _ (Classical.dec _)⟩
  refine ⟨_, run, fun q found ne => ?_⟩
  have other := State.deliver_other (s := { s with line := line }) d.base (d.filter_of_event event) hd puts ne
  have held : State.bare? { s with line := line } q.hdr.attempt = some q.bare := congrArg (Option.map _) found
  rw [held] at other
  refine ⟨fun room => ?_, fun q' found' => ?_⟩
  · rcases other with e | ⟨unknown, full, -⟩
    · obtain ⟨q', found', -⟩ := Option.map_eq_some_iff.1 e
      exact ⟨q', found'⟩
    · exact absurd unknown (room.resolve_left (Nat.not_lt.2 full))
  · have bare' : State.bare? (State.deliver { s with line := line } l b) q.hdr.attempt = some q'.bare :=
      congrArg (Option.map _) found'
    have e : q'.bare = (q.beside put).bare := by
      rcases other with e | ⟨-, -, gone⟩
      · exact Option.some.inj (bare'.symm.trans (e.trans (congrArg some (q.beside_bare put).symm)))
      · exact absurd (bare'.symm.trans gone) (by simp)
    have e' : { q' with scoring := q.scoring } = q.beside put := calc
      { q' with scoring := q.scoring } = { q'.bare with scoring := q.scoring } := rfl
      _ = { q.beside put with scoring := q.scoring } := by rw [e]; rfl
      _ = q.beside put := by
        unfold AttemptRecord.beside
        split <;> rfl
    rw [em, ec, e', AttemptRecord.beside]
    refine ⟨fun m f fq => ?_, fun no => if_neg ?_⟩
    · rw [puts.2 ⟨m, f⟩, fq]
      rfl
    · rw [Bool.and_eq_true, puts, State.PutsInFlight]
      rintro ⟨⟨m, f⟩, fq⟩
      rcases no with n | n | n
      · exact n m
      · exact absurd (n.symm.trans f) Bool.false_ne_true
      · exact absurd (n.symm.trans fq) Bool.false_ne_true

end Sys2Proof.Machine
end

section
/-! The backlog count and BACKLOG through a delivery (R55, R72). -/

namespace Sys2Proof.Machine

open Sys2Proof

/-! ## What leaves the count and the entries of BACKLOG -/

/-- The entries of BACKLOG. -/
def StartState.backlogHolds (st : StartState) : List Hold := st.holds.filter (fun x => x.cause = .backlog)

/-- From `s` to `t` the backlog count and the entries of BACKLOG stay. -/
structure BacklogStays (s t : State) : Prop where
  count : t.start.backlog = s.start.backlog
  entries : t.start.backlogHolds = s.start.backlogHolds

namespace BacklogStays

variable {s t u : State}

theorem refl (s : State) : BacklogStays s s := ⟨rfl, rfl⟩

theorem trans (h : BacklogStays s t) (k : BacklogStays t u) : BacklogStays s u :=
  ⟨k.count.trans h.count, k.entries.trans h.entries⟩

theorem of_start (h : t.start = s.start) : BacklogStays s t :=
  ⟨congrArg StartState.backlog h, congrArg StartState.backlogHolds h⟩

/-- A change of the phase, its timers and the kept PHASE. -/
theorem of_besides (b : t.start.besidesHolds = s.start.besidesHolds) (h : t.start.holds = s.start.holds) :
    BacklogStays s t :=
  ⟨(congrArg StartState.backlog b :), congrArg (List.filter (fun x : Hold => x.cause = .backlog)) h⟩

theorem modStart (h : BacklogStays s t) {f : StartState → StartState} (b : (f t.start).backlog = t.start.backlog)
    (e : (f t.start).holds = t.start.holds) : BacklogStays s (t.modStart f) :=
  h.trans ⟨b, congrArg (List.filter (fun x : Hold => x.cause = .backlog)) e⟩

theorem raiseHold (h : BacklogStays s t) {c : HoldCause} (ne : c ≠ .backlog) (a b : Nat) :
    BacklogStays s (t.raiseHold c a b) :=
  h.trans ⟨(congrArg StartState.backlog (t.raiseHold_besides c a b) :), t.raiseHold_other ne a b⟩

theorem releaseHold (h : BacklogStays s t) {c : HoldCause} (ne : c ≠ .backlog) : BacklogStays s (t.releaseHold c) :=
  h.trans ⟨(congrArg StartState.backlog (t.releaseHold_besides c) :), t.releaseHold_other ne⟩

theorem holdWhile (h : BacklogStays s t) {c : HoldCause} (ne : c ≠ .backlog) (why : Option (Nat × Nat)) :
    BacklogStays s (t.holdWhile c why) :=
  h.trans ⟨(congrArg StartState.backlog (t.holdWhile_besides c why) :), t.holdWhile_other ne why⟩

theorem raise (h : BacklogStays s t) (n : NoticeBody) : BacklogStays s (t.raise n) := h.trans (of_start (by simp))

theorem offer (h : BacklogStays s t) (b : Body) (e : Option Tick) : BacklogStays s (t.offer b e) :=
  h.trans (of_start (by simp))

theorem reoffer (h : BacklogStays s t) (k : Option KeptFrame) : BacklogStays s (t.reoffer k) :=
  h.trans (of_start (t.reoffer_start k))

theorem enterRed (h : BacklogStays s t) : BacklogStays s t.enterRed := h.trans (of_besides (by simp) (by simp))

theorem openStart (h : BacklogStays s t) : BacklogStays s t.openStart := h.trans (of_besides (by simp) (by simp))

theorem endCycle (h : BacklogStays s t) : BacklogStays s t.endCycle :=
  (h.modStart rfl rfl).releaseHold (by decide)

theorem ite {c : Prop} [Decidable c] (h : BacklogStays s t) (k : BacklogStays s u) :
    BacklogStays s (if c then t else u) := by split <;> assumption

theorem evalWind (h : BacklogStays s t) : BacklogStays s t.evalWind := by
  unfold State.evalWind
  split
  · exact (h.modStart rfl rfl).raiseHold (by decide) _ _
  · exact .ite (.ite (h.releaseHold (by decide)) (.ite h (h.modStart rfl rfl))) h

theorem applyGate (h : BacklogStays s t) (g : Nat) : BacklogStays s (t.applyGate g) :=
  have k : BacklogStays s (t.modStart fun st => { st with juryGate := g, gate := g }) := h.modStart rfl rfl
  .ite h (.ite (k.modStart rfl rfl).enterRed k)

theorem takeGate (h : BacklogStays s t) (k : AttemptHdr) (g : Nat) (a : Bool) : BacklogStays s (t.takeGate k g a) :=
  .ite (.ite (.ite ((h.modStart rfl rfl).releaseHold (by decide)) h)
    ((((h.modStart rfl rfl).offer _ _).applyGate g).releaseHold (by decide))) (h.applyGate g)

theorem startOwnPhase (h : BacklogStays s t) (b : Body) : BacklogStays s (t.startOwnPhase b) := by
  unfold State.startOwnPhase
  dsimp only
  split
  · exact (h.modStart rfl rfl).reoffer _
  · exact h.modStart rfl rfl

theorem startOwnStatus (h : BacklogStays s t) : BacklogStays s t.startOwnStatus := by
  have k : ∀ u : State, BacklogStays u u.reofferPhase := fun u => by
    unfold State.reofferPhase
    split
    · exact (refl u).offer _ _
    · exact (refl u).reoffer _
  exact ((h.reoffer _).trans (k _)).reoffer _

/-- No frame that the sequencer takes touches the count or BACKLOG. -/
theorem startFrame (s : State) (l : LineHdr) (b : Body) : BacklogStays s (s.startFrame l b) := by
  have h := refl s
  have own : ∀ {v : State}, BacklogStays s v → BacklogStays s (if s.isOwn l then v else s) := fun k => .ite k h
  have landed : ∀ hd, BacklogStays s (s.startLanded hd) := fun hd => .ite h.endCycle h
  cases b with
  | call hd g => exact .ite (.ite (h.modStart rfl rfl).enterRed (h.raise _)) (h.raise _)
  | go hd => exact .ite (.ite (h.raise _) (.ite (h.modStart rfl rfl).openStart h)) (h.raise _)
  | gate hd g a => exact .ite (.ite (h.takeGate _ _ _) (h.raise _)) (h.raise _)
  | hold set => exact .ite (.ite (h.raiseHold (by decide) _ _) (h.releaseHold (by decide))) (h.raise _)
  | corridor m x y u f => exact .ite (h.modStart rfl rfl).evalWind (h.raise _)
  | void hd why =>
    have k : BacklogStays s (if s.isOwn l then
        s.modStart (fun st => { st with keptVoid := dropDelivered st.keptVoid (.void hd why) }) else s) :=
      own (h.modStart rfl rfl)
    exact .ite (.ite k.endCycle k) h
  | landing hd _ _ _ _ => exact landed hd
  | mastMean hd _ _ _ _ => exact landed hd
  | result r => exact landed r.hdr
  | phase hd p g sec n => exact own (h.startOwnPhase _)
  | leave hd o => exact own (h.modStart rfl rfl)
  | status p => exact own h.startOwnStatus
  | event n m r => exact modStart (ite (c := s.start.phase = .idle) h h.endCycle) (f := fun st => { st with keptVoid := none }) rfl rfl
  | _ => exact h

/-- Nor does the roster, which gives STATION and CONFIG alone. -/
theorem rosterTake (s : State) (l : LineHdr) (b : Body) : BacklogStays s (s.rosterTake l b) := by
  obtain ⟨u, o, e⟩ := s.rosterTake_form l b
  have k : BacklogStays s u := of_start (congrArg State.start o.same :)
  rw [e]
  split
  · by_cases r : u.loader.roles.start = true
    · refine k.trans ((refl u).holdWhile (c := .station) (by decide) u.stationCause |>.holdWhile (c := .config)
        (by decide) (u.holdWhile .station u.stationCause).configCause |>.trans (of_start ?_))
      exact u.rosterReaders_start r
    · exact k.trans (of_start (u.rosterReaders_start_not r))
  · exact k

end BacklogStays

/-! ## BACKLOG is sound after every frame -/

/-- `BacklogSound` speaks of the entries of BACKLOG, the count and the map alone. -/
theorem State.backlogSound_iff (s : State) : s.BacklogSound ↔
    (s.start.backlogHolds ≠ [] ↔
      0 < s.loader.consts.cycle.backlogLimit ∧ s.loader.consts.cycle.backlogLimit ≤ s.start.backlog) ∧
    ∀ x ∈ s.start.backlogHolds, x.source = s.loader.station ∧ x.detail = s.start.backlog := by
  have stands : s.start.standing .backlog = true ↔ s.start.backlogHolds ≠ [] := by
    rw [StartState.standing_iff, ne_eq, StartState.backlogHolds, List.filter_eq_nil_iff]
    simp
  unfold State.BacklogSound
  rw [stands]
  simp [StartState.backlogHolds]

theorem BacklogStays.sound {s t : State} (h : BacklogStays s t) (loader : t.loader = s.loader) (k : s.BacklogSound) :
    t.BacklogSound := by
  rw [State.backlogSound_iff] at k ⊢
  rwa [h.count, h.entries, loader]

theorem State.backlogCause_eq_some {s : State} {x : Nat × Nat} (h : s.backlogCause = some x) :
    x = (s.loader.station, s.start.backlog) := by
  unfold State.backlogCause at h
  dsimp only at h
  split at h
  · exact (Option.some.inj h).symm
  · cases h

/-- An evaluation makes BACKLOG sound (R72). -/
theorem State.evalBacklog_sound (s : State) : s.evalBacklog.BacklogSound := by
  have entries : s.evalBacklog.start.backlogHolds = s.entriesOf .backlog s.backlogCause := s.holdWhile_same _ _
  have count : s.evalBacklog.start.backlog = s.start.backlog :=
    (congrArg StartState.backlog (s.holdWhile_besides .backlog s.backlogCause) :)
  have loader : s.evalBacklog.loader = s.loader := (congrArg State.loader (Only.refl blockStart s).evalBacklog.same :)
  rw [State.backlogSound_iff, entries, count, loader, State.entriesOf_ne_nil]
  refine ⟨?_, fun x m => ?_⟩
  · unfold State.backlogCause
    simp
  · obtain ⟨why, -⟩ := State.of_mem_entriesOf m
    have e := State.backlogCause_eq_some why
    exact ⟨congrArg Prod.fst e, congrArg Prod.snd e⟩

theorem State.recountBacklog_sound {s : State} (k : s.BacklogSound) : s.recountBacklog.BacklogSound := by
  unfold State.recountBacklog
  split
  · exact State.evalBacklog_sound _
  · exact k

/-- From `s` to `t` BACKLOG stays sound. -/
structure KeepsBacklog (s t : State) : Prop where
  loader : t.loader = s.loader
  sound : s.BacklogSound → t.BacklogSound

namespace KeepsBacklog

variable {s t u : State}

theorem of_stays (h : BacklogStays s t) (loader : t.loader = s.loader) : KeepsBacklog s t := ⟨loader, h.sound loader⟩

theorem trans (h : KeepsBacklog s t) (k : KeepsBacklog t u) : KeepsBacklog s u :=
  ⟨k.loader.trans h.loader, k.sound ∘ h.sound⟩

theorem only {R : State → State → State} (h : Only R s t)
    (w : ∀ u v : State, (R u v).start = v.start ∧ (R u v).loader = v.loader := by exact fun _ _ => ⟨rfl, rfl⟩) :
    KeepsBacklog s t := by
  have e := w s t
  rw [h.same] at e
  exact of_stays (.of_start e.1.symm) e.2.symm

theorem rel : BlockRel KeepsBacklog where
  refl _ := ⟨rfl, id⟩
  trans := trans
  out := only
  table _ _ := of_stays (.of_start rfl) rfl
  edge _ := only
  wind _ := only
  span _ := only
  landing _ := only
  scoring _ h := only h.toOnly
  standings _ := only
  board _ := only

theorem recountBacklog (s : State) : KeepsBacklog s s.recountBacklog :=
  ⟨(congrArg State.loader (Only.refl blockStart s).recountBacklog.same :), State.recountBacklog_sound⟩

theorem startTake (s : State) (l : LineHdr) (b : Body) : KeepsBacklog s (s.startTake l b) := by
  have frame : ∀ u : State, KeepsBacklog u (u.startFrame l b) := fun u =>
    of_stays (.startFrame u l b) (congrArg State.loader ((Only.refl blockStart u).startFrame l b).same :)
  unfold State.startTake
  split
  · exact (frame s).trans (recountBacklog _)
  · exact (recountBacklog s).trans (frame _)

/-- A delivery keeps BACKLOG sound. -/
theorem deliver (s : State) (l : LineHdr) (b : Body) : KeepsBacklog s (s.deliver l b) :=
  (of_stays (.rosterTake s l b) (AttemptsStay.rosterTake s l b).loader).trans
    (rel.deliver (fun _ _ => of_stays (.of_start rfl) rfl) (fun u _ => recountBacklog u) l b (fun u _ => startTake u l b) s)

end KeepsBacklog

/-! ## The count and the entries after a delivery -/

/-- The entries of BACKLOG once the count has come to `n`. -/
theorem State.holdsAtBacklog_entries (s : State) (n : Nat) :
    (s.holdsAtBacklog n).filter (fun x => x.cause = .backlog) =
      if n = s.start.backlog then s.start.backlogHolds
      else if s.loader.consts.cycle.backlogLimit = 0 ∨ n < s.loader.consts.cycle.backlogLimit then []
      else if s.start.standing .backlog = true then
        s.start.backlogHolds.map (fun x => { x with source := s.loader.station, detail := n })
      else [⟨.backlog, s.clock, s.loader.station, n⟩] := by
  have raised := s.holdWhile_same .backlog (some (s.loader.station, n))
  rw [show s.holdWhile .backlog (some (s.loader.station, n)) = s.raiseHold .backlog s.loader.station n from rfl,
    State.raiseHold_holds] at raised
  unfold State.holdsAtBacklog
  split
  · rfl
  split
  · simp
  · exact raised

theorem BacklogStays.holdsAtBacklog {s t : State} (h : BacklogStays s t) (loader : t.loader = s.loader)
    (clock : t.clock = s.clock) (n : Nat) : (t.holdsAtBacklog n).filter (fun x => x.cause = .backlog) =
      (s.holdsAtBacklog n).filter (fun x => x.cause = .backlog) := by
  rw [State.holdsAtBacklog_entries, State.holdsAtBacklog_entries, h.count, h.entries, loader, clock,
    StartState.standing_of_filter h.entries]

/-- What the sequencer's stage leaves of the count and of BACKLOG, at an EVENT as at any other frame. -/
theorem State.startTake_backlog {s : State} (start : s.loader.roles.start = true) (l : LineHdr) (b : Body) :
    (s.startTake l b).start.backlog = s.countBacklog ∧
    (s.startTake l b).start.backlogHolds = (s.holdsAtBacklog s.countBacklog).filter (fun x => x.cause = .backlog) := by
  unfold State.startTake
  split
  · have k := BacklogStays.startFrame s l b
    have o := ((Only.refl blockStart s).startFrame l b).same
    have loader : (s.startFrame l b).loader = s.loader := (congrArg State.loader o :)
    have clock : (s.startFrame l b).clock = s.clock := (congrArg State.clock o :)
    have table : (s.startFrame l b).table = s.table := (congrArg State.table o :)
    have r : (s.startFrame l b).loader.roles.start = true := by rw [loader]; exact start
    have count : (s.startFrame l b).countBacklog = s.countBacklog := by unfold State.countBacklog; rw [table]
    refine ⟨(State.recountBacklog_backlog _ r).trans count, ?_⟩
    rw [StartState.backlogHolds, State.recountBacklog_holds _ r, count]
    exact k.holdsAtBacklog loader clock _
  · have k := BacklogStays.startFrame s.recountBacklog l b
    refine ⟨k.count.trans (State.recountBacklog_backlog _ start), k.entries.trans ?_⟩
    rw [StartState.backlogHolds, State.recountBacklog_holds _ start]

/-- The tracker of a START station changes the table and raises notices, where no record makes room (R40, R42). -/
theorem State.track_onlyTable {s : State} {l : LineHdr} {b : Body} (start : s.loader.roles.start = true)
    (room : l.sender ≠ s.loader.station ∨ s.table.length < 8 ∨ ∀ h, b.hdr? = some h → s.attempt? h.attempt ≠ none) :
    OnlyTable s (s.track l b).1 := by
  have all := Only.refl blockTable s
  unfold State.track
  split
  · exact OnlyTable.withTable all []
  · split
    · exact all
    · rename_i h hd
      split
      · exact OnlyTable.takeKnown s _ l b h _
      · rename_i unknown
        split
        · rename_i may
          have own : l.sender = s.loader.station := by
            unfold State.mayCreate State.isOwn at may
            rw [start, if_pos rfl] at may
            split at may <;> simp_all
          have free : s.roomFor (newRecord h l b).state.live = .free :=
            if_pos ((room.resolve_left (not_not.2 own)).resolve_right fun k => k h hd unknown)
          unfold State.createRecord
          dsimp only
          rw [free]
          exact OnlyTable.raiseChanges (OnlyTable.forceOthers (OnlyTable.withTable all _) _ _) _
        · exact all.raise _

theorem RecordsStay.countBacklog {s t : State} (h : RecordsStay s t) : t.countBacklog = s.countBacklog := by
  have via : ∀ u : State, u.countBacklog = ((u.table.map AttemptRecord.bare).filter (fun r =>
      (r.state == .onInrun || r.state == .airborne || r.state == .landed) && !r.forcedFromGreen)).length := fun u => by
    rw [List.filter_map, List.length_map]
    rfl
  rw [via, via, h]

/-- After a delivery the sequencer holds the count of the records, and the entries of BACKLOG follow it (R55, R72). -/
theorem State.deliver_backlog {s : State} {l : LineHdr} {b : Body} (base : s.loader.state.base = .run)
    (f : s.passesFilter l b = true) (start : s.loader.roles.start = true) :
    (s.deliver l b).start.backlog = (s.deliver l b).countBacklog ∧
    ((l.sender ≠ s.loader.station ∨ s.table.length < 8 ∨ ∀ h, b.hdr? = some h → s.attempt? h.attempt ≠ none) →
      (s.deliver l b).start.backlogHolds =
        (s.holdsAtBacklog (s.deliver l b).start.backlog).filter (fun x => x.cause = .backlog)) := by
  have stays := s.tracked_stays l b
  have count := RecordsStay.countBacklog (State.deliver_bare base f)
  have loader : ((s.tracked l b).track l b).1.loader = s.loader :=
    (KeepsBacklog.rel.track (fun u _ => .recountBacklog u) (KeepsBacklog.rel.refl _) l b).loader.trans stays.loader
  have running : ((s.tracked l b).track l b).1.loader.roles.start = true := by rw [loader]; exact start
  obtain ⟨backlog, entries⟩ := State.startTake_backlog (s := ((s.tracked l b).track l b).1) running l b
  have after : (s.deliver l b).start = (((s.tracked l b).track l b).1.startTake l b).start := by
    rw [State.deliver_passed base f]
    refine (State.handFrame_start _ _ _ _).trans (congrArg State.start (if_pos running))
  rw [after, backlog]
  refine ⟨count.symm, fun room => ?_⟩
  rw [entries]
  have only : OnlyTable (s.tracked l b) ((s.tracked l b).track l b).1 := by
    refine State.track_onlyTable (by rw [stays.loader]; exact start) ?_
    rw [stays.loader]
    refine room.imp_right (Or.imp (fun len => ?_) fun known h hd unknown => known h hd ?_)
    · rwa [show (s.tracked l b).table.length = s.table.length by simpa using congrArg List.length stays.table]
    · rw [← State.bare?_none] at unknown ⊢
      rwa [← RecordsStay.bare? stays.table]
  have line : (s.tracked l b).start = (s.rosterTake l b).start ∧ (s.tracked l b).clock = (s.rosterTake l b).clock := by
    unfold State.tracked State.lineTake
    split
    · exact ⟨rfl, rfl⟩
    · split <;> exact ⟨rfl, rfl⟩
    · exact ⟨rfl, rfl⟩
  refine BacklogStays.holdsAtBacklog ?_ loader ?_ _
  · exact (BacklogStays.rosterTake s l b).trans ((BacklogStays.of_start line.1).trans (.of_start
      (congrArg State.start only.same :)))
  · exact ((congrArg State.clock only.same :).trans line.2).trans
      (congrArg State.clock (OnlyDelivery.rosterTake (.refl blockDelivery s) l b).same :)

end Sys2Proof.Machine
end

section
/-! What the board unit does to the station (chapter 10): it changes its own state and raises notices. -/

namespace Sys2Proof.Machine

open Sys2Proof

/-- From `s` the board unit comes to a state by changes of its own and by notices. -/
inductive BoardActs (s : State) : State → Prop
  | refl : BoardActs s s
  | modBoard {t : State} (h : BoardActs s t) (f : BoardState → BoardState) : BoardActs s (t.modBoard f)
  | raise {t : State} (h : BoardActs s t) (n : NoticeBody) : BoardActs s (t.raise n)

namespace BoardActs

variable {s t u : State}

theorem trans (h : BoardActs s t) (k : BoardActs t u) : BoardActs s u := by
  induction k with
  | refl => exact h
  | modBoard _ f ih => exact ih.modBoard f
  | raise _ n ih => exact ih.raise n

theorem ite {c : Prop} [Decidable c] (h : BoardActs s t) (k : BoardActs s u) : BoardActs s (if c then t else u) := by
  split <;> assumption

theorem ifRole (h : BoardActs s t) (role : RoleSet → Bool) {act : State → State} (k : ∀ u, BoardActs u (act u)) :
    BoardActs s (t.ifRole role act) := .ite (h.trans (k t)) h

theorem showPage (h : BoardActs s t) (e : PageEntry) : BoardActs s (t.showPage e) := by
  unfold State.showPage State.composePage
  exact (h.modBoard _).modBoard _

theorem recompose (h : BoardActs s t) (test : Page → Bool) : BoardActs s (t.recompose test) := by
  unfold State.recompose
  split
  · exact h
  · exact .ite (h.modBoard _) h

theorem nextPage (h : BoardActs s t) : BoardActs s t.nextPage := by
  unfold State.nextPage
  split
  · exact (h.modBoard _).showPage _
  · exact (h.modBoard _).showPage _

theorem removePages (h : BoardActs s t) (test : Page → Bool) : BoardActs s (t.removePages test) :=
  .ite ((h.modBoard _).modBoard _).nextPage (h.modBoard _)

theorem placePage (h : BoardActs s t) (e : PageEntry) (put : PageEntry → List PageEntry → List PageEntry) :
    BoardActs s (t.placePage e put) := by
  unfold State.placePage
  refine .ite (h.modBoard _) (.ite (h.raise _) ?_)
  split
  · exact (h.modBoard _).raise _
  · exact h.raise _

theorem arrive (h : BoardActs s t) (e : PageEntry) : BoardActs s (t.arrive e) := by
  unfold State.arrive
  split
  · exact h.showPage e
  · exact .ite ((h.placePage _ _).showPage e) (h.placePage _ _)

theorem boardPhase (h : BoardActs s t) (l : LineHdr) (hd : AttemptHdr) (p : Phase) (n : Nat) :
    BoardActs s (t.boardPhase l hd p n) := by
  unfold State.boardPhase
  dsimp only
  split
  · exact h
  · refine .ite h ?_
    split
    · exact h.arrive _
    · exact .ite ((h.modBoard _).recompose _) (.ite (.ite (h.showPage _) (h.modBoard _)) h)

theorem boardLanding (h : BoardActs s t) (n : Nat) (cs : List Change) : BoardActs s (t.boardLanding n cs) :=
  recompose (ite (c := movedToLanded n cs = true) (h.modBoard _) h) _

theorem boardChange (h : BoardActs s t) (byLanding : Bool) (c : Change) : BoardActs s (t.boardChange byLanding c) := by
  unfold State.boardChange
  split
  · exact h.removePages _
  · split
    · exact h.removePages _
    · exact h.removePages _
    · exact .ite (h.removePages _) h
    · exact h

theorem boardStatus (h : BoardActs s t) (p : StartPart) : BoardActs s (t.boardStatus p) :=
  have k : BoardActs s (t.modBoard fun b => { b with knownHolds := p.causes, knownAttempt := p.attempt }) := h.modBoard _
  .ite (.ite k (k.recompose _)) (.ite ((k.arrive _).recompose _) (.ite ((k.removePages _).recompose _) (k.recompose _)))

theorem boardResult (h : BoardActs s t) (r : ResultPayload) : BoardActs s (t.boardResult r) :=
  .ite h (.ite (h.modBoard _) (h.arrive _))

theorem boardFrame (h : BoardActs s t) (l : LineHdr) (b : Body) (cs : List Change) : BoardActs s (t.boardFrame l b cs) := by
  cases b with
  | phase hd p g sec n => exact .ite (h.boardPhase l hd p sec) h
  | speed hd v => exact h.recompose _
  | landing hd d q nt lc => exact h.boardLanding _ cs
  | result r => exact .ite (h.boardResult r) h
  | text cs => exact .ite (h.arrive _) h
  | event n m r => exact h.removePages _
  | status p =>
    refine .ite ?_ h
    cases p.start with
    | none => exact h
    | some q => exact h.boardStatus q
  | _ => exact h

theorem boardListChange (h : BoardActs s t) (before : StandingsState) : BoardActs s (t.boardListChange before) :=
  .ite h (h.recompose _)

theorem boardChanges (h : BoardActs s t) (byLanding : Bool) (cs : List Change) :
    BoardActs s (cs.foldl (fun s c => s.boardChange byLanding c) t) := by
  induction cs generalizing t with
  | nil => exact h
  | cons c cs ih => exact ih (h.boardChange byLanding c)

theorem boardTake (h : BoardActs s t) (before : StandingsState) (l : LineHdr) (b : Body) (cs : List Change) :
    BoardActs s (t.boardTake before l b cs) := ((h.boardChanges _ cs).boardListChange before).boardFrame l b cs

/-- The board's own state and the console apart, nothing changes. -/
theorem same (h : BoardActs s t) : { t with board := s.board, console := s.console } = s := by
  induction h with
  | refl => rfl
  | modBoard _ f ih => exact ih
  | raise _ n ih => simpa using ih

end BoardActs

end Sys2Proof.Machine
end

section
/-! A fault record stays through a delivery at a station with neither START nor JURY (R32). -/

namespace Sys2Proof.Machine

open Sys2Proof

/-- From `s` to `t` a fault record in the latch stays. -/
structure FaultStays (s t : State) : Prop where
  loader : t.loader = s.loader
  latch : ∀ x, s.latch.record = some x → t.latch.record = some x

namespace FaultStays

variable {s t u : State}

theorem of_latch (loader : t.loader = s.loader) (h : t.latch = s.latch) : FaultStays s t := ⟨loader, fun _ e => h ▸ e⟩

theorem refl (s : State) : FaultStays s s := of_latch rfl rfl

theorem trans (h : FaultStays s t) (k : FaultStays t u) : FaultStays s u :=
  ⟨k.loader.trans h.loader, fun x e => k.latch x (h.latch x e)⟩

theorem ite {c : Prop} [Decidable c] (h : FaultStays s t) (k : FaultStays s u) : FaultStays s (if c then t else u) := by
  split <;> assumption

theorem raise (h : FaultStays s t) (n : NoticeBody) : FaultStays s (t.raise n) := h.trans (of_latch (by simp) (by simp))

theorem take_record (l : FaultLatch) (k : FaultKind) (now : Tick) (d : Nat) (x : FaultRecord) (e : l.record = some x) :
    (l.take k now d).record = some x := by simp [FaultLatch.take, e]

theorem offer (h : FaultStays s t) (b : Body) (e : Option Tick) : FaultStays s (t.offer b e) := by
  refine h.trans ⟨by simp, fun x r => ?_⟩
  unfold State.offer
  dsimp only
  split
  · exact take_record _ _ _ _ x r
  · exact r

theorem modWind (h : FaultStays s t) (f : WindState → WindState) : FaultStays s (t.modWind f) := h.trans (of_latch rfl rfl)

theorem modSpan (h : FaultStays s t) (f : SpanState → SpanState) : FaultStays s (t.modSpan f) := h.trans (of_latch rfl rfl)

theorem modEdge (h : FaultStays s t) (f : EdgeState → EdgeState) : FaultStays s (t.modEdge f) := h.trans (of_latch rfl rfl)

theorem board (h : BoardActs s t) : FaultStays s t :=
  of_latch (congrArg State.loader h.same :) (congrArg State.latch h.same :)

theorem ifRole (h : FaultStays s t) (role : RoleSet → Bool) {act : State → State} (k : ∀ u, u.loader = s.loader →
    role s.loader.roles = true → FaultStays u (act u)) : FaultStays s (t.ifRole role act) := by
  unfold State.ifRole
  split
  · rename_i r
    exact h.trans (k t h.loader (h.loader ▸ r))
  · exact h

theorem foldl {α : Type} {f : State → α → State} (as : List α) (step : ∀ u a, FaultStays u (f u a)) :
    ∀ s, FaultStays s (as.foldl f s) := by
  induction as with
  | nil => exact refl
  | cons a as ih => exact fun s => (step s a).trans (ih _)

/-! ### The blocks at a change of the table and at a frame of another station -/

theorem edgeChange (s : State) (c : Change) : FaultStays s (s.edgeChange c) := by
  cases c <;> exact .ite ((refl s).modEdge _) (refl s)

theorem windChange (s : State) (c : Change) : FaultStays s (s.windChange c) := by
  cases c with
  | removed r =>
    unfold State.windChange
    exact (refl s).modWind _
  | entered r before forced => exact .ite ((refl s).modWind _) (refl s)

theorem beginClaim (h : FaultStays s t) : FaultStays s t.beginClaim := by
  unfold State.beginClaim
  split
  · exact h
  · exact .ite (((h.modSpan _).modSpan _).offer _ _) h

theorem spanChange (s : State) (c : Change) : FaultStays s (s.spanChange c) := by
  cases c with
  | removed r => exact .ite ((refl s).modSpan _) (refl s)
  | entered r before forced => exact .ite ((refl s).modSpan _).beginClaim (.ite ((refl s).modSpan _) (refl s))

theorem windFrame {l : LineHdr} (own : s.isOwn l = false) (b : Body) : FaultStays s (s.windFrame l b) := by
  have h := refl s
  cases b with
  | landing hd d q nt lc =>
    show FaultStays s (s.windLanding hd.attempt)
    unfold State.windLanding
    split
    · exact h
    · exact .ite (h.raise _) (.ite (((h.modWind _).offer _ _).raise _) h)
  | mastMean hd m x u p => exact .ite (h.modWind _) h
  | status p =>
    show FaultStays s (if s.isOwn l then _ else s)
    rw [own]
    exact h
  | _ => exact h

theorem standingsFrame {l : LineHdr} {b : Body} {hd : AttemptHdr} (jury : s.loader.roles.jury = false)
    (bears : b.hdr? = some hd) : FaultStays s (s.standingsFrame l b) := by
  have h := refl s
  have update : ∀ (u : State) hd f, FaultStays u (u.updateResults hd f) := fun u hd f => by
    unfold State.updateResults
    refine .ite (refl u) ?_
    split
    · exact of_latch rfl rfl
    · exact (refl u).raise _
  cases b with
  | event n m r => cases bears
  | round r m g => cases bears
  | status p => cases bears
  | result r => exact .ite h (update s _ _)
  | void hd why =>
    have listed : (s.listVoid hd why).loader = s.loader :=
      (congrArg State.loader ((Only.refl blockStandings s).listVoid hd why).same :)
    unfold State.standingsFrame
    simp only [jury, listed, Bool.false_and, Bool.false_eq_true, if_false]
    exact .ite h (update s _ _)
  | phase hd p g sec n =>
    unfold State.standingsFrame
    simp only [jury, Bool.false_eq_true, if_false]
    exact h
  | _ => exact h

/-- The changes of the table, handed to the blocks. -/
theorem handChanges (s : State) (start : s.loader.roles.start = false) (jury : s.loader.roles.jury = false) (l : LineHdr)
    (byLanding : Bool) (cs : List Change) : FaultStays s (s.handChanges l byLanding cs) := by
  have no : ∀ {r : Bool} {R : State → State → Prop} {act : State → State}, r = false → ∀ u : State, u.loader = s.loader →
      r = true → R u (act u) := fun e _ _ k => by simp [e] at k
  unfold State.handChanges
  refine ifRole (ifRole (ifRole (ifRole (ifRole (ifRole (ifRole (ifRole (refl s) _ (no start)) _ fun u _ _ => ?_) _
    fun u _ _ => ?_) _ fun u _ _ => ?_) _ (no jury)) _ (no jury)) _ (no jury)) _ fun u _ _ => ?_
  · exact foldl cs edgeChange u
  · exact foldl cs windChange u
  · exact foldl cs spanChange u
  · exact board ((BoardActs.refl.boardChanges byLanding cs).boardListChange _)

/-- A frame of another station with an attempt header, and the changes that it has made, handed to the blocks. -/
theorem handFrame {s : State} (start : s.loader.roles.start = false) (jury : s.loader.roles.jury = false) {l : LineHdr}
    (own : s.isOwn l = false) {b : Body} {hd : AttemptHdr} (bears : b.hdr? = some hd) (cs : List Change) :
    FaultStays s (s.handFrame l b cs) := by
  have no : ∀ {r : Bool} {R : State → State → Prop} {act : State → State}, r = false → ∀ u : State, u.loader = s.loader →
      r = true → R u (act u) := fun e _ _ k => by simp [e] at k
  have other : ∀ {u v : State}, u.loader = s.loader → FaultStays u v → v.isOwn l = false := fun e k => by
    unfold State.isOwn at own ⊢
    rwa [k.loader, e]
  unfold State.handFrame
  refine ifRole (ifRole (ifRole (ifRole (ifRole (ifRole (ifRole (ifRole (refl s) _ (no start)) _ fun u e _ => ?_) _
    fun u e _ => ?_) _ fun u e _ => ?_) _ (no jury)) _ (no jury)) _ fun u e _ => ?_) _ fun u _ _ => ?_
  · have k := foldl cs edgeChange u
    unfold State.edgeFrame
    rwa [other e k, if_neg Bool.false_ne_true]
  · have k := foldl cs windChange u
    exact k.trans (windFrame (other e k) b)
  · have k := foldl cs spanChange u
    unfold State.spanFrame
    rwa [other e k, if_neg Bool.false_ne_true]
  · have k : FaultStays u (u.standingsFrame l b) := standingsFrame (by rw [e]; exact jury) bears
    have still : (u.standingsFrame l b).testClosing = u.standingsFrame l b := by
      unfold State.testClosing
      rw [k.loader, e, jury]
      rfl
    unfold State.standingsTake
    dsimp only
    rw [still]
    exact .ite k k
  · exact board (BoardActs.refl.boardTake _ l b cs)

end FaultStays

end Sys2Proof.Machine
end

section
/-! A full table (R42). -/

namespace Sys2Proof.Machine

open Sys2Proof

/-! ## The oldest record -/

theorem oldest_le {now : Tick} {rs : List AttemptRecord} {o : AttemptRecord} (h : oldest now rs = some o) :
    ∀ q ∈ rs, since now q.created ≤ since now o.created := by
  induction rs generalizing o with
  | nil => simp
  | cons r rs ih =>
    intro q m
    unfold oldest at h
    split at h
    · rename_i e
      obtain rfl := Option.some.inj h
      rw [oldest_none e, List.mem_singleton] at m
      rw [m]
    · rename_i x e
      have le := ih e
      split at h
      · obtain rfl := Option.some.inj h
        rcases List.mem_cons.1 m with rfl | m
        · omega
        · exact le q m
      · obtain rfl := Option.some.inj h
        rcases List.mem_cons.1 m with rfl | m
        · omega
        · have := le q m
          omega

/-- The record created before every other is the oldest. -/
theorem oldest_eq {now : Tick} {rs : List AttemptRecord} {old : AttemptRecord} (mem : old ∈ rs)
    (first : ∀ q ∈ rs, q ≠ old → since now q.created < since now old.created) : oldest now rs = some old := by
  cases e : oldest now rs with
  | none => exact absurd mem (by rw [oldest_none e]; exact List.not_mem_nil)
  | some o =>
    by_contra ne
    have lt := first o (oldest_mem e) fun k => ne (congrArg some k)
    have le := oldest_le e old mem
    omega

/-! ## The tracker's state at a station with neither START nor JURY -/

/-- No block of the station reads the roster, and a frame with an attempt header is nothing to the line interface. -/
theorem State.tracked_unread {s : State} {l : LineHdr} {b : Body} {h : AttemptHdr} (start : s.loader.roles.start = false)
    (jury : s.loader.roles.jury = false) (hd : b.hdr? = some h) : (s.tracked l b).table = s.table ∧
      (s.tracked l b).clock = s.clock ∧ (s.tracked l b).loader = s.loader ∧ (s.tracked l b).latch = s.latch := by
  have line : s.tracked l b = s.rosterTake l b := by
    unfold State.tracked
    cases b with
    | event n m r => cases hd
    | status p => cases hd
    | _ => rfl
  have unread : ∀ u : State, u.loader = s.loader → u.rosterReaders = u := fun u e => by
    unfold State.rosterReaders State.ifRole
    simp [e, start, jury]
  rw [line]
  unfold State.rosterTake
  extract_lets e e' heard changed s1 s2 s3
  have k2 : s2.table = s.table ∧ s2.clock = s.clock ∧ s2.loader = s.loader ∧ s2.latch = s.latch := by
    unfold s2
    split <;> simp [s1]
  have k3 : s3.table = s.table ∧ s3.clock = s.clock ∧ s3.loader = s.loader ∧ s3.latch = s.latch := by
    unfold s3
    split
    · simpa using k2
    · exact k2
  rw [unread s3 k3.2.2.1, ite_self]
  exact k3

/-! ## Making room -/

/-- A record takes the place of another. -/
theorem State.addRecord_replaces {s : State} (sound : s.TableSound) (l : LineHdr) {old r : AttemptRecord}
    (mem : old ∈ s.table) (unknown : s.attempt? r.hdr.attempt = none) :
    ((s.removeRecord l old).addRecord r).1.table.map (·.hdr) =
      (s.table.filter (fun q => q ≠ old)).map (·.hdr) ++ [r.hdr] := by
  have gone : (s.removeRecord l old).attempt? r.hdr.attempt = none := by
    rw [← State.bare?_none, State.removeRecord_bare?, State.bare?_none.2 unknown, ite_self]
  have dropped : (s.removeRecord l old).table.map (·.hdr) = (s.dropRecord old.hdr.attempt).table.map (·.hdr) :=
    headers_of_bare (State.handChanges_only _ _ _ _).bare
  have one : s.table.filter (fun q => q.hdr.attempt != old.hdr.attempt) = s.table.filter (fun q => q ≠ old) := by
    refine List.filter_congr fun q m => ?_
    have nodup := (State.tableSound_iff.1 sound).2.1
    by_cases e : q = old
    · simp [e]
    · have : q.hdr.attempt ≠ old.hdr.attempt := fun k => e (List.inj_on_of_nodup_map nodup m mem k)
      simp [e, this]
  rw [(State.addRecord_attempt gone).2, dropped, ← one]
  rfl

theorem AttemptState.ended_iff (st : AttemptState) : st.live = false ↔ st = .published ∨ st = .void := by
  cases st <;> decide

/-- The ended record that was created first makes room. -/
theorem State.roomFor_reuse {s : State} {old : AttemptRecord} (full : 8 ≤ s.table.length) (mem : old ∈ s.table)
    (ended : old.state = .published ∨ old.state = .void)
    (first : ∀ q ∈ s.table, q ≠ old → q.state = .published ∨ q.state = .void →
      since s.clock q.created < since s.clock old.created) (live : Bool) : s.roomFor live = .reuse old := by
  have e : oldest s.clock (s.table.filter (fun r => !r.state.live)) = some old := by
    refine oldest_eq (List.mem_filter.2 ⟨mem, ?_⟩) fun q m ne => ?_
    · simpa using (AttemptState.ended_iff _).2 ended
    · obtain ⟨m, dead⟩ := List.mem_filter.1 m
      exact first q m ne ((AttemptState.ended_iff _).1 (by simpa using dead))
  unfold State.roomFor
  rw [if_neg (show ¬s.table.length < tableLimit from Nat.not_lt.2 full), e]

/-- With none ended the first record created makes room for a live one, and no other is created. -/
theorem State.roomFor_live {s : State} {old : AttemptRecord} (full : 8 ≤ s.table.length) (mem : old ∈ s.table)
    (alive : ∀ q ∈ s.table, q.state ≠ .published ∧ q.state ≠ .void)
    (first : ∀ q ∈ s.table, q ≠ old → since s.clock q.created < since s.clock old.created) (live : Bool) :
    s.roomFor live = if live then .evict old else .none := by
  have none : s.table.filter (fun r => !r.state.live) = [] := List.filter_eq_nil_iff.2 fun q m => by
    rw [Bool.not_eq_true', AttemptState.ended_iff]
    exact not_or.2 (alive q m)
  unfold State.roomFor
  rw [if_neg (show ¬s.table.length < tableLimit from Nat.not_lt.2 full), none, oldest_eq mem first]
  rfl

theorem FaultStays.addRecord {s t : State} (h : FaultStays s t) (r : AttemptRecord) : FaultStays s (t.addRecord r).1 := by
  have forced : FaultStays s (({ t with table := t.table ++ [r] } : State).forceOthers r.hdr.attempt r.state.flight).1 := by
    refine h.trans ?_
    unfold State.forceOthers
    split <;> exact of_latch rfl rfl
  refine forced.trans (foldl _ (fun u c => ?_) _)
  unfold State.raiseChange
  split
  · exact refl u
  · exact (refl u).raise _

theorem FaultStays.removeRecord (s : State) (start : s.loader.roles.start = false) (jury : s.loader.roles.jury = false)
    (l : LineHdr) (old : AttemptRecord) : FaultStays s (s.removeRecord l old) := by
  have dropped : FaultStays s (s.dropRecord old.hdr.attempt) := of_latch (by simp) (by simp)
  refine dropped.trans (handChanges _ ?_ ?_ l false [.removed old])
  · rw [dropped.loader]; exact start
  · rw [dropped.loader]; exact jury

section full

variable {s : State} {l : LineHdr} {b : Body} {h : AttemptHdr} {old : AttemptRecord} (base : s.loader.state.base = .run)
  (f : s.passesFilter l b = true) (jury : s.loader.roles.jury = false) (start : s.loader.roles.start = false)
  (hd : b.hdr? = some h) (unknown : s.attempt? h.attempt = none)
include jury start hd unknown

/-- The tracker of a station with neither START nor JURY creates the record of an unknown attempt, where it finds room. -/
theorem State.track_creates : (s.tracked l b).track l b = (s.tracked l b).createRecord l b h ∧
    (s.tracked l b).attempt? h.attempt = none ∧
    ∀ live, (s.tracked l b).roomFor live = s.roomFor live := by
  obtain ⟨table, clock, loader, -⟩ := State.tracked_unread (l := l) start jury hd
  have ku : (s.tracked l b).attempt? h.attempt = none := by
    unfold State.attempt? at unknown ⊢
    rwa [table]
  refine ⟨?_, ku, fun live => ?_⟩
  · rw [State.track_unknown hd ku, if_pos]
    unfold State.mayCreate
    rw [loader, jury, start]
    rfl
  · unfold State.roomFor
    rw [table, clock]

include base f

/-- A record of the table gives its place to the new one. -/
theorem State.deliver_replaces (sound : s.TableSound) (mem : old ∈ s.table)
    (room : s.roomFor (impliedState b).live = .reuse old ∨ s.roomFor (impliedState b).live = .evict old) :
    (s.deliver l b).table.map (·.hdr) = (s.table.filter (fun q => q ≠ old)).map (·.hdr) ++ [h] := by
  obtain ⟨track, ku, roomU⟩ := State.track_creates (l := l) jury start hd unknown
  obtain ⟨table, -, -, -⟩ := State.tracked_unread (l := l) start jury hd
  obtain ⟨nh, ns, -⟩ := newRecord_keeps h l b
  have replaced : ∀ u : State, u.table = s.table →
      ((u.removeRecord l old).addRecord (newRecord h l b)).1.table.map (·.hdr) =
        (s.table.filter (fun q => q ≠ old)).map (·.hdr) ++ [h] := fun u e => by
    have fresh : u.attempt? (newRecord h l b).hdr.attempt = none := by
      unfold State.attempt? at unknown ⊢
      rwa [nh, e]
    rw [State.addRecord_replaces (sound.of_records (.of_eq e)) l (by rwa [e]) fresh, e, nh]
  rw [headers_of_bare (State.deliver_bare base f), track]
  unfold State.createRecord
  dsimp only
  rw [ns, roomU]
  rcases room with e | e
  · rw [e]
    exact replaced _ table
  · rw [e]
    exact replaced _ table

/-- A record that is evicted is reported (R42). -/
theorem State.deliver_evicts (own : s.isOwn l = false) (room : s.roomFor (impliedState b).live = .evict old)
    (empty : s.latch.record = none) :
    (s.deliver l b).latch.record = some ⟨.tableEvict, s.clock, old.hdr.attempt⟩ := by
  obtain ⟨track, ku, roomU⟩ := State.track_creates (l := l) jury start hd unknown
  obtain ⟨-, clock, loader, latch⟩ := State.tracked_unread (l := l) start jury hd
  obtain ⟨-, ns, -⟩ := newRecord_keeps h l b
  have made : (s.tracked l b).track l b = (((s.tracked l b).report .tableEvict old.hdr.attempt).removeRecord l old).addRecord
      (newRecord h l b) := by
    rw [track]
    unfold State.createRecord
    dsimp only
    rw [ns, roomU, room]
  have reported : ((s.tracked l b).report .tableEvict old.hdr.attempt).latch.record =
      some ⟨.tableEvict, s.clock, old.hdr.attempt⟩ := by
    unfold State.report FaultLatch.take
    rw [latch, empty, clock]
  have after := (FaultStays.removeRecord ((s.tracked l b).report .tableEvict old.hdr.attempt) (by simpa [loader] using start)
    (by simpa [loader] using jury) l old).addRecord (newRecord h l b)
  have loaderR := after.loader.trans ((by simp : _ = (s.tracked l b).loader).trans loader)
  rw [State.deliver_passed base f]
  show (((s.tracked l b).track l b).1.handFrame l b ((s.tracked l b).track l b).2).latch.record = _
  rw [made]
  refine (after.trans (FaultStays.handFrame ?_ ?_ ?_ hd _)).latch _ reported
  · rw [loaderR]; exact start
  · rw [loaderR]; exact jury
  · unfold State.isOwn at own ⊢
    rwa [loaderR]

/-- A frame that finds no room leaves the records. -/
theorem State.deliver_none (room : s.roomFor (impliedState b).live = .none) : RecordsStay s (s.deliver l b) := by
  obtain ⟨track, ku, roomU⟩ := State.track_creates (l := l) jury start hd unknown
  obtain ⟨table, -, -, -⟩ := State.tracked_unread (l := l) start jury hd
  obtain ⟨-, ns, -⟩ := newRecord_keeps h l b
  refine RecordsStay.trans (t := ((s.tracked l b).track l b).1) (.of_eq ?_) (State.deliver_bare base f)
  rw [track]
  unfold State.createRecord
  dsimp only
  rw [ns, roomU, room]
  exact (State.raise_table _ _).trans table

end full

/-! ## O25 -/

/-- Settles O25: what is written (`AttemptRecord.take`), the other records (`State.Delivers.other`), room in a full table
(`State.deliver_replaces`, `State.deliver_evicts`, `State.deliver_none`), and the backlog (`State.deliver_backlog`). -/
theorem endedRecordsAreWritten : Obligations.EndedRecordsAreWritten := by
  refine ⟨fun s l h r sat stays k nv held es => ?_, fun s l b h moves creates d hd em ec => d.other hd em ec,
    fun s l b h old d jury start hd unknown full sound mem => ⟨fun ended first => ?_, fun alive first => ?_⟩,
    fun s l b d start => ?_⟩
  · obtain rfl : stays = r.held (s.loader.roles.start && !s.isOwn l) :=
      Bool.eq_iff_iff.2 (held.trans (s.held_iff l r).symm)
    subst es
    refine ⟨fun d q nt lc dl => ?_, fun p hp d => ?_, fun why d => ?_⟩
    · obtain ⟨t, r', run, k', e⟩ := dl.record rfl k
      exact ⟨t, r', run, k', e.trans (AttemptRecord.take_landing_fields nv _ l h d q nt lc)⟩
    · subst hp
      obtain ⟨t, r', run, k', e⟩ := d.record rfl k
      refine ⟨t, r', run, k', e.trans ((AttemptRecord.take_result_fields nv _ l p).trans ?_)⟩
      simp only [newerRevision_iff]
    · obtain ⟨t, r', run, k', e⟩ := d.record rfl k
      have e' := e.trans (AttemptRecord.take_void nv _ l h why)
      exact ⟨t, r', run, k', congrArg (fun x : AttemptRecord => { x with scoring := none }) e'⟩
  · have dl : s.Delivers l b := .inl d
    obtain ⟨line, event, run⟩ := dl.exec_event
    exact ⟨_, run, State.deliver_replaces (s := { s with line := line }) dl.base (dl.filter_of_event event) jury start hd
      unknown sound mem (.inl (State.roomFor_reuse full mem ended first _))⟩
  · have dl : s.Delivers l b := .inl d
    have own : s.isOwn l = false := by simpa [State.isOwn] using d.other
    obtain ⟨line, event, run⟩ := dl.exec_event
    have room := State.roomFor_live full mem alive first (impliedState b).live
    have f := dl.filter_of_event event
    refine ⟨fun np nv => ?_, fun dead => ?_⟩
    · have live : (impliedState b).live = true := by
        rw [← Bool.not_eq_false, AttemptState.ended_iff]
        exact not_or.2 ⟨np, nv⟩
      rw [if_pos live] at room
      exact ⟨_, run, State.deliver_replaces (s := { s with line := line }) dl.base f jury start hd unknown sound mem
        (.inr room), State.deliver_evicts (s := { s with line := line }) dl.base f jury start hd unknown own room⟩
    · rw [(AttemptState.ended_iff _).2 dead, if_neg Bool.false_ne_true] at room
      rw [← (AttemptState.ended_iff _).2 dead] at room
      exact ⟨_, run, State.deliver_none (s := { s with line := line }) dl.base f jury start hd unknown room⟩
  · obtain ⟨line, event, run⟩ := d.exec_event
    obtain ⟨count, entries⟩ := State.deliver_backlog (s := { s with line := line }) d.base (d.filter_of_event event) start
    refine ⟨_, run, count.trans ?_, (KeepsBacklog.deliver { s with line := line } l b).sound, entries⟩
    exact congrArg List.length (List.filter_congr fun r _ => Bool.and_comm _ _)

end Sys2Proof.Machine
end

section
/-! A GO at a start station whose table holds two records of one number (R62). -/

namespace Sys2Proof.Machine

open Sys2Proof

/-- Attempt 41, bib 17, in round 1. -/
def doubledHdr : AttemptHdr := ⟨41, 17, 1⟩

/-- A start station in IDLE whose table holds attempt 41 twice: in CALLED, which the tracker finds, and in LANDED, which
the backlog counts. -/
def doubledStation : State where
  loader := { state := .run, roles := { start := true } }
  line := { eventNumber := 1 }
  clock := 100000
  roster := List.replicate 16 { presence := .present, lastHeard := some 99000 }
  table := [{ hdr := doubledHdr, state := .called }, { hdr := doubledHdr, state := .landed }]
  start := { backlog := 1 }

/-- A GO for attempt 41 from station 1. -/
def doubledGo : LineHdr := ⟨1, 1, 0, doubledStation.startStamp (.go doubledHdr)⟩

theorem doubledStation_takes : doubledStation.Takes doubledGo (.go doubledHdr) where
  released := rfl
  loaded := by decide
  silent := rfl
  taking := rfl
  line := by decide
  body := by decide
  other := by decide
  stamped := rfl
  active := .inl rfl
  filter := by decide

/-- The GO writes the record found over both, and the sequencer takes the new count. -/
theorem doubledStation_go : ∃ t, exec (.goFrame doubledGo.rx doubledHdr) doubledStation = .next t ∧ t.start.backlog = 0 :=
  ⟨_, rfl, by decide⟩

/-- Refutes O19: nothing in it says that the table is sound. Where a number stands in two records, the tracker's write for a
GO takes the LANDED one out of the backlog count, so the sequencer changes at a GO in IDLE. -/
theorem not_callAndGoFrames : ¬Obligations.CallAndGoFrames := by
  intro h
  obtain ⟨-, -, idle⟩ := h
  obtain ⟨t, run, same⟩ := idle doubledStation doubledGo doubledHdr doubledStation_takes rfl rfl rfl rfl rfl
  obtain ⟨u, run', zero⟩ := doubledStation_go
  obtain rfl : t = u := by
    rw [run] at run'
    cases run'
    rfl
  rw [same] at zero
  exact absurd zero (by decide)

end Sys2Proof.Machine
end

section
/-! A lapsed call at a jury station whose table holds two records of its number (R53, R158). -/

namespace Sys2Proof.Machine

open Sys2Proof

/-- A jury station with a call for attempt 41 whose time has come, and with attempt 41 in the table twice, under two
bibs. -/
def doubledJury : State where
  loader := { state := .run, roles := { jury := true } }
  line := { eventNumber := 1 }
  clock := 100000
  table := [{ hdr := ⟨41, 17, 1⟩, state := .called }, { hdr := ⟨41, 18, 1⟩, state := .called }]
  standings := { pendingCall := some ⟨41, 17, false, 100000⟩ }

/-- The local void writes the record found over both. -/
theorem doubledJury_lapses : ∃ t, exec .callLapsed doubledJury = .next t ∧
    t.table.map (·.hdr) ≠ doubledJury.table.map (·.hdr) := ⟨_, rfl, by decide⟩

/-- Refutes O48: nothing in it says that the table is sound. Where a number stands in two records, the lapse of its call
gives the second the header of the first, and the headers of the table do not stay. -/
theorem not_startListAndCalls : ¬Obligations.StartListAndCalls := by
  intro h
  obtain ⟨-, -, -, -, lapse, -⟩ := h
  obtain ⟨t, run, -, headers, -⟩ := (lapse doubledJury ⟨41, 17, false, 100000⟩ rfl rfl).2 (by decide)
  obtain ⟨u, run', changed⟩ := doubledJury_lapses
  obtain rfl : t = u := by
    rw [run] at run'
    cases run'
    rfl
  exact changed headers

end Sys2Proof.Machine
end

section
/-! The start list of the next round (R164). -/

namespace Sys2Proof.Machine

open Sys2Proof

theorem nextStartList_sublist (es : List ResultsEntry) (round q : Nat) :
    (nextStartList es round q).reverse.Sublist (es.map (·.bib)) := by
  unfold nextStartList
  rw [List.reverse_reverse]
  exact (List.filter_sublist.trans List.filter_sublist).map _

theorem ResultsEntry.hasDsq_eq_false (e : ResultsEntry) : e.hasDsq = false ↔ ∀ x ∈ e.rounds.toList, x.isDsq = false := by
  simp [ResultsEntry.hasDsq]

/-- The bibs of the next round are those of the eligible entries that fewer than `q` eligible ones are better than. -/
theorem mem_nextStartList (es : List ResultsEntry) (round q bib : Nat) : bib ∈ nextStartList es round q ↔
    ∃ e ∈ es, e.bib = bib ∧ (∀ x ∈ e.rounds.toList, x.isDsq = false) ∧ (e.rounds.get round).isOk = true ∧
      (q = 0 ∨ (es.filter (fun f => !f.hasDsq && (f.rounds.get round).isOk && f.better e)).length < q) := by
  have place : ∀ e : ResultsEntry, placeOf (es.filter (fun e => !e.hasDsq && (e.rounds.get round).isOk)) e ≤ q ↔
      (es.filter (fun f => !f.hasDsq && (f.rounds.get round).isOk && f.better e)).length < q := fun e => by
    have same : (es.filter (fun e => !e.hasDsq && (e.rounds.get round).isOk)).filter
        (fun f => !f.hasDsq && f.better e) =
        es.filter (fun f => !f.hasDsq && (f.rounds.get round).isOk && f.better e) := by
      rw [List.filter_filter]
      refine List.filter_congr fun f _ => ?_
      cases f.hasDsq <;> cases (f.rounds.get round).isOk <;> simp
    unfold placeOf
    rw [same]
    omega
  unfold nextStartList
  simp only [List.mem_reverse, List.mem_map, List.mem_filter, Bool.or_eq_true, Bool.and_eq_true, Bool.not_eq_true',
    decide_eq_true_eq, place, ResultsEntry.hasDsq_eq_false]
  refine exists_congr fun e => ?_
  constructor
  · rintro ⟨⟨⟨m, d, ok⟩, p⟩, rfl⟩
    exact ⟨m, rfl, d, ok, p⟩
  · rintro ⟨m, rfl, d, ok, p⟩
    exact ⟨⟨⟨m, d, ok⟩, p⟩, rfl⟩

end Sys2Proof.Machine
end

section
/-! The close of a round (R163, R164). -/

namespace Sys2Proof.Machine

open Sys2Proof

/-! ## What waits stays -/

/-- From `s` to `t` the frames and the notices that wait stay, in the same event, at the same time and under the same
mask. -/
structure WaitingStays (s t : State) : Prop where
  loader : t.loader = s.loader
  clock : t.clock = s.clock
  event : t.line.eventNumber = s.line.eventNumber
  mask : t.console.mask = s.console.mask
  replies : t.console.replies = s.console.replies
  frames : s.line.routine.Sublist t.line.routine
  overrun : s.console.overrun = true → t.console.overrun = true
  notices : s.console.notices ⊆ t.console.notices

namespace WaitingStays

variable {s t u : State}

theorem refl (s : State) : WaitingStays s s := ⟨rfl, rfl, rfl, rfl, rfl, .refl _, id, fun _ => id⟩

theorem trans (h : WaitingStays s t) (k : WaitingStays t u) : WaitingStays s u :=
  ⟨k.loader.trans h.loader, k.clock.trans h.clock, k.event.trans h.event, k.mask.trans h.mask,
    k.replies.trans h.replies, h.frames.trans k.frames,
    k.overrun ∘ h.overrun, fun _ m => k.notices (h.notices m)⟩

theorem modStandings (h : WaitingStays s t) (f : StandingsState → StandingsState) : WaitingStays s (t.modStandings f) :=
  h.trans ⟨rfl, rfl, rfl, rfl, rfl, .refl _, id, fun _ => id⟩

theorem modBoard (h : WaitingStays s t) (f : BoardState → BoardState) : WaitingStays s (t.modBoard f) :=
  h.trans ⟨rfl, rfl, rfl, rfl, rfl, .refl _, id, fun _ => id⟩

theorem raise (h : WaitingStays s t) (n : NoticeBody) : WaitingStays s (t.raise n) := by
  refine h.trans ?_
  unfold State.raise
  rcases t.console.raise_cases t.loader.state t.clock n with e | e | ⟨-, e⟩ <;> rw [e]
  · exact ⟨rfl, rfl, rfl, rfl, rfl, .refl _, id, fun _ => id⟩
  · exact ⟨rfl, rfl, rfl, rfl, rfl, .refl _, fun _ => rfl, fun _ => id⟩
  · exact ⟨rfl, rfl, rfl, rfl, rfl, .refl _, id, fun _ m => List.mem_append_left _ m⟩

/-- A frame that is offered and replaces none. -/
theorem offer (h : WaitingStays s t) {b : Body} (new : b.replaces = false) (e : Option Tick) :
    WaitingStays s (t.offer b e) := by
  refine h.trans ?_
  rcases t.offer_cases b e with ⟨-, x⟩ | ⟨-, r, -⟩ | ⟨-, -, x⟩ | ⟨-, -, -, x⟩
  · rw [x]
    exact refl t
  · exact absurd (r.symm.trans new) (by simp)
  · rw [x]
    exact (refl t).raise _ |>.trans ⟨rfl, rfl, rfl, rfl, rfl, .refl _, id, fun _ => id⟩
  · rw [x]
    unfold LineState.withQueue LineState.queue
    split
    · exact ⟨rfl, rfl, rfl, rfl, rfl, .refl _, id, fun _ => id⟩
    · exact ⟨rfl, rfl, rfl, rfl, rfl, List.sublist_append_left _ _, id, fun _ => id⟩

theorem board (h : BoardActs s t) : WaitingStays s t := by
  induction h with
  | refl => exact refl s
  | modBoard _ f ih => exact ih.modBoard f
  | raise _ n ih => exact ih.raise n

end WaitingStays

/-- A notice of the cycle class waits after its raise, or the overrun is marked (R187). -/
theorem State.raise_waits {s : State} (run : s.loader.state ≠ .loading) (mask : s.console.mask.cycle = true)
    {n : NoticeBody} (cycle : n.number.1 = 1) : (s.raise n).console.overrun = true ∨
      (⟨s.clock, n⟩ : Notice) ∈ (s.raise n).console.notices := by
  have heard : (s.loader.state == .loading || !s.console.mask.has n.number.1) = false := by
    rw [cycle, ClassSet.has, mask]
    simpa using run
  unfold State.raise ConsoleState.raise
  rw [heard, if_neg Bool.false_ne_true]
  dsimp only
  split
  · exact .inl rfl
  · exact .inr (List.mem_append_right _ (List.mem_singleton.2 rfl))

/-- An offered routine frame waits, where its queue has room and the station is not MUTED (R9). -/
theorem State.offer_waits {s : State} {b : Body} (run : s.loader.state.isMuted = false) (routine : b.urgent = false)
    (new : b.replaces = false) (room : s.line.routine.length < 8) (e : Option Tick) :
    (⟨b, s.line.eventNumber, e⟩ : QueuedFrame) ∈ (s.offer b e).line.routine := by
  have queue : s.line.queue b.urgent = s.line.routine := by rw [routine]; rfl
  rw [State.offer_joins run (by rw [new]; rfl), queue, if_pos room, routine]
  exact List.mem_append_right _ (List.mem_singleton.2 rfl)

/-! ## The close -/

/-- The station once ROUND CLOSED has been offered and the start list emptied, short of the opening of the next round. -/
def State.roundEnd (s : State) : State :=
  (((s.modStandings (fun t => { t with round := { t.round with state := .closed } })).offerRound s.standings.round.number
    .closed (orZero s.standings.round.refGate)).modStandings (fun t => { t with startList := [] })).raise
    (.roundClosed s.standings.round.number s.standings.startList.length)

theorem State.closeNow_eq (s : State) : s.closeNow =
    if s.standings.round.number < s.standings.roundsPlanned.getD 0 then s.roundEnd.openNext else s.roundEnd := rfl

theorem State.roundEnd_standings (s : State) : s.roundEnd.standings = { s.standings with
    round := { s.standings.round with state := .closed }, startList := []
    roundCopies := s.standings.roundCopies ++ [.round s.standings.round.number .closed (orZero s.standings.round.refGate)] } :=
  rfl

theorem State.openNext_standings (s : State) : s.openNext.standings = { s.standings with
    round := { number := s.standings.round.number + 1, state := .opened, refGate := none }
    startList := nextStartList s.standings.results s.standings.round.number s.loader.consts.qualifiers
    roundCopies := s.standings.roundCopies ++ [.round (s.standings.round.number + 1) .opened 0] } := rfl

theorem WaitingStays.offerRound {s t : State} (h : WaitingStays s t) (n : Nat) (m : RoundMsg) (g : Nat) :
    WaitingStays s (t.offerRound n m g) := (h.modStandings _).offer (b := .round n m g) rfl _

theorem WaitingStays.roundEnd (s : State) : WaitingStays s s.roundEnd :=
  ((((refl s).modStandings _).offerRound _ _ _).modStandings _).raise _

theorem WaitingStays.openNext (s : State) : WaitingStays s s.openNext := (((refl s).modStandings _).offerRound _ _ _).raise _

/-- ROUND CLOSED waits at the end of the round, where its queue has room. -/
theorem State.roundEnd_frame {s : State} (run : s.loader.state.isMuted = false) (room : s.line.routine.length < 8) :
    (⟨.round s.standings.round.number .closed (orZero s.standings.round.refGate), s.line.eventNumber, none⟩ : QueuedFrame) ∈
      s.roundEnd.line.routine :=
  State.offer_waits (s := (s.modStandings (fun t => { t with round := { t.round with state := .closed } })).modStandings
    (fun t => { t with roundCopies := t.roundCopies ++ [_] })) (b := .round _ .closed _) run rfl rfl room none

/-- So does ROUND_CLOSED at the console. -/
theorem State.roundEnd_notice {s : State} (run : s.loader.state ≠ .loading) (mask : s.console.mask.cycle = true) :
    s.roundEnd.console.overrun = true ∨
      (⟨s.clock, .roundClosed s.standings.round.number s.standings.startList.length⟩ : Notice) ∈
        s.roundEnd.console.notices := by
  obtain ⟨u, eu⟩ : ∃ u : State, u = ((s.modStandings (fun t => { t with round := { t.round with state := .closed } })).offerRound
    s.standings.round.number .closed (orZero s.standings.round.refGate)).modStandings
    (fun t => { t with startList := [] }) := ⟨_, rfl⟩
  have stays : WaitingStays s u := by
    rw [eu]
    exact (((WaitingStays.refl s).modStandings _).offerRound _ _ _).modStandings _
  have waits := State.raise_waits (s := u) (n := .roundClosed s.standings.round.number s.standings.startList.length)
    (by rw [stays.loader]; exact run) (by rw [stays.mask]; exact mask) rfl
  rw [stays.clock, eu] at waits
  exact waits

/-- ROUND_OPEN waits once the next round is open. -/
theorem State.openNext_notice {s : State} (run : s.loader.state ≠ .loading) (mask : s.console.mask.cycle = true) :
    s.openNext.console.overrun = true ∨
      (⟨s.clock, .roundOpen (s.standings.round.number + 1) s.openNext.standings.startList.length⟩ : Notice) ∈
        s.openNext.console.notices := by
  obtain ⟨u, eu⟩ : ∃ u : State, u = (s.modStandings (fun t => { t with
    round := { number := s.standings.round.number + 1, state := .opened, refGate := none }
    startList := nextStartList s.standings.results s.standings.round.number s.loader.consts.qualifiers })).offerRound
    (s.standings.round.number + 1) .opened 0 := ⟨_, rfl⟩
  have stays : WaitingStays s u := by
    rw [eu]
    exact ((WaitingStays.refl s).modStandings _).offerRound _ _ _
  have waits := State.raise_waits (s := u) (n := .roundOpen (s.standings.round.number + 1) s.openNext.standings.startList.length)
    (by rw [stays.loader]; exact run) (by rw [stays.mask]; exact mask) rfl
  rw [stays.clock, eu] at waits
  exact waits

theorem WaitingStays.roundEnd_closeNow (s : State) : WaitingStays s.roundEnd s.closeNow := by
  rw [s.closeNow_eq]
  split
  · exact .openNext _
  · exact .refl _

/-- The close of a round does what R163 and R164 say. -/
theorem State.closeNow_closes (s : State) : s.RoundCloses s.closeNow s.standings.startList.length := by
  rintro n planned closed rfl rfl rfl
  have whole := WaitingStays.roundEnd s
  have last := WaitingStays.roundEnd_closeNow s
  have opens : s.standings.round.number < s.standings.roundsPlanned.getD 0 → s.closeNow = s.roundEnd.openNext :=
    fun lt => if_pos lt
  refine ⟨fun le => ?_, fun lt => ?_, fun run => ?_, fun run mask => ?_⟩
  · rw [s.closeNow_eq, if_neg (Nat.not_lt.2 le), s.roundEnd_standings]
    exact ⟨rfl, rfl, rfl⟩
  · rw [opens lt, State.openNext_standings, s.roundEnd_standings]
    exact ⟨rfl, rfl, List.append_assoc _ _ _⟩
  · by_cases room : s.line.routine.length < 8
    · exact .inr (last.frames.subset (State.roundEnd_frame run room))
    · exact .inl ((Nat.not_lt.1 room).trans (whole.trans last).frames.length_le)
  · rcases State.roundEnd_notice run mask with lost | waits
    · exact .inl (last.overrun lost)
    · by_cases lt : s.standings.round.number < s.standings.roundsPlanned.getD 0
      · have opened := State.openNext_notice (s := s.roundEnd) (by rw [whole.loader]; exact run)
          (by rw [whole.mask]; exact mask)
        rw [whole.clock, ← opens lt] at opened
        exact opened.imp_right fun o => ⟨last.notices waits, fun _ => o⟩
      · exact .inr ⟨last.notices waits, fun k => absurd k lt⟩

/-! ## A close in its place -/

/-- From `s` to `t` the round, open or closing, its copies and its plan stay, in the same event, at the same time and
under the same mask. -/
structure RoundStays (s t : State) : Prop where
  number : t.standings.round.number = s.standings.round.number
  refGate : t.standings.round.refGate = s.standings.round.refGate
  copies : t.standings.roundCopies = s.standings.roundCopies
  planned : t.standings.roundsPlanned = s.standings.roundsPlanned
  loader : t.loader = s.loader
  clock : t.clock = s.clock
  event : t.line.eventNumber = s.line.eventNumber
  mask : t.console.mask = s.console.mask

namespace RoundStays

variable {s t u : State}

theorem refl (s : State) : RoundStays s s := ⟨rfl, rfl, rfl, rfl, rfl, rfl, rfl, rfl⟩

theorem trans (h : RoundStays s t) (k : RoundStays t u) : RoundStays s u :=
  ⟨k.number.trans h.number, k.refGate.trans h.refGate, k.copies.trans h.copies, k.planned.trans h.planned, k.loader.trans h.loader,
    k.clock.trans h.clock, k.event.trans h.event, k.mask.trans h.mask⟩

/-- A change of a block other than the standings unit. -/
theorem only {R : State → State → State} (h : Only R s t)
    (w : ∀ u v : State, RoundStays (R u v) v := by exact fun _ _ => ⟨rfl, rfl, rfl, rfl, rfl, rfl, rfl, rfl⟩) :
    RoundStays s t := by
  have := w s t
  rwa [h.same] at this

/-- A change of the standings that leaves the round. -/
theorem standings (h : OnlyStandings s t) (round : t.standings.round = s.standings.round)
    (copies : t.standings.roundCopies = s.standings.roundCopies)
    (planned : t.standings.roundsPlanned = s.standings.roundsPlanned) : RoundStays s t :=
  ⟨congrArg RoundRecord.number round, congrArg RoundRecord.refGate round, copies, planned,
    (congrArg State.loader h.same :), (congrArg State.clock h.same :),
    (congrArg (fun u : State => u.line.eventNumber) h.same :), (congrArg (fun u : State => u.console.mask) h.same :)⟩

end RoundStays

/-- A close seen from before, where the round has stayed, and from after, where its frame and its notices wait. -/
theorem State.RoundCloses.within {s x y t : State} {d : Nat} (h : x.RoundCloses y d) (before : RoundStays s x)
    (after : WaitingStays y t) (standings : t.standings = y.standings) : s.RoundCloses t d := by
  rintro n planned closed rfl rfl rfl
  obtain ⟨number, gate, copies, plan, loader, clock, event, mask⟩ := before
  have k := h _ _ _ rfl rfl rfl
  dsimp only at k ⊢
  rw [number, gate, copies, plan, loader, clock, event, mask] at k
  obtain ⟨ends, opens, frame, notices⟩ := k
  rw [standings]
  refine ⟨ends, opens, fun run => ?_, fun run m => ?_⟩
  · exact (frame run).imp (fun full => full.trans after.frames.length_le) (after.frames.subset ·)
  · exact (notices run m).imp after.overrun fun ⟨c, o⟩ => ⟨after.notices c, fun lt => after.notices (o lt)⟩

end Sys2Proof.Machine
end

section
/-! CLOSE_ROUND (R163, R164, R178). -/

namespace Sys2Proof.Machine

open Sys2Proof

/-! ## The test of a closing round -/

/-- A live record of the round is held. -/
def State.liveInRound (s : State) (n : Nat) : Bool := s.table.any (fun r => r.state.live && r.hdr.round == n)

theorem State.liveInRound_iff (s : State) (n : Nat) : s.liveInRound n = true ↔
    ∃ r ∈ s.table, r.hdr.round = n ∧ r.state ≠ .published ∧ r.state ≠ .void := by
  unfold State.liveInRound
  rw [List.any_eq_true]
  refine exists_congr fun r => and_congr_right fun _ => ?_
  rw [Bool.and_eq_true, beq_iff_eq, and_comm, ← Bool.not_eq_false, AttemptState.ended_iff, not_or]

theorem State.testClosing_stands {s : State} (live : s.liveInRound s.standings.round.number = true) : s.testClosing = s := by
  unfold State.liveInRound at live
  simp [State.testClosing, live]

theorem State.testClosing_closes {s : State} (jury : s.loader.roles.jury = true)
    (closing : s.standings.round.state = .closing) (ended : s.liveInRound s.standings.round.number = false) :
    s.testClosing = s.closeNow := by
  unfold State.liveInRound at ended
  simp [State.testClosing, jury, closing, ended]

/-! ## The board follows the round record -/

theorem State.boardListChange_same (v : State) (before : StandingsState) :
    { v.boardListChange before with board := v.board } = v := by
  unfold State.boardListChange
  split
  · rfl
  · unfold State.recompose
    split
    · rfl
    · split <;> rfl

/-- A STANDINGS page is composed again where the round record has changed (R178). -/
theorem State.boardListChange_follows {s v : State} (loader : v.loader = s.loader) (board : v.board = s.board)
    {before : StandingsState} (changed : v.standings.round ≠ before.round) :
    s.BoardFollows (v.ifRole (·.board) (·.boardListChange before)) := by
  have again : v.boardListChange before = v.recompose (·.isStandings) := if_neg fun k => changed k.2
  refine ⟨fun c i role cur page => ?_, fun no => ?_⟩
  · rw [State.ifRole, if_pos (by rw [loader]; exact role), again]
    unfold State.recompose
    rw [board, cur]
    dsimp only
    rw [page, if_pos (show (Page.standings i).isStandings = true from rfl)]
    unfold State.composePage State.modBoard
    rw [board]
    rfl
  · unfold State.ifRole
    rw [loader]
    split
    · rename_i role
      have none := no.resolve_left (by simp [role])
      show (v.boardListChange before).board = s.board
      rw [again]
      unfold State.recompose
      rw [board]
      split
      · exact board
      · rename_i c cur
        rw [if_neg]
        · exact board
        · cases e : c.entry.page with
          | standings i => exact absurd e (none c cur i)
          | _ => exact Bool.false_ne_true
    · exact board

/-! ## CLOSE_ROUND -/

/-- The station once it has taken CLOSE_ROUND, short of the test of its round. -/
def State.roundClosing (s : State) : State :=
  ({ s with standings := { s.standings with
      round := { s.standings.round with state := .closing } } }.afterAnswer 0x3E .ok).raise
    (.roundClosing s.standings.round.number)

/-- CLOSE_ROUND where the round is open. -/
theorem State.JuryTakes.closeRound {s : State} (h : s.JuryTakes) (opened : s.standings.round.state = .opened) :
    exec .closeRound s = .next (s.roundClosing.testClosing.ifRole (·.board) (·.boardListChange s.standings)) := by
  have record : State.TakesRecord { s with standings := { s.standings with
    round := { s.standings.round with state := .closing } } } := ⟨h.released, h.loaded, h.taking, h.room⟩
  refine congrArg Host.Outcome.next ((h.command _ _).trans ?_)
  have closing : s.clearAssembler.takeCloseRound = s.roundClosing.testClosing := by
    unfold State.takeCloseRound State.roundClosing
    rw [if_pos (by exact opened), ← record.answer]
    rfl
  rw [closing]
  rfl

/-- What a close leaves of everything but the standings, the transmit queues, the latch and the console. -/
theorem OnlyStandings.rest {s t : State} (h : OnlyStandings s t) :
    { t with standings := s.standings, line := s.line, latch := s.latch, console := s.console } = s :=
  calc { t with standings := s.standings, line := s.line, latch := s.latch, console := s.console }
    _ = { restoreStandings s t with line := s.line, latch := s.latch, console := s.console } := rfl
    _ = s := by rw [h.same]

/-- A round that is not open is refused. -/
theorem State.JuryTakes.closeRound_refused {s : State} (h : s.JuryTakes) (no : s.standings.round.state ≠ .opened) :
    exec .closeRound s = .next (s.afterAnswer 0x3E .state) := by
  refine congrArg Host.Outcome.next ((h.command _ _).trans ?_)
  have refused : s.clearAssembler.takeCloseRound = s.afterAnswer 0x3E .state := by
    unfold State.takeCloseRound
    rw [if_neg (by exact no), h.toTakesRecord.answer]
  rw [refused]
  unfold State.ifRole
  split
  · exact State.boardListChange_of_same rfl
  · rfl

theorem State.closeRound_board (v : State) (before : StandingsState) :
    { v.ifRole (·.board) (·.boardListChange before) with board := v.board } = v := by
  unfold State.ifRole
  split
  · exact v.boardListChange_same before
  · rfl

theorem WaitingStays.closeNow (s : State) : WaitingStays s s.closeNow := (roundEnd s).trans (.roundEnd_closeNow s)

/-- The board takes nothing from what waits. -/
theorem WaitingStays.closeRound_board (v : State) (before : StandingsState) :
    WaitingStays v (v.ifRole (·.board) (·.boardListChange before)) :=
  .board (BoardActs.ifRole .refl (·.board) fun _ => BoardActs.refl.boardListChange before)

section atOnce

variable {s : State}

theorem RoundStays.roundClosing (s : State) : RoundStays s s.roundClosing :=
  ⟨rfl, rfl, rfl, rfl, rfl, rfl, rfl, by simp [State.roundClosing, State.afterAnswer, State.afterReply]⟩

theorem State.roundClosing_replies (s : State) : s.roundClosing.console.replies =
    s.console.replies ++ [{ command := 0x3E, code := .ok }] := by
  simp [State.roundClosing, State.afterAnswer, State.afterReply]

/-- A round without a live attempt closes at once (R163). -/
theorem State.JuryTakes.closeRound_closes (h : s.JuryTakes) (opened : s.standings.round.state = .opened)
    (ended : s.liveInRound s.standings.round.number = false) : exec .closeRound s =
      .next (s.roundClosing.closeNow.ifRole (·.board) (·.boardListChange s.standings)) := by
  rw [h.closeRound opened, State.testClosing_closes (s := s.roundClosing) h.jury rfl ended]

/-- A round with a live attempt becomes CLOSING (R163). -/
theorem State.JuryTakes.closeRound_stands (h : s.JuryTakes) (opened : s.standings.round.state = .opened)
    (live : s.liveInRound s.standings.round.number = true) : exec .closeRound s =
      .next (s.roundClosing.ifRole (·.board) (·.boardListChange s.standings)) := by
  rw [h.closeRound opened, State.testClosing_stands (s := s.roundClosing) live]

/-- With no round left the start list is emptied (R164). -/
theorem State.closeNow_ends (s : State) (le : s.standings.roundsPlanned.getD 0 ≤ s.standings.round.number) :
    s.closeNow.standings = { s.standings with
      round := { s.standings.round with state := .closed }, startList := []
      roundCopies := s.standings.roundCopies ++
        [.round s.standings.round.number .closed (orZero s.standings.round.refGate)] } := by
  rw [s.closeNow_eq, if_neg (Nat.not_lt.2 le), s.roundEnd_standings]

/-- Short of the planned rounds the next one opens (R164). -/
theorem State.closeNow_opens (s : State) (lt : s.standings.round.number < s.standings.roundsPlanned.getD 0) :
    s.closeNow.standings = { s.standings with
      round := { number := s.standings.round.number + 1, state := .opened, refGate := none }
      startList := nextStartList s.standings.results s.standings.round.number s.loader.consts.qualifiers
      roundCopies := s.standings.roundCopies ++
        [.round s.standings.round.number .closed (orZero s.standings.round.refGate),
          .round (s.standings.round.number + 1) .opened 0] } := by
  rw [s.closeNow_eq, if_pos lt, State.openNext_standings, s.roundEnd_standings, (WaitingStays.roundEnd s).loader,
    List.append_assoc]
  rfl

/-- A closed round is another than the open one. -/
theorem State.closeNow_round (s : State) {r : RoundRecord} (number : r.number = s.standings.round.number)
    (opened : r.state = .opened) : s.closeNow.standings.round ≠ r := by
  rw [s.closeNow_eq]
  split
  · intro e
    have n := congrArg RoundRecord.number e
    rw [State.openNext_standings, s.roundEnd_standings, number] at n
    exact absurd n (Nat.succ_ne_self _)
  · intro e
    have st := congrArg RoundRecord.state e
    rw [s.roundEnd_standings, opened] at st
    exact absurd st (by simp)

/-- What CLOSE_ROUND comes to where it closes the round at once. -/
theorem State.JuryTakes.closeRound_at_once (h : s.JuryTakes) (opened : s.standings.round.state = .opened)
    (ended : s.liveInRound s.standings.round.number = false) {n : Nat} {closed : Body} (en : n = s.standings.round.number)
    (ec : closed = .round n .closed (orZero s.standings.round.refGate)) :
    ∃ t, exec .closeRound s = .next t ∧
      (∀ planned, s.standings.roundsPlanned = some planned →
        (planned ≤ n → t.standings = { s.standings with
          round := { s.standings.round with state := .closed }, startList := []
          roundCopies := s.standings.roundCopies ++ [closed] }) ∧
        (n < planned → t.standings = { s.standings with
          round := { number := n + 1, state := .opened, refGate := none }
          startList := nextStartList s.standings.results n s.loader.consts.qualifiers
          roundCopies := s.standings.roundCopies ++ [closed, .round (n + 1) .opened 0] })) ∧
      (s.line.routine.length < 8 → s.loader.state.isMuted = false →
        (⟨closed, s.line.eventNumber, none⟩ : QueuedFrame) ∈ t.line.routine) ∧
      t.console.replies = s.console.replies ++ [{ command := 0x3E, code := .ok }] ∧ s.BoardFollows t ∧
      s.RoundCloses t s.standings.startList.length ∧
      { t with
        standings := s.standings, board := s.board, line := s.line, latch := s.latch, console := s.console } = s := by
  subst ec en
  obtain ⟨u, eu⟩ : ∃ u, u = s.roundClosing := ⟨_, rfl⟩
  have standings : u.standings = { s.standings with round := { s.standings.round with state := .closing } } := by rw [eu]; rfl
  have loader : u.loader = s.loader := by rw [eu]; rfl
  have line : u.line = s.line := by rw [eu]; rfl
  have only : OnlyStandings u u.closeNow := (Only.refl blockStandings u).closeNow
  have board : u.closeNow.board = s.board := (congrArg State.board only.same :).trans (by rw [eu]; rfl)
  have listed := State.closeRound_board u.closeNow s.standings
  have waits := WaitingStays.closeRound_board u.closeNow s.standings
  have run := h.closeRound_closes opened ended
  rw [← eu] at run
  have changed : u.closeNow.standings.round ≠ s.standings.round :=
    State.closeNow_round u (by rw [standings]) opened
  have follows := State.boardListChange_follows (s := s) (v := u.closeNow)
    ((congrArg State.loader only.same :).trans loader) board changed
  generalize u.closeNow.ifRole (·.board) (·.boardListChange s.standings) = t at *
  have same : t.standings = u.closeNow.standings := (congrArg State.standings listed :)
  have close := WaitingStays.closeNow u
  refine ⟨t, run, fun planned plan => ⟨fun le => ?_, fun lt => ?_⟩, fun room muted => ?_, ?_, follows, ?_, ?_⟩
  · rw [same, u.closeNow_ends (by rw [standings, plan]; exact le), standings]
  · rw [same, u.closeNow_opens (by rw [standings, plan]; exact lt), standings, loader]
  · have frame := State.roundEnd_frame (s := u) (by rw [loader]; exact muted) (by rw [line]; exact room)
    rw [standings, line] at frame
    exact waits.frames.subset ((WaitingStays.roundEnd_closeNow u).frames.subset frame)
  · rw [waits.replies, close.replies, eu, s.roundClosing_replies]
  · have closes := u.closeNow_closes.within (s := s) (by rw [eu]; exact .roundClosing s) waits same
    rwa [standings] at closes
  · calc { t with
          standings := s.standings, board := s.board, line := s.line, latch := s.latch, console := s.console }
      _ = { ({ t with board := u.closeNow.board } : State) with
          standings := s.standings, board := s.board, line := s.line, latch := s.latch, console := s.console } := rfl
      _ = { ({ u.closeNow with standings := u.standings, line := u.line, latch := u.latch, console := u.console } : State) with
          standings := s.standings, board := s.board, line := s.line, latch := s.latch, console := s.console } := by
        rw [listed]
      _ = { u with
          standings := s.standings, board := s.board, line := s.line, latch := s.latch, console := s.console } := by
        rw [only.rest]
      _ = s := by rw [eu]; rfl

end atOnce

end Sys2Proof.Machine
end

section
/-! A CLOSING round at the end of an attempt (R53, R158, R163, R164). -/

namespace Sys2Proof.Machine

open Sys2Proof

/-! ## What the standings unit finds -/

/-- From `s` to `t` the standings, the records but for their scoring parts, the time, the event and the mask stay. -/
structure StandingsStay (s t : State) : Prop where
  standings : t.standings = s.standings
  records : RecordsStay s t
  loader : t.loader = s.loader
  clock : t.clock = s.clock
  event : t.line.eventNumber = s.line.eventNumber
  mask : t.console.mask = s.console.mask

namespace StandingsStay

variable {s t u : State}

theorem refl (s : State) : StandingsStay s s := ⟨rfl, .refl s, rfl, rfl, rfl, rfl⟩

theorem trans (h : StandingsStay s t) (k : StandingsStay t u) : StandingsStay s u :=
  ⟨k.standings.trans h.standings, h.records.trans k.records, k.loader.trans h.loader, k.clock.trans h.clock,
    k.event.trans h.event, k.mask.trans h.mask⟩

theorem roundStays (h : StandingsStay s t) : RoundStays s t := by
  obtain ⟨standings, -, loader, clock, event, mask⟩ := h
  exact ⟨by rw [standings], by rw [standings], by rw [standings], by rw [standings], loader, clock, event, mask⟩

/-- A change of a block that writes neither records nor standings. -/
theorem only {R : State → State → State} (h : Only R s t)
    (w : ∀ u v : State, StandingsStay (R u v) v := by exact fun _ _ => ⟨rfl, .of_eq rfl, rfl, rfl, rfl, rfl⟩) :
    StandingsStay s t := by
  have := w s t
  rwa [h.same] at this

theorem scoring (h : OnlyScoring s t) : StandingsStay s t :=
  ⟨(congrArg State.standings h.same :), h.bare, (congrArg State.loader h.same :), (congrArg State.clock h.same :),
    (congrArg (fun u : State => u.line.eventNumber) h.same :), (congrArg (fun u : State => u.console.mask) h.same :)⟩

theorem ifRole (h : StandingsStay s t) (role : RoleSet → Bool) {act : State → State} (k : StandingsStay t (act t)) :
    StandingsStay s (t.ifRole role act) := by
  unfold State.ifRole
  split
  · exact h.trans k
  · exact h

/-- The roster and the line interface, at a frame with an attempt header. -/
theorem tracked (s : State) (l : LineHdr) {b : Body} {h : AttemptHdr} (hd : b.hdr? = some h) :
    StandingsStay s (s.tracked l b) := by
  have line : s.tracked l b = s.rosterTake l b := by
    unfold State.tracked
    cases b with
    | event n m r => cases hd
    | status p => cases hd
    | _ => rfl
  have o := (OnlyDelivery.rosterTake (.refl blockDelivery s) l b).same
  obtain ⟨event, standings, -⟩ := s.rosterTake_leaves l b
  rw [line]
  exact ⟨standings, (AttemptsStay.rosterTake s l b).table, (congrArg State.loader o :), (congrArg State.clock o :), event,
    (congrArg (fun u : State => u.console.mask) o :)⟩

/-- The blocks before the standings unit, at a frame. -/
theorem handFrame (s : State) (l : LineHdr) (b : Body) (cs : List Change) : ∃ x : State, StandingsStay s x ∧
    (s.handFrame l b cs).standings = (x.ifRole (fun r => r.jury || r.board) (·.standingsTake l b cs)).standings ∧
    WaitingStays (x.ifRole (fun r => r.jury || r.board) (·.standingsTake l b cs)) (s.handFrame l b cs) := by
  obtain ⟨s1, s2, s3, s4, s5, s6, s7, ⟨-, h1⟩, ⟨-, h2⟩, ⟨-, h3⟩, ⟨-, h4⟩, ⟨-, h5⟩, ⟨-, h6⟩, ⟨e7, -⟩, e8, -⟩ :=
    s.handFrame_stages l b cs
  have acts : BoardActs s7 (s.handFrame l b cs) := by
    rw [e8]
    exact BoardActs.ifRole .refl _ fun u => BoardActs.refl.boardTake _ l b cs
  refine ⟨s6, (only h1).trans ((only h2).trans ((only h3).trans ((only h4).trans ((only h5).trans (scoring h6))))), ?_⟩
  rw [← e7]
  exact ⟨(congrArg State.standings acts.same :), .board acts⟩

/-- The blocks before the standings unit, at a change of the table that no frame makes. -/
theorem handChanges (s : State) (l : LineHdr) (byLanding : Bool) {cs : List Change} (nonempty : cs ≠ []) : ∃ x : State,
    StandingsStay s x ∧ (s.handChanges l byLanding cs).standings = (x.ifRole (·.jury) (·.testClosing)).standings ∧
    WaitingStays (x.ifRole (·.jury) (·.testClosing)) (s.handChanges l byLanding cs) := by
  have tests : (fun u : State => if cs.isEmpty then u else u.testClosing) = (·.testClosing) := by
    funext u
    exact if_neg (by simpa using nonempty)
  unfold State.handChanges
  extract_lets before s1 s2 s3 s4 s5 s6 s7
  have acts : BoardActs s7 (s7.ifRole (·.board) fun s =>
      (cs.foldl (fun s c => s.boardChange byLanding c) s).boardListChange before) :=
    BoardActs.ifRole .refl _ fun u => (BoardActs.refl.boardChanges byLanding cs).boardListChange before
  have e7 : s7 = s6.ifRole (·.jury) (·.testClosing) := by
    unfold s7
    rw [tests]
  refine ⟨s6, ?_, by rw [← e7]; exact ⟨(congrArg State.standings acts.same :), .board acts⟩⟩
  refine ifRole (ifRole (ifRole (ifRole (ifRole (ifRole (refl s) _ ?_) _ ?_) _ ?_) _ ?_) _ ?_) _ ?_
  · exact only (Only.refl blockStart _).recountBacklog
  · exact only (Only.foldl (fun h _ => h.edgeChange _) cs (.refl blockEdge _))
  · exact only (Only.foldl (fun h _ => h.windChange _) cs (.refl blockWind _))
  · exact only (Only.foldl (fun h _ => h.spanChange _) cs (.refl blockSpan _))
  · exact only (Only.foldl (f := fun s c => s.landingChange l c) (fun h _ => h.landingChange _ _) cs (.refl blockLanding _))
  · exact scoring (OnlyScoring.foldl (fun h _ => h.scoringChange _) cs (.refl _))

end StandingsStay

/-! ## The live records of a round once an attempt has ended -/

theorem RecordsStay.liveInRound {s t : State} (h : RecordsStay s t) (n : Nat) : t.liveInRound n = s.liveInRound n := by
  have via : ∀ u : State, u.liveInRound n =
      (u.table.map AttemptRecord.bare).any (fun r => r.state.live && r.hdr.round == n) := fun u => by
    rw [List.any_map]
    rfl
  rw [via, via, h]

/-- Another attempt than `n` is live in round `m`. -/
def State.OthersLive (s : State) (n m : Nat) : Prop :=
  ∃ q ∈ s.table, q.hdr.attempt ≠ n ∧ q.hdr.round = m ∧ q.state ≠ .published ∧ q.state ≠ .void

theorem State.not_othersLive {s : State} {n m : Nat} (ended : ∀ q ∈ s.table, q.hdr.attempt ≠ n → q.hdr.round = m →
    q.state = .published ∨ q.state = .void) : ¬s.OthersLive n m := by
  rintro ⟨q, mem, ne, round, np, nv⟩
  exact (ended q mem ne round).elim np nv

/-- With the record of an attempt ended, a round is live by the others alone. -/
theorem State.setRecord_liveInRound (s : State) {n : Nat} {r' : AttemptRecord} (ended : r'.state.live = false) (m : Nat) :
    (s.setRecord n fun _ => r').liveInRound m = true ↔ s.OthersLive n m := by
  have live : ∀ q : AttemptRecord, (q.state ≠ .published ∧ q.state ≠ .void) ↔ q.state.live = true := fun q => by
    rw [← not_or, ← AttemptState.ended_iff, Bool.not_eq_false]
  unfold State.liveInRound
  rw [State.setRecord_table, List.any_map, List.any_eq_true]
  refine exists_congr fun q => and_congr_right fun _ => ?_
  by_cases e : q.hdr.attempt = n
  · simp [e, ended]
  · simp [e, live, and_comm]

/-- The same of the station before, whose records differ in scoring parts at most. -/
theorem RecordsStay.others_live {s t : State} (h : RecordsStay s t) (n m : Nat) :
    t.OthersLive n m ↔ s.OthersLive n m := by
  have via : ∀ u : State, u.OthersLive n m ↔ ∃ q ∈ u.table.map AttemptRecord.bare, q.hdr.attempt ≠ n ∧ q.hdr.round = m ∧
      q.state ≠ .published ∧ q.state ≠ .void := fun u => by simp [State.OthersLive, AttemptRecord.bare]
  rw [via, via, h]

/-! ## The standings unit's own part -/

/-- What an ended attempt does to the standings besides: the results list, the start list and the pending call alone. -/
structure RoundKept (s t : State) : Prop where
  only : OnlyStandings s t
  round : t.standings.round = s.standings.round
  copies : t.standings.roundCopies = s.standings.roundCopies
  planned : t.standings.roundsPlanned = s.standings.roundsPlanned

namespace RoundKept

variable {s t u : State}

theorem refl (s : State) : RoundKept s s := ⟨.refl blockStandings s, rfl, rfl, rfl⟩

theorem trans (h : RoundKept s t) (k : RoundKept t u) : RoundKept s u :=
  ⟨h.only.trans k.only, k.round.trans h.round, k.copies.trans h.copies, k.planned.trans h.planned⟩

theorem ite {c : Prop} [Decidable c] (h : RoundKept s t) (k : RoundKept s u) : RoundKept s (if c then t else u) := by
  split <;> assumption

theorem raise (h : RoundKept s t) (n : NoticeBody) : RoundKept s (t.raise n) := ⟨h.only.raise n, h.round, h.copies, h.planned⟩

theorem modStandings (h : RoundKept s t) {f : StandingsState → StandingsState} (round : (f t.standings).round = t.standings.round)
    (copies : (f t.standings).roundCopies = t.standings.roundCopies)
    (planned : (f t.standings).roundsPlanned = t.standings.roundsPlanned) : RoundKept s (t.modStandings f) :=
  h.trans ⟨(Only.refl blockStandings t).modStandings f, round, copies, planned⟩

theorem updateResults (s : State) (h : AttemptHdr) (f : RoundStatus → RoundStatus) : RoundKept s (s.updateResults h f) := by
  unfold State.updateResults
  refine .ite (refl s) ?_
  split
  · exact (refl s).modStandings rfl rfl rfl
  · exact (refl s).raise _

theorem callTaken (h : RoundKept s t) (n : Nat) : RoundKept s (t.callTaken n) := by
  unfold State.callTaken
  split
  · exact h
  · exact .ite ((h.modStandings rfl rfl rfl).raise _) h

theorem repeatHead (h : RoundKept s t) (bib : Nat) : RoundKept s (t.repeatHead bib) :=
  .ite h (.ite ((h.modStandings rfl rfl rfl).raise _) (h.raise _))

/-- A VOID enters the results list; the jury's pending call and start list change with it. -/
theorem void (s : State) (l : LineHdr) (h : AttemptHdr) (why : VoidReason) : RoundKept s (s.standingsFrame l (.void h why)) := by
  have call : RoundKept s (if s.loader.roles.jury then s.callTaken h.attempt else s) := .ite ((refl s).callTaken _) (refl s)
  have list : ∀ u : State, RoundKept u (u.listVoid h why) := fun u => .ite (refl u) (updateResults u _ _)
  exact .ite ((call.trans (list _)).repeatHead _) (call.trans (list _))

/-- A RESULT enters the results list. -/
theorem result (s : State) (l : LineHdr) (p : ResultPayload) : RoundKept s (s.standingsFrame l (.result p)) :=
  .ite (refl s) (updateResults s _ _)

theorem roundStays (h : RoundKept s t) : RoundStays s t := .standings h.only h.round h.copies h.planned

end RoundKept

/-- A RESULT leaves the start list. -/
theorem State.standingsFrame_result_startList (s : State) (l : LineHdr) (p : ResultPayload) :
    (s.standingsFrame l (.result p)).standings.startList = s.standings.startList := by
  show (s.listResult p).standings.startList = _
  unfold State.listResult State.updateResults
  split
  · rfl
  · split
    · rfl
    · split <;> rfl

/-! ## The end of an attempt in a CLOSING round -/

/-- The test of a CLOSING round, seen from before and after: it stands while another attempt is live, and closes else. -/
theorem State.testClosing_within {s y t : State} (jury : s.loader.roles.jury = true)
    (closing : s.standings.round.state = .closing) (before : RoundStays s y) (round : y.standings.round = s.standings.round)
    (standings : t.standings = y.testClosing.standings) (after : WaitingStays y.testClosing t) :
    (y.liveInRound s.standings.round.number = true → t.standings = y.standings) ∧
    (y.liveInRound s.standings.round.number = false → s.RoundCloses t y.standings.startList.length) := by
  refine ⟨fun live => ?_, fun ended => ?_⟩
  · rw [standings, State.testClosing_stands (by rw [round]; exact live)]
  · rw [State.testClosing_closes (by rw [before.loader]; exact jury) (by rw [round]; exact closing)
      (by rw [round]; exact ended)] at standings after
    exact y.closeNow_closes.within before after standings

/-- The tracker at a frame that ends a known attempt: its record is written, and the others stay. -/
theorem State.takeKnown_ends {s : State} {own : Bool} {l : LineHdr} {b : Body} {h : AttemptHdr} {r : AttemptRecord}
    (moved : (r.take (s.loader.roles.start && !own) l b).state ≠ r.state)
    (ended : (r.take (s.loader.roles.start && !own) l b).state.live = false) :
    (s.takeKnown own l b h r).1.table = (s.setRecord h.attempt fun _ => r.take (s.loader.roles.start && !own) l b).table ∧
    (s.takeKnown own l b h r).2.isEmpty = false := by
  have k := State.takeKnown_moved (s := s) (h := h) rfl moved
  rw [AttemptState.grounded_of_ended ended] at k
  exact ⟨k.1, by rw [k.2]; rfl⟩

/-- A delivered frame that ends a known attempt, at a jury station: the standings unit finds the other attempts alone
live, takes the frame, and tests a CLOSING round. -/
theorem State.deliver_ends {s : State} {l : LineHdr} {b : Body} {h : AttemptHdr} {r : AttemptRecord}
    (base : s.loader.state.base = .run) (f : s.passesFilter l b = true) (jury : s.loader.roles.jury = true)
    (hd : b.hdr? = some h) (k : s.attempt? h.attempt = some r)
    (moved : (r.take (s.loader.roles.start && !s.isOwn l) l b).state ≠ r.state)
    (ended : (r.take (s.loader.roles.start && !s.isOwn l) l b).state.live = false) :
    ∃ x : State, RoundStays s x ∧ x.standings = s.standings ∧
      (∀ m, x.liveInRound m = true ↔ s.OthersLive h.attempt m) ∧
      (s.deliver l b).standings = (x.standingsFrame l b).testClosing.standings ∧
      WaitingStays (x.standingsFrame l b).testClosing (s.deliver l b) := by
  have stays := StandingsStay.tracked s l hd
  have e := stays.records.bare? h.attempt
  unfold State.bare? at e
  rw [k] at e
  obtain ⟨rv, kv, ev⟩ := Option.map_eq_some_iff.1 e
  have sv : rv.state = r.state := (congrArg AttemptRecord.state ev :)
  have own : (s.tracked l b).isOwn l = s.isOwn l := by unfold State.isOwn; rw [stays.loader]
  rw [State.deliver_passed base f]
  change ∃ x : State, RoundStays s x ∧ _ ∧ _ ∧ (((s.tracked l b).track l b).1.handFrame l b
    ((s.tracked l b).track l b).2).standings = _ ∧ WaitingStays _ (((s.tracked l b).track l b).1.handFrame l b
    ((s.tracked l b).track l b).2)
  generalize s.tracked l b = u at *
  have same : (rv.take (u.loader.roles.start && !u.isOwn l) l b).state =
      (r.take (s.loader.roles.start && !s.isOwn l) l b).state := by
    rw [AttemptRecord.take_state, AttemptRecord.take_state, sv, own, stays.loader]
  have ended' : (rv.take (u.loader.roles.start && !u.isOwn l) l b).state.live = false := by rw [same]; exact ended
  obtain ⟨table, changed⟩ := State.takeKnown_ends (s := u) (own := u.isOwn l) (h := h) (by rw [same, sv]; exact moved) ended'
  have only := OnlyTable.takeKnown u (u.isOwn l) l b h rv
  rw [State.track_known hd kv]
  generalize u.takeKnown (u.isOwn l) l b h rv = w at *
  obtain ⟨w, cs⟩ := w
  dsimp only at table changed only ⊢
  obtain ⟨x, found, standings, waits⟩ := StandingsStay.handFrame w l b cs
  have within : RoundStays s x := (stays.roundStays.trans (.only only)).trans found.roundStays
  rw [State.ifRole, if_pos (by rw [within.loader, jury]; rfl), State.standingsTake, changed,
    if_neg Bool.false_ne_true] at standings waits
  refine ⟨x, within, ?_, fun m => ?_, standings, waits⟩
  · exact found.standings.trans ((congrArg State.standings only.same :).trans stays.standings)
  · have written : w.liveInRound m = (u.setRecord h.attempt fun _ =>
        rv.take (u.loader.roles.start && !u.isOwn l) l b).liveInRound m := by
      unfold State.liveInRound
      rw [table]
    rw [found.records.liveInRound, written, State.setRecord_liveInRound u ended', stays.records.others_live]

/-- A CLOSING round at a delivered frame that ends an attempt: it stands while another attempt is live, and closes else. -/
theorem State.Delivers.closing {s : State} {l : LineHdr} {b : Body} {h : AttemptHdr} {r : AttemptRecord}
    (d : s.Delivers l b) (jury : s.loader.roles.jury = true) (closing : s.standings.round.state = .closing)
    (hd : b.hdr? = some h) (k : s.attempt? h.attempt = some r)
    (moved : (r.take (s.loader.roles.start && !s.isOwn l) l b).state ≠ r.state)
    (ended : (r.take (s.loader.roles.start && !s.isOwn l) l b).state.live = false)
    (kept : ∀ x : State, RoundKept x (x.standingsFrame l b)) :
    ∃ t, Sys2Proof.Machine.exec (frameCommand l.rx b) s = .next t ∧
    (s.OthersLive h.attempt s.standings.round.number →
      t.standings.round = s.standings.round ∧ t.standings.roundCopies = s.standings.roundCopies) ∧
    (¬s.OthersLive h.attempt s.standings.round.number → ∃ x : State, x.standings = s.standings ∧
      s.RoundCloses t (x.standingsFrame l b).standings.startList.length) := by
  obtain ⟨line, event, run⟩ := d.exec_event
  obtain ⟨x, within, same, live, standings, waits⟩ := State.deliver_ends (s := { s with line := line }) d.base
    (d.filter_of_event event) jury hd k moved ended
  have y := kept x
  have liveY : (x.standingsFrame l b).liveInRound s.standings.round.number = true ↔
      s.OthersLive h.attempt s.standings.round.number := by
    have table : (x.standingsFrame l b).table = x.table := (congrArg State.table y.only.same :)
    refine Iff.trans ?_ (live s.standings.round.number)
    unfold State.liveInRound
    rw [table]
  obtain ⟨stands, closes⟩ := State.testClosing_within (s := { s with line := line }) jury closing
    (within.trans y.roundStays) (y.round.trans (by rw [same])) standings waits
  refine ⟨_, run, fun others => ?_, fun none => ⟨x, same, ?_⟩⟩
  · rw [stands (liveY.2 others), y.round, y.copies, same]
    exact ⟨rfl, rfl⟩
  · exact (closes (by rwa [← Bool.not_eq_true, liveY])).within ⟨rfl, rfl, rfl, rfl, rfl, rfl, event, rfl⟩ (.refl _) rfl

/-- A CLOSING round at the VOID of an attempt, and at the RESULT that publishes one (R163, R164). -/
theorem State.Delivers.closing_void_result {s : State} {l : LineHdr} {b : Body} {h : AttemptHdr} {r : AttemptRecord}
    (d : s.Delivers l b) (jury : s.loader.roles.jury = true) (closing : s.standings.round.state = .closing)
    (k : s.attempt? h.attempt = some r) (nv : r.state ≠ .void)
    (ends : (∃ why, b = .void h why) ∨ (∃ p, b = .result p ∧ p.hdr = h) ∧ r.state ≠ .published ∧
      ¬(s.loader.roles.start = true ∧ l.sender ≠ s.loader.station ∧ (r.state = .called ∨ r.state = .green))) :
    ∃ t, Sys2Proof.Machine.exec (frameCommand l.rx b) s = .next t ∧
      (s.OthersLive h.attempt s.standings.round.number →
        t.standings.round = s.standings.round ∧ t.standings.roundCopies = s.standings.roundCopies) ∧
      (¬s.OthersLive h.attempt s.standings.round.number →
        ∃ discarded, s.RoundCloses t discarded ∧
          ((∀ why, b ≠ .void h why) → discarded = s.standings.startList.length)) := by
  rcases ends with ⟨why, rfl⟩ | ⟨⟨p, rfl, rfl⟩, np, free⟩
  · have voided := fun bound => congrArg AttemptRecord.state (AttemptRecord.take_void nv bound l h why)
    obtain ⟨t, run, stands, closes⟩ := d.closing jury closing rfl k (by rw [voided]; exact nv.symm)
      (by rw [voided]; rfl) fun x => .void x l h why
    refine ⟨t, run, stands, fun none => ?_⟩
    obtain ⟨x, -, close⟩ := closes none
    exact ⟨_, close, fun other => absurd rfl (other why)⟩
  · have published : (r.take (s.loader.roles.start && !s.isOwn l) l (.result p)).state = .published := by
      rw [← s.held_iff] at free
      rw [AttemptRecord.take_result_fields nv, if_neg free]
      split <;> rfl
    obtain ⟨t, run, stands, closes⟩ := d.closing jury closing rfl k (by rw [published]; exact np.symm)
      (by rw [published]; rfl) fun x => .result x l p
    refine ⟨t, run, stands, fun none => ?_⟩
    obtain ⟨x, same, close⟩ := closes none
    exact ⟨_, close, fun _ => by rw [x.standingsFrame_result_startList, same]⟩

/-! ## The lapse of a call in a CLOSING round -/

/-- The test of a CLOSING round leaves the pending call and the results. -/
theorem State.testClosing_keeps (s : State) : s.testClosing.standings.pendingCall = s.standings.pendingCall ∧
    s.testClosing.standings.results = s.standings.results := by
  unfold State.testClosing
  split
  · rw [s.closeNow_eq]
    split
    · rw [State.openNext_standings, s.roundEnd_standings]
      exact ⟨rfl, rfl⟩
    · rw [s.roundEnd_standings]
      exact ⟨rfl, rfl⟩
  · exact ⟨rfl, rfl⟩

/-- The local void of a record that is not VOID: it changes the table, and makes one change of it. -/
theorem State.voidLocally_known {s : State} {n : Nat} {r : AttemptRecord} (k : s.attempt? n = some r) (nv : r.state ≠ .void) :
    OnlyTable s (s.voidLocally n).1 ∧
    (s.voidLocally n).1.table = (s.setRecord n fun _ => { r with state := .void }).table ∧ (s.voidLocally n).2 ≠ [] := by
  unfold State.voidLocally
  rw [k]
  dsimp only
  rw [if_neg nv]
  exact ⟨.raiseChanges (.withTable (.refl blockTable s) _) _, State.raiseChanges_table _ _, List.cons_ne_nil _ _⟩

/-- The lapsed call takes its attempt, which may end a CLOSING round (R53, R158, R163). -/
theorem State.callLapsed_closing {s : State} {p : PendingCall} {r : AttemptRecord} (jury : s.loader.roles.jury = true)
    (closing : s.standings.round.state = .closing) (pending : s.standings.pendingCall = some p)
    (due : reached s.clock p.lapseAt = true) (k : s.attempt? p.attempt = some r) (nv : r.state ≠ .void) :
    ∃ t, exec .callLapsed s = .next t ∧ t.standings.pendingCall = none ∧
      t.standings.results = s.standings.results ∧
      (s.OthersLive p.attempt s.standings.round.number → t.standings = { s.standings with pendingCall := none }) ∧
      (¬s.OthersLive p.attempt s.standings.round.number → s.RoundCloses t s.standings.startList.length) := by
  obtain ⟨u, eu⟩ : ∃ u, u = s.modStandings fun t => { t with pendingCall := none } := ⟨_, rfl⟩
  have standings : u.standings = { s.standings with pendingCall := none } := by rw [eu]; rfl
  obtain ⟨only, table, changed⟩ := State.voidLocally_known (s := u) (n := p.attempt) (by rw [eu]; exact k) nv
  have run : exec .callLapsed s = .next (((u.voidLocally p.attempt).1.handChanges (noLine (u.voidLocally p.attempt).1.clock)
      false (u.voidLocally p.attempt).2).raise (.callLapsed p.attempt p.bib)) := by
    have lapsed : s.lapsed = some p := by simp [State.lapsed, pending, due]
    show Sys2Proof.Machine.execCallLapsed s = _
    unfold execCallLapsed
    rw [lapsed, eu]
  obtain ⟨x, found, after, waits⟩ := StandingsStay.handChanges (u.voidLocally p.attempt).1
    (noLine (u.voidLocally p.attempt).1.clock) false changed
  have before : RoundStays s x := by
    refine .trans ?_ ((RoundStays.only only).trans found.roundStays)
    rw [eu]
    exact ⟨rfl, rfl, rfl, rfl, rfl, rfl, rfl, rfl⟩
  have same : x.standings = { s.standings with pendingCall := none } :=
    found.standings.trans ((congrArg State.standings only.same :).trans standings)
  have live : x.liveInRound s.standings.round.number = true ↔ s.OthersLive p.attempt s.standings.round.number := by
    have written : (u.voidLocally p.attempt).1.liveInRound s.standings.round.number =
        (u.setRecord p.attempt fun _ => { r with state := .void }).liveInRound s.standings.round.number := by
      unfold State.liveInRound
      rw [table]
    rw [found.records.liveInRound, written, State.setRecord_liveInRound u rfl, eu]
    rfl
  rw [State.ifRole, if_pos (by rw [before.loader]; exact jury)] at after waits
  obtain ⟨call, results⟩ := x.testClosing_keeps
  obtain ⟨stands, closes⟩ := State.testClosing_within jury closing before (by rw [same]) after waits
  generalize (u.voidLocally p.attempt).1.handChanges (noLine (u.voidLocally p.attempt).1.clock)
    false (u.voidLocally p.attempt).2 = v at *
  refine ⟨_, run, ?_, ?_, fun others => ?_, fun none => ?_⟩
  · exact (congrArg StandingsState.pendingCall after).trans (call.trans (by rw [same]))
  · exact (congrArg StandingsState.results after).trans (results.trans (by rw [same]))
  · exact (stands (live.2 others)).trans same
  · have close := closes (by rwa [← Bool.not_eq_true, live])
    rw [same] at close
    exact close.within (.refl s) ((WaitingStays.refl v).raise _) rfl

/-! ## O49 -/

/-- Settles O49: CLOSE_ROUND by the test of its round, and a CLOSING round at the end of an attempt by what the standings
unit finds there. -/
theorem closeRound : Obligations.CloseRound := by
  refine ⟨fun s h no => h.closeRound_refused no, fun s h opened => ⟨fun live => ?_, fun ended n closed en ec => ?_⟩,
    fun s l b h r d jury closing k nv ends => ?_, fun s p r jury closing pending due k nv => ?_, fun es round q bib => ⟨nextStartList_sublist es round q, mem_nextStartList es round q bib⟩⟩
  · refine ⟨_, h.closeRound_stands opened ((s.liveInRound_iff _).2 live), ?_, ?_⟩
    · refine State.boardListChange_follows (v := s.roundClosing) rfl rfl fun e => ?_
      have state : s.roundClosing.standings.round.state = .closing := rfl
      rw [e, opened] at state
      cases state
    · exact s.roundClosing.closeRound_board s.standings
  · refine h.closeRound_at_once opened ?_ en ec
    rw [← Bool.not_eq_true, s.liveInRound_iff]
    rintro ⟨q, mem, round, np, nv⟩
    exact (ended q mem round).elim np nv
  · obtain ⟨t, run, stands, closes⟩ := d.closing_void_result jury closing k nv ends
    exact ⟨t, run, stands, fun ended => closes (State.not_othersLive ended)⟩
  · obtain ⟨t, run, call, results, stands, closes⟩ := State.callLapsed_closing jury closing pending due k nv
    exact ⟨t, run, call, results, stands, fun ended => closes (State.not_othersLive ended)⟩

end Sys2Proof.Machine
end

section
/-! What every step keeps of the start: none open while a hold stands, no cause twice in the hold list, and a current
attempt exactly outside IDLE (R59, R62, R64). -/

namespace Sys2Proof.Machine

open Sys2Proof

/-! ## The hold list and the phase after an evaluation of a cause -/

/-- Replacing source and detail keeps the causes of the list. -/
theorem replaceHold_causes (c : HoldCause) (a b : Nat) (hs : List Hold) :
    (replaceHold c a b hs).map (·.cause) = hs.map (·.cause) := by
  rw [replaceHold, List.map_map]
  refine List.map_congr_left fun x _ => ?_
  simp only [Function.comp_apply]
  split <;> rfl

/-- An evaluation of a cause puts none twice into the list (R59). -/
theorem State.holdWhile_nodup {s : State} (h : (s.start.holds.map (·.cause)).Nodup) (c : HoldCause)
    (why : Option (Nat × Nat)) : ((s.holdWhile c why).start.holds.map (·.cause)).Nodup := by
  unfold State.holdWhile
  split
  · rename_i a b
    rw [State.raiseHold_holds]
    split
    · rwa [replaceHold_causes]
    · rename_i n
      have fresh := (s.start.not_standing_iff c).1 (by simpa using n)
      rw [((appendHold_perm ⟨c, s.clock, a, b⟩ s.start.holds).map (·.cause)).nodup_iff, List.map_cons, List.nodup_cons]
      exact ⟨by simpa using fresh, h⟩
  · rw [State.releaseHold_holds]
    exact h.sublist (List.filter_sublist.map _)

/-- A cause taken out of the list leaves all but the list. -/
theorem State.removeHold_start (s : State) (c : HoldCause) : (s.removeHold c).start =
    { s.start with holds := s.start.holds.filter (fun x => x.cause ≠ c) } := by
  have holds := s.removeHold_holds c
  unfold State.removeHold at holds ⊢
  split
  · rename_i e; rw [e] at holds; rw [← holds]
  · rename_i e; rw [e] at holds; simpa using holds

/-! ## A change that keeps the start safe -/

/-- From `s` to `t` the hold list and the cycle stay sound. -/
structure SafeStart (s t : State) : Prop where
  holds : s.HoldsSound → t.HoldsSound
  cycle : s.CycleSound → t.CycleSound

namespace SafeStart

variable {s t u : State}

theorem trans (h : SafeStart s t) (k : SafeStart t u) : SafeStart s u := ⟨k.holds ∘ h.holds, k.cycle ∘ h.cycle⟩

/-- A change of the phase that neither opens a start while a cause stands nor begins or ends a cycle. -/
theorem phase (h : SafeStart s t) (holds : u.start.holds = t.start.holds) (current : u.start.current = t.start.current)
    (idle : u.start.phase = .idle ↔ t.start.phase = .idle) (opens : u.start.phase = .amber ∨ u.start.phase = .green →
      t.start.phase = .amber ∨ t.start.phase = .green ∨ t.start.holds = []) : SafeStart s u := by
  refine h.trans ⟨fun ⟨nodup, closed⟩ => ⟨holds ▸ nodup, fun p => ?_⟩, fun k => ?_⟩
  · rw [holds]
    rcases opens p with p | p | e
    · exact closed (.inl p)
    · exact closed (.inr p)
    · exact e
  · exact idle.trans (current ▸ k)

theorem of_start (h : t.start = s.start) : SafeStart s t := by
  refine ⟨fun k => ?_, fun k => ?_⟩
  · unfold State.HoldsSound; rw [h]; exact k
  · unfold State.CycleSound; rw [h]; exact k

theorem refl (s : State) : SafeStart s s := of_start rfl

/-- A change outside the sequencer. -/
theorem beside (h : SafeStart s t) (e : u.start = t.start) : SafeStart s u := h.trans (of_start e)

/-- A change of a block but the sequencer. -/
theorem only {R : State → State → State} (h : Only R s t)
    (w : ∀ u v, (R u v).start = v.start := by exact fun _ _ => rfl) : SafeStart s t :=
  of_start ((w s t).symm.trans (congrArg State.start h.same))

theorem ite {c : Prop} [Decidable c] (h : SafeStart s t) (k : SafeStart s u) : SafeStart s (if c then t else u) := by
  split <;> assumption

theorem ifRole (h : SafeStart s t) (role : RoleSet → Bool) {act : State → State} (k : ∀ t, SafeStart t (act t)) :
    SafeStart s (t.ifRole role act) := .ite (h.trans (k t)) h

theorem raise (h : SafeStart s t) (n : NoticeBody) : SafeStart s (t.raise n) := h.trans (of_start (by simp))

theorem report (h : SafeStart s t) (k : FaultKind) (d : Nat) : SafeStart s (t.report k d) :=
  h.trans (of_start (by simp))

theorem offer (h : SafeStart s t) (b : Body) (e : Option Tick) : SafeStart s (t.offer b e) := h.trans (of_start (by simp))

theorem answer (h : SafeStart s t) (k : Nat) (c : ReplyCode) : SafeStart s (t.answer k c) := h.trans (of_start rfl)

theorem reoffer (h : SafeStart s t) (k : Option KeptFrame) : SafeStart s (t.reoffer k) :=
  h.trans (of_start (t.reoffer_start k))

/-- A change of the sequencer outside the hold list and the cycle. -/
theorem modStart (h : SafeStart s t) {f : StartState → StartState} (holds : (f t.start).holds = t.start.holds)
    (current : (f t.start).current = t.start.current) (phase : (f t.start).phase = t.start.phase) :
    SafeStart s (t.modStart f) :=
  h.phase holds current (iff_of_eq (congrArg (· = Phase.idle) phase)) fun p =>
    (show t.start.phase = .amber ∨ t.start.phase = .green from phase ▸ p).imp_right .inl

/-! ### Phases and the hold list (R59, R62 to R64) -/

theorem enterRed (h : SafeStart s t) (running : t.start.phase ≠ .idle) : SafeStart s t.enterRed :=
  h.phase (by simp) (congrArg StartState.current t.enterRed_besides :) (by simp [running]) (by simp)

theorem openStart (h : SafeStart s t) : SafeStart s t.openStart := by
  refine h.phase (by simp) (congrArg StartState.current t.openStart_besides :) ?_ ?_ <;> rw [t.openStart_phase]
  · split
    · rename_i k; simp [k.2.1]
    · rfl
  · split
    · rename_i k; exact fun _ => .inr (.inr k.1)
    · exact fun p => p.imp_right .inl

theorem enterGreen (h : SafeStart s t) (amber : t.start.phase = .amber) : SafeStart s t.enterGreen := by
  refine h.phase ?_ ?_ ?_ fun _ => .inl amber
  · simp [State.enterGreen]
  · exact (congrArg StartState.current (State.offerPhase_besides _) :)
  · simp [State.enterGreen, amber]

theorem enterGone (h : SafeStart s t) (running : t.start.phase ≠ .idle) (k : AttemptHdr) (held : Bool) (e : Tick) :
    SafeStart s (t.enterGone k held e) := by
  refine h.phase ?_ ?_ ?_ ?_
  · simp [State.enterGone]
  · exact (congrArg StartState.current (State.offerPhase_besides _) :)
  · simp [State.enterGone, running]
  · simp [State.enterGone]

/-- An evaluation of a cause closes the start at a raise, and opens it where the list empties (R62, R64). -/
theorem holdWhile (h : SafeStart s t) (c : HoldCause) (why : Option (Nat × Nat)) : SafeStart s (t.holdWhile c why) := by
  obtain ⟨idle, current⟩ := t.holdWhile_cycle c why
  exact h.trans ⟨fun ⟨nodup, closed⟩ => ⟨State.holdWhile_nodup nodup c why, State.holdWhile_openSound closed c why⟩,
    fun k => idle.trans (current ▸ k)⟩

theorem raiseHold (h : SafeStart s t) (c : HoldCause) (a b : Nat) : SafeStart s (t.raiseHold c a b) :=
  h.holdWhile c (some (a, b))

theorem releaseHold (h : SafeStart s t) (c : HoldCause) : SafeStart s (t.releaseHold c) := h.holdWhile c none

theorem removeHold (h : SafeStart s t) (c : HoldCause) : SafeStart s (t.removeHold c) := by
  refine h.trans ?_
  constructor
  · rintro ⟨nodup, closed⟩
    unfold State.HoldsSound
    rw [t.removeHold_start c]
    exact ⟨nodup.sublist (List.filter_sublist.map _), fun p => by simp [closed p]⟩
  · intro k
    unfold State.CycleSound
    rw [t.removeHold_start c]
    exact k

/-- A cycle ends in IDLE without a current attempt (R68). -/
theorem endCycle (h : SafeStart s t) : SafeStart s t.endCycle := by
  refine h.trans ?_
  have idle : t.endCycle.start.phase = .idle := by rw [t.endCycle_start]; rfl
  constructor
  · rintro ⟨nodup, -⟩
    refine ⟨?_, fun p => by simp [idle] at p⟩
    rw [t.endCycle_start]
    exact nodup.sublist (List.filter_sublist.map _)
  · intro _
    unfold State.CycleSound
    rw [t.endCycle_start]
    exact ⟨fun _ => rfl, fun _ => rfl⟩

theorem ownVoid (h : SafeStart s t) (r : VoidReason) : SafeStart s (t.ownVoid r) := by
  unfold State.ownVoid
  split
  · exact h
  · exact ((h.modStart rfl rfl rfl).offer _ _).endCycle

theorem evalRosterHolds (h : SafeStart s t) : SafeStart s t.evalRosterHolds := (h.holdWhile _ _).holdWhile _ _

theorem recountBacklog (h : SafeStart s t) : SafeStart s t.recountBacklog :=
  .ite ((h.modStart rfl rfl rfl).holdWhile _ _) h

theorem evalWind (h : SafeStart s t) : SafeStart s t.evalWind := by
  unfold State.evalWind
  split
  · exact (h.modStart rfl rfl rfl).raiseHold _ _ _
  · exact .ite (.ite (h.releaseHold _) (.ite h (h.modStart rfl rfl rfl))) h

/-! ### The coach request, leaves and frames (R58, R61 to R70, R75, R76) -/

theorem pressCoach (h : SafeStart s t) (sel : BitVec 4) : SafeStart s (t.pressCoach sel) := by
  have refused : SafeStart s (t.refuseCoach (selectorSteps sel)) := (h.modStart rfl rfl rfl).raise _
  unfold State.pressCoach
  dsimp only
  split
  · exact refused
  · exact .ite (((h.modStart rfl rfl rfl).raiseHold _ _ _).offer _ _) refused

theorem applyGate (h : SafeStart s t) (g : Nat) : SafeStart s (t.applyGate g) := by
  unfold State.applyGate
  refine .ite h ?_
  dsimp only
  split
  · rename_i amber
    have running : t.start.phase ≠ .idle := by
      have : t.start.phase = .amber := amber
      simp [this]
    exact ((h.modStart rfl rfl rfl).modStart rfl rfl rfl).enterRed running
  · exact h.modStart rfl rfl rfl

theorem takeGate (h : SafeStart s t) (k : AttemptHdr) (g : Nat) (ack : Bool) : SafeStart s (t.takeGate k g ack) :=
  .ite (.ite (.ite ((h.modStart rfl rfl rfl).releaseHold _) h)
    ((((h.modStart rfl rfl rfl).offer _ _).applyGate g).releaseHold _)) (h.applyGate g)

/-- A CALL begins a cycle in RED, with its attempt as the current one (R61). -/
theorem startCall (h : SafeStart s t) (k : AttemptHdr) (g : Nat) : SafeStart s (t.startCall k g) := by
  refine .ite (h.trans ⟨?_, ?_⟩) (h.raise _)
  · rintro ⟨nodup, -⟩
    exact ⟨by rw [State.enterRed_holds]; exact nodup, by simp⟩
  · intro _
    refine iff_of_false (by simp) ?_
    have current := congrArg StartState.current (State.enterRed_besides (t.modStart (fun st => { st with
      current := some k, juryGate := g, gate := g, goMark := false, greenCount := 0, coach := .none, requested := none
      keptVoid := none })))
    exact fun n => Option.some_ne_none k (current.symm.trans n)

theorem startGo (h : SafeStart s t) (k : AttemptHdr) : SafeStart s (t.startGo k) :=
  .ite (h.raise _) (.ite (h.modStart rfl rfl rfl).openStart h)

theorem startVoid (h : SafeStart s t) (l : LineHdr) (k : AttemptHdr) (b : Body) : SafeStart s (t.startVoid l k b) := by
  have taken : SafeStart s (if t.isOwn l then
      t.modStart (fun st => { st with keptVoid := dropDelivered st.keptVoid b }) else t) :=
    .ite (h.modStart rfl rfl rfl) h
  exact .ite (.ite taken.endCycle taken) h

theorem startOwnPhase (h : SafeStart s t) (b : Body) : SafeStart s (t.startOwnPhase b) := by
  unfold State.startOwnPhase
  dsimp only
  split
  · exact (h.modStart rfl rfl rfl).reoffer _
  · exact h.modStart rfl rfl rfl

theorem startFrame (h : SafeStart s t) (l : LineHdr) (b : Body) : SafeStart s (t.startFrame l b) := by
  have jury : ∀ act : State → State, SafeStart s (act t) → SafeStart s (t.juryOnly l b act) :=
    fun _ k => .ite k (h.raise _)
  have landed : ∀ k, SafeStart s (t.startLanded k) := fun k => .ite h.endCycle h
  cases b with
  | call k g => exact jury (·.startCall k g) (h.startCall k g)
  | go k => exact jury (·.startGo k) (h.startGo k)
  | gate k g ack => exact jury (·.startGate k g ack) (.ite (h.takeGate _ g ack) (h.raise _))
  | hold set => exact jury (·.startHold l set) (.ite (h.raiseHold _ _ _) (h.releaseHold _))
  | corridor m x y n f => exact .ite (h.modStart rfl rfl rfl).evalWind (h.raise _)
  | void k why => exact h.startVoid l k _
  | landing k d q nt lc => exact landed k
  | mastMean k m mean n part => exact landed k
  | result r => exact landed r.hdr
  | phase k p g sec n => exact .ite (h.startOwnPhase _) h
  | leave k held => exact .ite (h.modStart rfl rfl rfl) h
  | status p => exact h.trans (of_start (t.startFrame_status l p))
  | event n m r =>
    exact modStart (f := fun st => { st with keptVoid := none }) (ite (c := t.start.phase = .idle) h h.endCycle) rfl rfl rfl
  | _ => exact h

theorem startTake (h : SafeStart s t) (l : LineHdr) (b : Body) : SafeStart s (t.startTake l b) :=
  .ite (h.startFrame l b).recountBacklog (h.recountBacklog.startFrame l b)

/-- A break begins a leave in a cycle that has not ended, or ends it (R66). -/
theorem takeLeave (h : SafeStart s t) (e : Tick) : SafeStart s (t.takeLeave e) := by
  unfold State.takeLeave
  refine .ite (h.raise _) ?_
  split
  · rename_i p _; exact h.enterGone (by simp [p]) _ _ _
  · rename_i p _; exact .ite (h.enterGone (by simp [p]) _ _ _) (h.ownVoid _)
  · exact h.ownVoid _
  · exact h.raise _
  · exact h.raise _

/-- Entry into RUN is in IDLE without a current attempt and with an empty list (R81). -/
theorem startEntry (h : SafeStart s t) (broken : Bool) : SafeStart s (t.startEntry broken) := by
  have entry : SafeStart t (t.modStart fun _ => { barrier := startBarrier broken t.clock }) :=
    ⟨fun _ => ⟨.nil, fun _ => rfl⟩, fun _ => ⟨fun _ => rfl, fun _ => rfl⟩⟩
  exact (h.trans entry).evalWind.evalRosterHolds.holdWhile _ _

theorem foldl {α : Type} {f : State → α → State} (step : ∀ u a, SafeStart u (f u a)) (as : List α) :
    ∀ s, SafeStart s (as.foldl f s) := by
  induction as with
  | nil => exact refl
  | cons a as ih => exact fun s => (step s a).trans (ih _)

theorem startRestart (h : SafeStart s t) : SafeStart s t.startRestart := by
  have removed := h.endCycle.trans (foldl (f := fun s c => s.removeHold c) (fun u c => (refl u).removeHold c)
    (t.endCycle.start.holds.map (·.cause)) t.endCycle)
  have emptied : SafeStart s t.emptied := removed.modStart rfl rfl rfl
  rw [State.startRestart_eq]
  exact .ite (emptied.evalWind.evalRosterHolds.holdWhile _ _)
    ((emptied.evalWind.evalRosterHolds.holdWhile _ _).raiseHold _ _ _)

/-! ### A delivery, the load, RESTART and console commands -/

theorem rel : BlockRel SafeStart where
  refl := refl
  trans := trans
  out := only
  table _ _ := of_start rfl
  edge _ := only
  wind _ := only
  span _ := only
  landing _ := only
  scoring _ h := only h.toOnly
  standings _ := only
  board _ := only

theorem rosterTake (s : State) (l : LineHdr) (b : Body) : SafeStart s (s.rosterTake l b) := by
  obtain ⟨u, o, e⟩ := s.rosterTake_form l b
  have k : SafeStart s u := of_start (congrArg State.start o.same :)
  rw [e]
  refine .ite (k.trans ?_) k
  exact ((refl u).ifRole _ fun t => (refl t).evalRosterHolds).ifRole _ fun t => only (OnlyScoring.refl t).gatherAll.toOnly

theorem deliver (s : State) (l : LineHdr) (b : Body) : SafeStart s (s.deliver l b) :=
  (rosterTake s l b).trans (rel.deliver (fun _ _ => of_start rfl) (fun u _ => (refl u).recountBacklog) l b
    (fun u _ => (refl u).startTake l b) s)

theorem mute (s : State) (kind : Nat) : SafeStart s (s.mute kind) := by
  have quiet : SafeStart s (s.ifRole (·.start) (·.startMuted)) :=
    (refl s).ifRole _ fun t => (refl t).endCycle.modStart rfl rfl rfl
  refine quiet.beside ?_
  unfold State.mute
  simp

theorem receive (s : State) (h : RxHdr) (b : Body) : SafeStart s (s.receive h b) := by
  have line : ∀ v, SafeStart s { s with line := v } := fun _ => of_start rfl
  have delivered : ∀ v l, SafeStart s (({ s with line := v } : State).deliver l b) := fun v _ => (line v).trans (deliver _ _ _)
  unfold State.receive
  refine .ite (refl s) (.ite (line _) ?_)
  split
  · exact .ite (.ite (delivered _ _) (line _)) (refl s)
  · refine .ite (line _) (.ite ?_ (line _))
    exact .ite (.ite (line _) ((line (s.line.heard b)).trans (mute _ _))) (delivered { s.line.heard b with yieldMark := false } _)

theorem startBlocks (s : State) (broken : BarrierInputs) : SafeStart s (s.startBlocks broken) := by
  unfold State.startBlocks
  refine ((((((refl s).ifRole _ fun t => ?_).ifRole _ fun t => ?_).ifRole _ fun t => ?_).ifRole _ fun t => ?_).ifRole _
    fun t => ?_).ifRole _ fun t => ?_
  · exact (refl t).startEntry _
  · exact of_start rfl
  · exact of_start rfl
  · exact of_start rfl
  · exact of_start rfl
  · exact only (Only.refl blockBoard t).boardEntry

theorem firstStatus (h : SafeStart s t) : SafeStart s t.firstStatus := h.beside (by simp [State.firstStatus])

theorem enterInvalid (s : State) (detail : Nat) (digest : Word16) : SafeStart s (s.enterInvalid detail digest) :=
  firstStatus (of_start (by simp))

theorem enterRun (s : State) (digest : Word16) (k : Constants) (broken : BarrierInputs) :
    SafeStart s (s.enterRun digest k broken) := by
  have blocks : SafeStart s (({ s with loader := s.loader.enterRun digest k } : State).startBlocks broken) :=
    trans (t := { s with loader := s.loader.enterRun digest k }) (of_start rfl) (startBlocks _ _)
  exact firstStatus (blocks.ifRole (·.mast) fun _ => of_start rfl)

theorem handChanges (h : SafeStart s t) (l : LineHdr) (byLanding : Bool) (cs : List Change) :
    SafeStart s (t.handChanges l byLanding cs) := rel.handChanges (fun u _ => (refl u).recountBacklog) h l byLanding cs

theorem restart (s : State) : SafeStart s s.restart := by
  have k1 : SafeStart s s.emptyConsole.standingsRestart :=
    of_start (congrArg State.start (Only.refl blockStandings s.emptyConsole).standingsRestart.same :)
  have cleared : SafeStart s { s.emptyConsole.standingsRestart with table := [] } := k1.beside rfl
  have k2 : SafeStart s s.emptyConsole.standingsRestart.emptyTable :=
    (cleared.ifRole (·.start) fun t => (refl t).startRestart).handChanges _ _ _
  have k3 := k2.ifRole (·.mast) fun t => only (WindStep.windRestart t).toOnly
  have k4 := (k3.trans (only (OnlyScoring.refl _).scoringRestart.toOnly)).ifRole (·.board)
    fun t => only (Only.refl blockBoard t).boardRestart
  exact k4.beside rfl

/-- A console command keeps the start safe where its act does. -/
theorem command (s : State) (kind : Nat) (ok : Bool) (role : RoleSet → Bool) {act : State → State}
    (k : ∀ t, SafeStart t (act t)) : SafeStart s (s.command kind ok role act) := by
  rcases s.command_cases kind ok role act with
    ⟨-, x⟩ | ⟨-, -, x⟩ | ⟨-, -, ⟨-, x⟩ | ⟨-, ⟨r, x⟩ | ⟨-, -, x⟩⟩⟩ <;> rw [x]
  · exact refl s
  · exact of_start rfl
  · exact of_start rfl
  · exact of_start rfl
  · exact trans (t := s.clearAssembler) (of_start rfl) (k s.clearAssembler)

/-- A jury command behind the EVENT test. -/
theorem juryCommand (s : State) (kind : Nat) (ok : Bool) {act : State → State} (k : ∀ t, SafeStart t (act t)) :
    SafeStart s (s.command kind ok (·.jury) (fun s => s.eventTest kind act)) :=
  command s kind ok _ fun t => .ite ((refl t).answer _ _) (k t)

/-! ### Commands of several cases -/

theorem eepromReadEnd (s : State) (bytes : List Byte) (broken : BarrierInputs)
    (h : execEepromReadEnd bytes broken s = .next t) : SafeStart s t := by
  cases h
  refine .ite ?_ (refl s)
  have sent := of_start (s := s) (t := s.sendOnEeprom (eepromSends s.loader.station bytes)) rfl
  dsimp only
  split
  · exact of_start rfl
  · exact sent.trans (enterInvalid _ _ _)
  · exact sent.trans (enterRun _ _ _ _)

theorem abandonTx (s : State) (k : FaultKind) : SafeStart s (s.abandonTx k) := by
  unfold State.abandonTx
  split <;> exact of_start rfl

theorem stationSilent (s : State) (n : Nat) (h : execStationSilent n s = .next t) : SafeStart s t := by
  cases h
  refine .ite ?_ (refl s)
  have silent : SafeStart s (State.raise { s with roster := s.roster.set n { s.rosterAt n with presence := .silent } }
    (.stationSilent n)) := of_start rfl
  refine ((silent.ifRole (·.start) fun t => ?_).ifRole (·.jury) fun t => ?_).ifRole (·.jury) fun t => ?_
  · exact (refl t).evalRosterHolds
  · exact only ((Only.refl blockLanding t).landingSilent n)
  · exact only (OnlyScoring.refl t).gatherAll.toOnly

theorem corridorEntryAged (s : State) (mast : Nat) (h : execCorridorEntryAged mast s = .next t) : SafeStart s t := by
  cases h
  split
  · exact refl s
  · have aged := (refl s).modStart (f := fun st => { st with corridor := st.corridor.map (fun f =>
      if f.mast == mast && f.due s.clock then { f with aged := true } else f) }) rfl rfl rfl
    exact .ite aged aged.evalWind

theorem lampCheck (s : State) (faulty : LampSet) (h : execLampCheck faulty s = .next t) : SafeStart s t := by
  cases h
  have k := SafeStart.refl
  exact command _ _ _ _ fun u => .ite ((k u).answer _ _)
    (.ite ((((k u).modStart rfl rfl rfl).releaseHold _).answer _ _) ((k u).answer _ _))

theorem pollTime (s : State) (low : Bool) (h : execPollTime low s = .next t) : SafeStart s t := by
  cases h
  have k := (Only.refl blockWind s).modWind
    (fun w => { w with nextPoll := w.nextPoll.map (· + pollPeriod), dataLow := low })
  exact .ite (.ite (of_start rfl) (.ite (.ite (only (k.detectHang _).failedPoll)
    (only (k.beginTransaction _ _))) (only k.failedPoll))) (refl s)

theorem clockStretchTimeout (s : State) (read : List Byte) (h : execClockStretchTimeout read s = .next t) :
    SafeStart s t := by
  cases h
  have o := Only.refl blockWind s
  split
  · exact only (o.detectHang _).failedPoll
  · exact only (((o.modWind _).detectHang _).answerTransfer _)
  · exact refl s

theorem releaseBurstEnd (s : State) (high : Bool) (h : execReleaseBurstEnd high s = .next t) : SafeStart s t := by
  cases h
  split
  · have k := ((Only.refl blockWind s).modWind (fun w => { w with dataLow := !high })).setBus
      (if high then .free else .hung)
    exact .ite (only ((k.modWind _).reply _)) (only k.carryOut)
  · exact refl s

theorem sensorTransferEnd (s : State) (o : TransferOutcome) (read : List Byte)
    (h : execSensorTransferEnd o read s = .next t) : SafeStart s t := by
  cases h
  split
  · exact .ite (only ((((Only.refl blockWind s).modWind _).endTransaction _ _).answerTransfer _)) (refl s)
  · exact refl s

theorem presence (s : State) (on : Bool) (e : Tick) (h : execPresence on e s = .next t) : SafeStart s t := by
  cases h
  have o := (Only.refl blockSpan s).headRecord e
  exact .ite (.ite (only o) (.ite (only (o.modSpan _).beginClaim) (only (o.presenceOff _)))) (refl s)

theorem viewLimitExpiry (s : State) (h : execViewLimitExpiry s = .next t) : SafeStart s t := by
  cases h
  split
  · exact refl s
  · exact .ite (only ((Only.refl blockSpan s).endClaim _ _)) (refl s)

/-- A command of the landing resolver that acts on the context of an attempt. -/
theorem onContext {n : Nat} {act : LandingContext → State} (k : ∀ c, OnlyLanding s (act c)) :
    SafeStart s (match s.context? n with
      | none => s
      | some c => act c) := by
  split
  · exact refl s
  · exact only (k _)

theorem closingEnd (s : State) (n : Nat) (h : execClosingEnd n s = .next t) : SafeStart s t := by
  cases h
  refine onContext fun c => .ite ?_ (.refl blockLanding s)
  split <;> exact (Only.refl blockLanding s).offerLanding _ _ _ _ _

theorem gatherDeadline (s : State) (n : Nat) (h : execGatherDeadline n s = .next t) : SafeStart s t := by
  cases h
  split
  · exact refl s
  · exact .ite (only ((OnlyScoring.refl s).gatherDone _ _ _).toOnly) (refl s)

theorem takeManual (s : State) (n d : Nat) : SafeStart s (s.takeManual n d) := by
  unfold State.takeManual
  refine .ite (of_start rfl) ?_
  split
  · exact of_start rfl
  · refine .ite (of_start rfl) ?_
    split
    · exact .ite (of_start rfl) (of_start rfl)
    · exact .ite (only ((OnlyScoring.refl s).scoringManual _ _).toOnly) (of_start rfl)

theorem keypadRecord (s : State) (channel : Nat) (seat mark check : Byte)
    (h : execKeypadRecord channel seat mark check s = .next t) : SafeStart s t := by
  cases h
  refine .ite (.ite ?_ (of_start rfl)) (refl s)
  unfold State.keypad
  refine .ite ?_ (of_start rfl)
  have k := (OnlyScoring.refl (s.modSeat channel (fun c => { c with gathered := [] }))).takeMark seat.toNat mark.toNat
  exact of_start (congrArg State.start k.same :)

theorem closeRound (s : State) (h : execCloseRound s = .next t) : SafeStart s t := by
  cases h
  refine juryCommand s _ _ fun u => ifRole (only (R := restoreStandings) ?_) _
    fun v => only ((Only.refl blockBoard v).boardListChange _)
  have o := Only.refl blockStandings u
  exact .ite ((((o.modStandings _).answer _ _).raise _).testClosing) (o.answer _ _)

theorem callLapsed (s : State) (h : execCallLapsed s = .next t) : SafeStart s t := by
  cases h
  split
  · exact refl s
  · rename_i p _
    have voided : ∀ u : State, SafeStart u (u.voidLocally p.attempt).1 := fun u => by
      unfold State.voidLocally
      split
      · exact refl u
      · split
        · exact refl u
        · exact rel.raiseChanges _ (of_start rfl)
    exact (((of_start rfl : SafeStart s (s.modStandings (fun t => { t with pendingCall := none }))).trans
      (voided _)).handChanges _ _ _).raise _

theorem noticeMask (s : State) (flags : Nat) (h : execNoticeMask flags s = .next t) : SafeStart s t := by
  cases h
  refine command s _ _ _ fun u => ?_
  split <;> exact of_start rfl

/-- A reset leaves IDLE and an empty list, or the sequencer as it was (R19, R20). -/
theorem reset {c : Instr} (r : c = .resetAssert ∨ ∃ n, c = .resetRelease n) (h : Machine.exec c s = .next t) :
    SafeStart s t := by
  have empty : ∀ u : State, u.start = {} → SafeStart s u := fun u e => by
    refine ⟨fun _ => ?_, fun _ => ?_⟩
    · unfold State.HoldsSound; rw [e]; exact ⟨.nil, fun _ => rfl⟩
    · unfold State.CycleSound; rw [e]; exact ⟨fun _ => rfl, fun _ => rfl⟩
  rcases r with rfl | ⟨n, rfl⟩ <;> cases h
  · exact .ite (refl s) (empty _ rfl)
  · exact .ite (empty _ rfl) (refl s)

/-- Every command keeps the start safe: those of the sequencer, the frames, a station's silence, the load and RESTART
through the rules for the hold list and the phases, and the others since they leave the sequencer. -/
theorem exec {c : Instr} (h : Machine.exec c s = .next t) : SafeStart s t := by
  have edge := Only.refl blockEdge s
  have wind := Only.refl blockWind s
  have span := Only.refl blockSpan s
  have landing := Only.refl blockLanding s
  have board := Only.refl blockBoard s
  have standings (u : State) := Only.refl blockStandings u
  have scoring (u : State) := OnlyScoring.refl u
  have all := SafeStart.refl s
  cases c with
  | resetAssert => exact reset (.inl rfl) h
  | resetRelease n => exact reset (.inr ⟨n, rfl⟩) h
  | restart => cases h; exact command s _ _ _ fun t => (restart t).answer _ _
  | callLapsed => exact callLapsed s h
  | statusFrame l p | corridorFrame l m x y u f | eventFrame l n m r | callFrame l h g | goFrame l h
  | gateFrame l h g a | holdFrame l b | roundFrame l r m g | textFrame l cs | phaseFrame l h p g sec n
  | coachFrame l h g q w | leaveFrame l h b | voidFrame l h r | speedFrame l h v | takeoffFrame l h n
  | inViewFrame l h sp | viewLostFrame l h sp r | contactFrame l h sp k p | landingFrame l h d q n c
  | mastmeanFrame l h m x u p | resultFrame l r => cases h; exact receive s l _
  | eepromReadEnd bytes broken => exact eepromReadEnd s bytes broken h
  | eepromRetryTimer => cases h; exact .ite (.ite (enterInvalid s 0 0) (of_start rfl)) all
  | txEcho => cases h; exact abandonTx s _
  | txJabber us => cases h; exact .ite (abandonTx s _) all
  | transmissionStart us => cases h; split <;> exact of_start rfl
  | lineHung us | invalidFrame bytes | rxFramingError => cases h; exact .ite (.ite (of_start rfl) (of_start rfl)) all
  | lineHungEnd us | rxCharacterGap us | statusOffer | corridorOffer | edgeBarrierClear x | edgeBarrierStuck x
  | headRecordDiscard why | keypadGapTimeout ch why | lampFlashToggle ch | lampAnswerEnd ch | panelRowPeriod
  | consoleTransmit | consoleFramingError => cases h; exact .ite (of_start rfl) (of_start rfl)
  | consoleGapTimeout gap => cases h; exact .ite all (.ite (of_start rfl) all)
  | stationSilent n => exact stationSilent s n h
  | readyTimerExpiry =>
    cases h
    refine .ite ?_ all
    split
    · rename_i amber; exact all.enterGreen amber
    · exact all.modStart rfl rfl rfl
  | windowTimerExpiry =>
    cases h
    exact .ite (.ite ((all.modStart rfl rfl rfl).ownVoid _) (all.modStart rfl rfl rfl)) all
  | graceTimerExpiry | countdownTick | leaveBarrierClear | rejectLampEnd =>
    cases h; exact .ite (all.modStart rfl rfl rfl) all
  | leaveBarrierStuck => cases h; exact .ite ((all.modStart rfl rfl rfl).report _ _) all
  | settleTimerExpiry => cases h; exact .ite ((all.modStart rfl rfl rfl).releaseHold _) all
  | corridorEntryAged m => exact corridorEntryAged s m h
  | leaveBreak => cases h; exact .ite ((all.modStart rfl rfl rfl).takeLeave _) all
  | trackHold => cases h; exact .ite (all.raiseHold _ _ _) all
  | trackRelease => cases h; exact .ite (all.releaseHold _) all
  | coachRequestPress sel => cases h; exact .ite (all.pressCoach sel) all
  | lampFail lamp => cases h; exact .ite (((all.modStart rfl rfl rfl).report _ _).raiseHold _ _ _) all
  | lampCheck faulty => exact lampCheck s faulty h
  | barrierABreak => cases h; exact only (edge.edgeBreak _ fun h r e u => h.breakA r e u)
  | barrierBBreak => cases h; exact only (edge.edgeBreak _ fun h r e u => h.breakB r e u)
  | barrierTBreak => cases h; exact only (edge.edgeBreak _ fun h r e _ => h.breakT r e)
  | pollTime low => exact pollTime s low h
  | pollComplete r => cases h; exact .ite (only ((wind.endTransaction _ _).pollOutcome _).carryOut) all
  | clockStretchTimeout read => exact clockStretchTimeout s read h
  | releaseBurstEnd high => exact releaseBurstEnd s high h
  | sensorMode m | sensorRelease =>
    cases h; exact command s _ _ _ fun t => only ((Only.refl blockWind t).takeOp _ _)
  | sensorTransfer a n w low =>
    cases h; exact command s _ _ _ fun t => only (((Only.refl blockWind t).modWind _).takeOp _ _)
  | sensorTransferEnd o read => exact sensorTransferEnd s o read h
  | heartbeat w => cases h; exact .ite (only (span.headRecord w)) all
  | presence on w => exact presence s on w h
  | headContact k o w => cases h; exact .ite (only ((span.headRecord w).spanContact k o w)) all
  | headLinkSilent => cases h; exact .ite (only ((((span.modSpan _).report _ _).raise _).presenceOff _)) all
  | viewLimitExpiry => exact viewLimitExpiry s h
  | inrunTimerExpiry n => cases h; exact onContext fun c => landing.takeInrun c
  | flightTimerExpiry n => cases h; exact onContext fun c => landing.takeFlight c
  | claimLimitReached n sp => cases h; exact onContext fun c => .ite (landing.setContext _) landing
  | resolutionTime n => cases h; exact onContext fun c => landing.takeResolution c
  | closingEnd n => exact closingEnd s n h
  | gatherDeadline n => exact gatherDeadline s n h
  | manualDistance n d => cases h; exact juryCommand s _ _ fun t => takeManual t n d
  | keypadRecord ch seat mark check => exact keypadRecord s ch seat mark check h
  | forceScore n => cases h; exact juryCommand s _ _ fun t => only ((scoring t).takeForce n).toOnly
  | correctDistance n d => cases h; exact juryCommand s _ _ fun t => only ((scoring t).takeCorrectDistance n d).toOnly
  | correctMark n seat m => cases h; exact juryCommand s _ _ fun t => only ((scoring t).takeCorrectMark n seat m).toOnly
  | void n r => cases h; exact juryCommand s _ _ fun t => only ((scoring t).takeVoid n r).toOnly
  | newEvent n m r => cases h; exact command s _ _ _ fun t => only ((standings t).takeNewEvent n m r)
  | startList bs => cases h; exact juryCommand s _ _ fun t => only ((standings t).takeStartList bs)
  | dns bib =>
    cases h
    exact juryCommand s _ _ fun t => .ite (of_start rfl) (.ite (of_start rfl) (.ite (of_start rfl) (of_start rfl)))
  | call g f => cases h; exact juryCommand s _ _ fun t => only ((standings t).takeCall g f)
  | go n =>
    cases h
    exact juryCommand s _ _ fun t => only ((standings t).forCalled _ _ fun _ => ((standings t).offer _ _).answer _ _)
  | setGate n g =>
    cases h
    exact juryCommand s _ _ fun t => .ite (of_start rfl) (only ((standings t).forCalled _ _ fun _ =>
      ((standings t).offer _ _).answer _ _))
  | coachAck n =>
    cases h
    exact juryCommand s _ _ fun t => only ((standings t).forCalled _ _ fun _ =>
      .ite (((standings t).offer _ _).answer _ _) ((standings t).answer _ _))
  | hold | release => cases h; exact juryCommand s _ _ fun t => ((refl t).offer _ _).answer _ _
  | closeRound => exact closeRound s h
  | text cs => cases h; exact juryCommand s _ _ fun t => .ite (of_start rfl) (of_start rfl)
  | pageTimeEnd => cases h; exact .ite (only board.endPage) all
  | liveSecondsTick => cases h; exact .ite (only (board.recompose _)) all
  | statusQuery | clearFault => cases h; exact command s _ _ _ fun t => of_start rfl
  | noticeMask flags => exact noticeMask s flags h
  | unknownCommand k p => cases h; exact .ite (.ite all (of_start rfl)) (.ite all (command s _ _ _ fun t => refl t))

/-- Time that passes leaves the sequencer. -/
theorem tick (s : State) : SafeStart s s.tick := by
  unfold State.tick
  split
  · unfold State.micro
    refine .ite (refl s) (ifRole ?_ _ fun t => of_start rfl)
    exact of_start (by dsimp only; split <;> rfl)
  · exact of_start rfl

end SafeStart

/-- Settles O57: a command keeps the start safe (`SafeStart.exec`), and so does the passing of time. -/
theorem everyStepKeepsTheStartSafe : Obligations.EveryStepKeepsTheStartSafe := by
  intro s t h
  have k : SafeStart s t := by
    unfold Machine.step at h
    split at h
    · cases h; exact .tick s
    · rename_i c rest _
      exact SafeStart.trans (t := { s with pending := rest }) (.of_start rfl) (.exec h)
  rintro ⟨holds, cycle⟩
  exact ⟨k.holds holds, k.cycle cycle⟩

end Sys2Proof.Machine
end

section
/-! The barriers of START and EDGE: the unbroken level, and 2 s broken (R79, R83). -/

namespace Sys2Proof.Machine

open Sys2Proof

/-- A barrier set shows what it was set to. -/
@[simp] theorem EdgeState.setBarrier_same (e : EdgeState) (x : EdgeBarrier) (v : BarrierState) :
    (e.setBarrier x v).barrier x = v := by cases x <;> rfl

/-- The other barriers stay. -/
theorem EdgeState.setBarrier_other (e : EdgeState) {x y : EdgeBarrier} (ne : y ≠ x) (v : BarrierState) :
    (e.setBarrier x v).barrier y = e.barrier y := by
  cases x <;> cases y <;> simp [EdgeState.setBarrier, EdgeState.barrier] at ne ⊢

@[simp] theorem EdgeState.setBarrier_run (e : EdgeState) (x : EdgeBarrier) (v : BarrierState) :
    (e.setBarrier x v).run = e.run := by cases x <;> rfl

/-- A barrier is due to become STUCK once it has been BROKEN for 20,000 ticks. -/
theorem BarrierState.stuckDue_broken (since_ now : Tick) :
    (BarrierState.broken since_).stuckDue now = decide (20000 ≤ since now since_) := rfl

theorem exec_leaveBarrierClear (s : State) : exec .leaveBarrierClear s =
    .next (if s.loader.roles.start then { s with start := { s.start with barrier := .clear } } else s) := rfl

theorem exec_leaveBarrierStuck (s : State) : exec .leaveBarrierStuck s =
    .next (if s.loader.roles.start && s.start.barrier.stuckDue s.clock then
      ({ s with start := { s.start with barrier := .stuck } } : State).report .barrierStuck 0 else s) := rfl

theorem exec_edgeBarrierClear (x : EdgeBarrier) (s : State) : exec (.edgeBarrierClear x) s =
    .next (if s.loader.roles.edge then { s with edge := s.edge.setBarrier x .clear } else s) := rfl

theorem exec_edgeBarrierStuck (x : EdgeBarrier) (s : State) : exec (.edgeBarrierStuck x) s =
    .next (if s.loader.roles.edge && (s.edge.barrier x).stuckDue s.clock then
      ({ s with edge := s.edge.setBarrier x .stuck } : State).report .barrierStuck (edgeBarrierCode x) else s) := rfl

/-- Settles O32: the 2 s are `BarrierState.stuckDue_broken`, for the leave barrier as for those of EDGE. -/
theorem barriersClearAndStick : Obligations.BarriersClearAndStick := by
  refine ⟨fun s start => ⟨?_, fun since_ broken => ⟨fun due => ?_, fun early => ?_⟩⟩,
    fun s x edge => ⟨?_, fun since_ broken => ⟨fun due => ?_, fun early => ?_⟩⟩,
    fun s => ⟨fun start => ⟨?_, ?_⟩, fun edge x => ⟨?_, ?_⟩⟩⟩
  · rw [exec_leaveBarrierClear, if_pos start]
  · rw [exec_leaveBarrierStuck, broken, BarrierState.stuckDue_broken, if_pos (by simp [start, due])]
  · rw [exec_leaveBarrierStuck, broken, BarrierState.stuckDue_broken, if_neg (by simp [early])]
  · rw [exec_edgeBarrierClear, if_pos edge]
    exact ⟨_, rfl, by simp, fun y ne => EdgeState.setBarrier_other _ ne _, by simp, rfl⟩
  · rw [exec_edgeBarrierStuck, broken, BarrierState.stuckDue_broken, if_pos (by simp [edge, due])]
    exact ⟨_, rfl, by simp, fun y ne => by simpa using EdgeState.setBarrier_other _ ne _, by cases x <;> rfl, rfl⟩
  · rw [exec_edgeBarrierStuck, broken, BarrierState.stuckDue_broken, if_neg (by simp [early])]
  · rw [exec_leaveBarrierClear, if_neg (by simp [start])]
  · rw [exec_leaveBarrierStuck, if_neg (by simp [start])]
  · rw [exec_edgeBarrierClear, if_neg (by simp [edge])]
  · rw [exec_edgeBarrierStuck, if_neg (by simp [edge])]

end Sys2Proof.Machine
end

section
/-! A GATE at a start station whose table holds two records of one number (R45, R65). -/

namespace Sys2Proof.Machine

open Sys2Proof

/-- A GATE of attempt 41 from station 1, at gate 1. -/
def doubledGate : LineHdr := ⟨1, 1, 0, doubledStation.startStamp (.gate doubledHdr 1 false)⟩

theorem doubledStation_takes_gate : doubledStation.Takes doubledGate (.gate doubledHdr 1 false) where
  released := rfl
  loaded := by decide
  silent := rfl
  taking := rfl
  line := by decide
  body := by decide
  other := by decide
  stamped := rfl
  active := .inl rfl
  filter := by decide

/-- The GATE writes the record found over both, and the sequencer takes the new count. -/
theorem doubledStation_gate :
    ∃ t, exec (.gateFrame doubledGate.rx doubledHdr 1 false) doubledStation = .next t ∧ t.start.backlog = 0 :=
  ⟨_, rfl, by decide⟩

/-- Refutes O20: nothing in it says that the table is sound. Where a number stands in two records, the tracker's write for
a GATE takes the LANDED one out of the backlog count, so the sequencer changes at a GATE in IDLE. -/
theorem not_gateFrameAtTheSequencer : ¬Obligations.GateFrameAtTheSequencer := by
  intro h
  obtain ⟨idle, -⟩ := h
  obtain ⟨t, run, same⟩ := idle doubledStation doubledGate doubledHdr 1 false doubledStation_takes_gate rfl rfl rfl rfl rfl
  obtain ⟨u, run', zero⟩ := doubledStation_gate
  obtain rfl : t = u := by
    rw [run] at run'
    cases run'
    rfl
  rw [same] at zero
  exact absurd zero (by decide)

end Sys2Proof.Machine
end

section
/-! WIND after an evaluation of its condition (R59, R73, R74; log entry 63). -/

namespace Sys2Proof.Machine

open Sys2Proof

/-! ## What a standing cause comes to -/

/-- The start is closed while a cause stands (R62, R64). -/
theorem State.HoldsSound.closed {s : State} (h : s.HoldsSound) {c : HoldCause} (stands : s.start.standing c = true) :
    s.start.phase ≠ .amber ∧ s.start.phase ≠ .green := by
  obtain ⟨-, isOpen⟩ := h
  have ne := StartState.holds_ne_nil stands
  exact ⟨fun p => ne (isOpen (.inl p)), fun p => ne (isOpen (.inr p))⟩

/-- The raise time of an entry is seen alike from two states with the same entries of its cause at the same time. -/
theorem State.RaisedAsBefore.of_entries {s u : State} {x : Hold}
    (entries : u.start.holds.filter (fun y => y.cause = x.cause) = s.start.holds.filter (fun y => y.cause = x.cause))
    (clock : u.clock = s.clock) (h : u.RaisedAsBefore x) : s.RaisedAsBefore x := by
  unfold State.RaisedAsBefore at h ⊢
  rw [StartState.standing_of_filter entries, clock] at h
  split at h
  · rename_i st
    obtain ⟨y, m, c, r⟩ := h
    have my : y ∈ u.start.holds.filter (fun y => y.cause = x.cause) := List.mem_filter.2 ⟨m, by simpa using c⟩
    rw [entries] at my
    rw [if_pos st]
    exact ⟨y, (List.mem_filter.1 my).1, c, r⟩
  · rename_i st
    rwa [if_neg st]

/-! ## The condition (R74) -/

theorem latestArrival_eq_none_iff {now : Tick} {es : List CorridorEntry} : latestArrival now es = none ↔ es = [] := by
  cases es with
  | nil => simp [latestArrival]
  | cons e es =>
    unfold latestArrival
    split
    · simp
    · simp only [reduceCtorEq, iff_false]
      split <;> simp

/-- The entry that arrived last is of the list, and none arrived later. -/
theorem latestArrival_spec {now : Tick} {es : List CorridorEntry} {e : CorridorEntry} (h : latestArrival now es = some e) :
    e ∈ es ∧ ∀ f ∈ es, since now e.arrival ≤ since now f.arrival := by
  induction es generalizing e with
  | nil => simp [latestArrival] at h
  | cons x es ih =>
    unfold latestArrival at h
    split at h
    · rename_i none
      obtain rfl := latestArrival_eq_none_iff.1 none
      obtain rfl := Option.some.inj h
      simp
    · rename_i f latest
      obtain ⟨mem, least⟩ := ih latest
      split at h <;> obtain rfl := Option.some.inj h <;> rename_i late
      · refine ⟨.tail _ mem, fun g m => ?_⟩
        rcases List.mem_cons.1 m with rfl | m
        · omega
        · exact least g m
      · refine ⟨.head _, fun g m => ?_⟩
        rcases List.mem_cons.1 m with rfl | m
        · omega
        · have := least g m
          omega

/-- The counted entries that are fresh. -/
def State.freshEntries (s : State) : List CorridorEntry :=
  s.start.corridor.filter (fun e => s.counted e && e.fresh s.clock)

/-- Those of them that are out of band. -/
def State.outEntries (s : State) : List CorridorEntry :=
  s.freshEntries.filter (fun e => !e.inBand s.loader.consts.corridor)

/-- The WIND condition, by its two ways of holding. -/
theorem State.windCause_eq (s : State) : s.windCause =
    match latestArrival s.clock s.outEntries with
    | some e => some (e.sender, e.mast)
    | none => if s.freshEntries.length < s.loader.consts.corridor.minMasts then some (s.loader.station, 0) else none := by
  unfold State.windCause
  rfl

/-- While the condition holds, its source and detail are those of the latest entry out of band, else the own number
and 0. -/
theorem State.windCause_holds {s : State}
    (h : s.outEntries ≠ [] ∨ s.freshEntries.length < s.loader.consts.corridor.minMasts) : ∃ a b,
    s.windCause = some (a, b) ∧ (s.outEntries = [] → a = s.loader.station ∧ b = 0) ∧
    (s.outEntries ≠ [] → ∃ e ∈ s.outEntries,
      (∀ f ∈ s.outEntries, since s.clock e.arrival ≤ since s.clock f.arrival) ∧ a = e.sender ∧ b = e.mast) := by
  rw [State.windCause_eq]
  cases latest : latestArrival s.clock s.outEntries with
  | some e =>
    obtain ⟨mem, least⟩ := latestArrival_spec latest
    exact ⟨_, _, rfl, fun nil => absurd mem (by simp [nil]), fun _ => ⟨e, mem, least, rfl, rfl⟩⟩
  | none =>
    have nil := latestArrival_eq_none_iff.1 latest
    exact ⟨_, _, if_pos (h.resolve_left (by simp [nil])), fun _ => ⟨rfl, rfl⟩, fun ne => absurd nil ne⟩

theorem State.windCause_fails {s : State} (nil : s.outEntries = [])
    (enough : s.loader.consts.corridor.minMasts ≤ s.freshEntries.length) : s.windCause = none := by
  rw [State.windCause_eq, latestArrival_eq_none_iff.2 nil]
  exact if_neg (by omega)

/-! ## The evaluation (R59, R74) -/

/-- While the condition holds, WIND stands with its source and detail, and the settle timer is stopped. -/
theorem State.evalWind_raised {s : State} {a b : Nat} (h : s.windCause = some (a, b)) :
    s.evalWind.start.standing .wind = true ∧ s.evalWind.start.settleAt = none ∧
    ∀ x ∈ s.evalWind.start.holds, x.cause = .wind → s.RaisedAsBefore x ∧ x.source = a ∧ x.detail = b := by
  have e : s.evalWind = (s.modStart (fun st => { st with settleAt := none })).raiseHold .wind a b := by
    unfold State.evalWind
    rw [h]
  rw [e]
  refine ⟨State.raiseHold_standing _ _ _ _, (congrArg StartState.settleAt (State.raiseHold_besides _ .wind a b) :),
    fun x m c => ?_⟩
  have mem : x ∈ ((s.modStart (fun st => { st with settleAt := none })).holdWhile .wind (some (a, b))).start.holds.filter
      (fun y => y.cause = .wind) := List.mem_filter.2 ⟨m, by simpa using c⟩
  rw [State.holdWhile_same] at mem
  obtain ⟨why, raised⟩ := State.of_mem_entriesOf mem
  injection why with why
  injection why with source detail
  exact ⟨raised.of_entries rfl rfl, source.symm, detail.symm⟩

/-- Once the condition has ended, a WIND that does not settle stands no more, and the settle timer stays. -/
theorem State.evalWind_released {s : State} (h : s.windCause = none)
    (now : s.start.standing .wind = false ∨ s.loader.consts.corridor.settleS = 0) :
    s.evalWind.start.standing .wind = false ∧ s.evalWind.start.settleAt = s.start.settleAt := by
  unfold State.evalWind
  rw [h]
  dsimp only
  split
  · rename_i stands
    rw [if_pos (now.resolve_left (by simp [stands]))]
    exact ⟨s.releaseHold_standing _, (congrArg StartState.settleAt (s.releaseHold_besides .wind) :)⟩
  · rename_i none
    exact ⟨by simpa using none, rfl⟩

/-- Once the condition has ended, a standing WIND settles: its timer runs from now, or as it ran. -/
theorem State.evalWind_settles {s : State} (h : s.windCause = none) (stands : s.start.standing .wind = true)
    (settle : s.loader.consts.corridor.settleS ≠ 0) : s.evalWind.start.holds = s.start.holds ∧
    s.evalWind.start.settleAt =
      some (s.start.settleAt.getD (s.clock + secondsT s.loader.consts.corridor.settleS)) := by
  unfold State.evalWind
  rw [h]
  dsimp only
  rw [if_pos stands, if_neg settle]
  cases timer : s.start.settleAt with
  | some e => exact ⟨rfl, by simp [timer]⟩
  | none => exact ⟨rfl, rfl⟩

theorem State.evalWind_corridor (s : State) : s.evalWind.start.corridor = s.start.corridor := by
  have raised : ∀ u : State, ∀ a b, (u.raiseHold .wind a b).start.corridor = u.start.corridor :=
    fun u a b => (congrArg StartState.corridor (u.raiseHold_besides .wind a b) :)
  unfold State.evalWind
  split
  · exact raised _ _ _
  · split
    · split
      · exact (congrArg StartState.corridor (s.releaseHold_besides .wind) :)
      · split <;> rfl
    · rfl

/-- The evaluation as the statements give it, from a state that differs from `s` in the corridor table, and in causes
other than WIND. -/
theorem State.WindFollows.of_evalWind {s t u : State} (loader : u.loader = s.loader) (clock : u.clock = s.clock)
    (wind : u.start.holds.filter (fun x => x.cause = .wind) = s.start.holds.filter (fun x => x.cause = .wind))
    (settle : u.start.settleAt = s.start.settleAt) (sound : s.HoldsSound → u.HoldsSound)
    (start : t.start = u.evalWind.start) : s.WindFollows t := by
  rintro fresh out rfl rfl
  have corridor : t.start.corridor = u.start.corridor := start ▸ u.evalWind_corridor
  have freshEq : t.start.corridor.filter (fun e => s.counted e && e.fresh s.clock) = u.freshEntries := by
    unfold State.freshEntries State.counted
    rw [corridor, clock, loader]
  have outEq : (t.start.corridor.filter (fun e => s.counted e && e.fresh s.clock)).filter
      (fun e => !e.inBand s.loader.consts.corridor) = u.outEntries := by
    rw [freshEq, ← loader]
    rfl
  rw [outEq, freshEq, start, ← loader, ← clock, ← settle, ← StartState.standing_of_filter wind]
  refine ⟨fun holds => ?_, fun nil enough => ⟨fun now => ?_, fun stands slow => ?_⟩⟩
  · obtain ⟨a, b, cause, own, entry⟩ := State.windCause_holds holds
    obtain ⟨stands, stopped, entries⟩ := State.evalWind_raised cause
    refine ⟨stands, stopped, fun k => ?_, fun x m c => ?_⟩
    · have k' : u.evalWind.HoldsSound := (SafeStart.refl u).evalWind.holds (sound k)
      exact k'.closed stands
    · obtain ⟨raised, rfl, rfl⟩ := entries x m c
      exact ⟨raised.of_entries (by rw [c]; exact wind) clock, own, entry⟩
  · exact State.evalWind_released (State.windCause_fails nil enough) now
  · obtain ⟨holds, timer⟩ := State.evalWind_settles (State.windCause_fails nil enough) stands slow
    exact ⟨by rw [holds, wind], timer⟩

end Sys2Proof.Machine
end

section
/-! The sequencer's timers, and the release and return of WIND (R58, R62 to R64, R67, R68, R73 to R75). -/

namespace Sys2Proof.Machine

open Sys2Proof

/-- Of the station a change of the sequencer touches the sequencer, the transmit queues, the latch and the console. -/
theorem Only.restStart {s t : State} (h : OnlyStart s t) :
    { t with start := s.start, line := s.line, latch := s.latch, console := s.console } = s :=
  (congrArg (fun u : State => { u with line := s.line, console := s.console }) h.same :)

/-! ## The timers -/

theorem expired_some {now e : Tick} (h : reached now e = true) : expired now (some e) = true := h

/-- One more green, up to 255 (R63). -/
theorem greenCount_eq (n : Nat) : (if n < 255 then n + 1 else 255) = min 255 (n + 1) := by
  split <;> omega

/-- A phase entered in a cycle goes out, and its copy is kept (R60, R69). -/
theorem State.offerPhase_eq {s : State} {h : AttemptHdr} {b : Body} (current : s.start.current = some h)
    (body : s.start.phaseBody h = b) : s.offerPhase =
      ({ s with start := { s.start with keptPhase := some ⟨b, none⟩ } } : State).offer b none := by
  subst body
  unfold State.offerPhase
  rw [current]
  rfl

/-- The start opens in GREEN with a full window (R63). -/
theorem State.enterGreen_eq {s : State} {h : AttemptHdr} (current : s.start.current = some h) : s.enterGreen =
    ({ s with start := { s.start with
      phase := .green, readyAt := none, greenCount := min 255 (s.start.greenCount + 1)
      windowAt := some (s.clock + secondsT s.loader.consts.cycle.greenS)
      shown := s.loader.consts.cycle.greenS
      keptPhase := some ⟨.phase h .green s.start.gate s.loader.consts.cycle.greenS
        (min 255 (s.start.greenCount + 1)), none⟩ } } : State).offer
      (.phase h .green s.start.gate s.loader.consts.cycle.greenS (min 255 (s.start.greenCount + 1))) none := by
  rw [← greenCount_eq]
  exact State.offerPhase_eq current (by simp [StartState.phaseBody])

/-- The sequencer's own VOID goes out, its copy is kept, and the cycle ends (R66, R67, R69). -/
theorem State.ownVoid_eq {s : State} {h : AttemptHdr} (current : s.start.current = some h) (why : VoidReason) :
    s.ownVoid why = (({ s with start := { s.start.atIdle with keptVoid := some ⟨.void h why, none⟩ } } : State).offer
      (.void h why) none).releaseHold .coach := by
  unfold State.ownVoid
  rw [current]
  rfl

/-- The settle timer's expiry stops the timer and releases WIND (R74). -/
theorem exec_settleTimerExpiry {s : State} {e : Tick} (at_ : s.start.settleAt = some e)
    (due : reached s.clock e = true) : exec .settleTimerExpiry s =
      .next (({ s with start := { s.start with settleAt := none } } : State).releaseHold .wind) := by
  show Host.Outcome.next (if expired s.clock s.start.settleAt = true then _ else s) = _
  rw [at_, if_pos (expired_some due)]
  rfl

/-! ## The corridor's entries (R73, R74) -/

/-- An entry whose 3000 ms have passed, untaken yet. -/
theorem CorridorEntry.due_iff (x : CorridorEntry) (now : Tick) :
    x.due now = true ↔ x.aged = false ∧ 30000 ≤ since now x.arrival := by
  unfold CorridorEntry.due corridorLife
  rw [Bool.and_eq_true, Bool.not_eq_true', decide_eq_true_eq]

/-- The entries of a mast that come to the end of their life are marked. -/
def State.markAged (s : State) (mast : Nat) : State :=
  s.modStart (fun st => { st with corridor := st.corridor.map (fun f =>
    if f.mast == mast && f.due s.clock then { f with aged := true } else f) })

theorem State.markAged_corridor (s : State) (mast : Nat) : (s.markAged mast).start.corridor =
    s.start.corridor.map (fun y => if y.mast = mast ∧ y.aged = false ∧ 30000 ≤ since s.clock y.arrival then
      { y with aged := true } else y) := by
  refine List.map_congr_left fun y _ => if_congr ?_ rfl rfl
  rw [Bool.and_eq_true, beq_iff_eq, CorridorEntry.due_iff]

/-- The command takes the entries of its mast that are due, by the flags of the first. -/
theorem exec_corridorEntryAged {s : State} {mast : Nat} {x : CorridorEntry} (mem : x ∈ s.start.corridor)
    (of_mast : x.mast = mast) (fresh : x.aged = false) (old : 30000 ≤ since s.clock x.arrival) : ∃ e ∈ s.start.corridor,
      (e.mast = mast ∧ e.aged = false ∧ 30000 ≤ since s.clock e.arrival) ∧
      exec (.corridorEntryAged mast) s = .next (if e.flags.stale || e.flags.service then s.markAged mast
        else (s.markAged mast).evalWind) := by
  have found : (s.start.corridor.find? (fun e => e.mast == mast && e.due s.clock)).isSome := by
    rw [List.find?_isSome]
    exact ⟨x, mem, by simp [of_mast, (x.due_iff s.clock).2 ⟨fresh, old⟩]⟩
  obtain ⟨e, he⟩ := Option.isSome_iff_exists.1 found
  have sat := List.find?_some he
  rw [Bool.and_eq_true, beq_iff_eq, CorridorEntry.due_iff] at sat
  refine ⟨e, List.mem_of_find?_eq_some he, sat, ?_⟩
  show execCorridorEntryAged mast s = _
  unfold execCorridorEntryAged
  rw [he]
  rfl

/-- An evaluation on the marked table. -/
theorem State.markAged_follows (s : State) (mast : Nat) : s.WindFollows (s.markAged mast).evalWind :=
  .of_evalWind (u := s.markAged mast) rfl rfl rfl rfl ((SafeStart.refl s).modStart rfl rfl rfl).holds rfl

/-- Settles O30: each timer by its command's equation, WIND's release by `State.releaseHold_phase` and
`State.releaseHold_holds`, and its return by `State.WindFollows.of_evalWind`. -/
theorem startAndWindTimers : Obligations.StartAndWindTimers := by
  refine ⟨⟨fun s e h at_ due amber current => ?_, fun s e h at_ due green current => ?_, fun s e at_ due => ?_,
    fun s green fewer => ?_, fun s e at_ due => ?_, fun s => ⟨fun early => ?_, fun early => ?_, fun early => ?_,
    fun early => ?_, fun dark => ?_⟩⟩, fun s e at_ due => ?_, fun s early => ?_, fun s mast x mem of_mast fresh old => ?_⟩
  · rw [← State.enterGreen_eq current]
    show Host.Outcome.next (if expired s.clock s.start.readyAt then
      if s.start.phase = .amber then s.enterGreen else _ else s) = _
    rw [at_, if_pos (expired_some due), if_pos amber]
  · show Host.Outcome.next (if expired s.clock s.start.windowAt then
      if s.start.phase = .green then (s.modStart fun st => { st with windowAt := none }).ownVoid .late else _ else s) = _
    rw [at_, if_pos (expired_some due), if_pos green, State.ownVoid_eq (h := h) (by exact current)]
    rfl
  · show Host.Outcome.next (if expired s.clock s.start.graceAt then _ else s) = _
    rw [at_, if_pos (expired_some due)]
    rfl
  · show Host.Outcome.next (if s.start.phase = .green ∧ _ then _ else s) = _
    rw [if_pos ⟨green, fewer⟩]
    rfl
  · show Host.Outcome.next (if expired s.clock s.start.rejectUntil then _ else s) = _
    rw [at_, if_pos (expired_some due)]
    rfl
  · exact congrArg Host.Outcome.next (if_neg (by simp [early]))
  · exact congrArg Host.Outcome.next (if_neg (by simp [early]))
  · exact congrArg Host.Outcome.next (if_neg (by simp [early]))
  · exact congrArg Host.Outcome.next (if_neg (by simp [early]))
  · exact congrArg Host.Outcome.next (if_neg fun k => dark k.1)
  · refine ⟨_, exec_settleTimerExpiry at_ due, (congrArg StartState.settleAt (State.releaseHold_besides _ .wind) :),
      State.releaseHold_standing _ _, State.releaseHold_holds _ _, ?_,
      (((Only.refl blockStart s).modStart (fun st => { st with settleAt := none })).releaseHold .wind).restStart⟩
    rw [State.releaseHold_phase, State.releaseHold_holds]
    rfl
  · exact congrArg Host.Outcome.next (if_neg (by simp [early]))
  · obtain ⟨e, me, due, run⟩ := exec_corridorEntryAged mem of_mast fresh old
    obtain ⟨em, ea, eo⟩ := due
    have marked : OnlyStart s (s.markAged mast) := (Only.refl blockStart s).modStart _
    refine ⟨_, run, ?_, fun none => ?_, fun flagged => ?_, fun sound only stale service enough => ?_, ?_⟩
    · rw [← s.markAged_corridor mast]
      split
      · rfl
      · exact State.evalWind_corridor _
    · obtain ⟨stale, service⟩ := none e me em ea eo
      rw [if_neg (by simp [stale, service])]
      exact s.markAged_follows mast
    · rw [if_pos (by simpa using flagged e me em ea eo)]
      rfl
    · obtain rfl : e = x := by simpa [only] using me
      rw [if_neg (by simp [stale, service])]
      have aged : (s.markAged mast).evalWind.start.corridor = [{ e with aged := true }] := by
        rw [State.evalWind_corridor, s.markAged_corridor mast, only]
        simp [em, ea, eo]
      obtain ⟨follows, -⟩ := s.markAged_follows mast _ _ rfl rfl
      rw [aged] at follows
      obtain ⟨stands, stopped, closed, -⟩ := follows (.inr (by simpa [CorridorEntry.fresh] using Nat.lt_of_succ_le enough))
      exact ⟨stands, stopped, closed sound⟩
    · exact (Only.ite marked marked.evalWind).restStart

end Sys2Proof.Machine
end

section
/-! The two panels at the start, lamp failure and LAMP_CHECK (R70, R75, R77, R78). -/

namespace Sys2Proof.Machine

open Sys2Proof

/-! ## What a raise leaves -/

/-- A raised cause has an entry with its source and detail (R59). -/
theorem State.raiseHold_entry (s : State) (c : HoldCause) (a b : Nat) :
    ∃ x ∈ (s.raiseHold c a b).start.holds, x.cause = c ∧ x.source = a ∧ x.detail = b := by
  obtain ⟨x, mem, cause⟩ := (StartState.standing_iff _ c).1 (s.raiseHold_standing c a b)
  have entry : x ∈ (s.holdWhile c (some (a, b))).start.holds.filter (fun y => y.cause = c) :=
    List.mem_filter.2 ⟨mem, by simpa using cause⟩
  rw [State.holdWhile_same] at entry
  obtain ⟨why, -⟩ := State.of_mem_entriesOf entry
  injection why with why
  injection why with source detail
  exact ⟨x, mem, cause, source.symm, detail.symm⟩

/-- A raise leaves the start closed (R64). -/
theorem State.raiseHold_closed {s : State} (sound : s.HoldsSound) (c : HoldCause) (a b : Nat) :
    (s.raiseHold c a b).start.phase ≠ .amber ∧ (s.raiseHold c a b).start.phase ≠ .green :=
  (((SafeStart.refl s).raiseHold c a b).holds sound).closed (s.raiseHold_standing c a b)

/-- A raise offers one PHASE at most, where it closes the start, and brings nothing else into the queues and the latch
(R64). -/
theorem State.raiseHold_out (s : State) (c : HoldCause) (a b : Nat) : ∃ v : State,
    (s.raiseHold c a b = v ∨ ∃ body, s.raiseHold c a b = v.offer body none) ∧ v.line = s.line ∧ v.latch = s.latch := by
  have phase : ∀ u : State, u.line = s.line → u.latch = s.latch → ∃ v : State,
      (u.enterRed = v ∨ ∃ body, u.enterRed = v.offer body none) ∧ v.line = s.line ∧ v.latch = s.latch := fun u line latch => by
    unfold State.enterRed State.offerPhase
    split
    · exact ⟨_, .inl rfl, line, latch⟩
    · exact ⟨_, .inr ⟨_, rfl⟩, line, latch⟩
  unfold State.raiseHold
  split
  · exact ⟨_, .inl rfl, rfl, rfl⟩
  · dsimp only
    unfold State.closeStart
    split
    · exact phase _ rfl rfl
    · exact phase _ rfl rfl
    · exact ⟨_, .inl rfl, rfl, rfl⟩

/-! ## The official's panel (R70) -/

theorem exec_trackHold {s : State} (start : s.loader.roles.start = true) :
    exec .trackHold s = .next (s.raiseHold .track s.loader.station 0) := congrArg Host.Outcome.next (if_pos start)

theorem exec_trackRelease {s : State} (start : s.loader.roles.start = true) :
    exec .trackRelease s = .next (s.releaseHold .track) := congrArg Host.Outcome.next (if_pos start)

/-! ## The coach's panel (R75) -/

/-- The four positions of the selector, and no other pattern, show steps. -/
theorem selectorSteps_eq : ∀ sel : BitVec 4, selectorSteps sel =
    if sel = 1 then 1 else if sel = 2 then 2 else if sel = 4 then 3 else if sel = 8 then 4 else 0 := by decide

/-- An offer lengthens the urgent queue by one frame at most (R9). -/
theorem State.offer_urgent_le (s : State) (b : Body) (e : Option Tick) :
    (s.offer b e).line.urgent.length ≤ s.line.urgent.length + 1 := by
  rcases s.offer_cases b e with ⟨-, x⟩ | ⟨-, -, -, x⟩ | ⟨-, -, x⟩ | ⟨-, -, -, x⟩ <;> rw [x]
  · exact Nat.le_succ _
  · unfold LineState.withQueue LineState.queue
    split <;> simp
  · exact Nat.le_succ _
  · unfold LineState.withQueue LineState.queue
    split <;> simp

theorem State.raiseHold_urgent_le (s : State) (c : HoldCause) (a b : Nat) :
    (s.raiseHold c a b).line.urgent.length ≤ s.line.urgent.length + 1 := by
  obtain ⟨v, x | ⟨body, x⟩, line, -⟩ := s.raiseHold_out c a b <;> rw [x, ← line]
  · exact Nat.le_succ _
  · exact v.offer_urgent_le body none

/-- An urgent frame that replaces none waits, where the station is not MUTED and its queue has room (R9). -/
theorem State.offer_waits_urgent {s : State} {b : Body} (run : s.loader.state.isMuted = false) (urgent : b.urgent = true)
    (new : b.replaces = false) (room : s.line.urgent.length < 8) (e : Option Tick) :
    (⟨b, s.line.eventNumber, e⟩ : QueuedFrame) ∈ (s.offer b e).line.urgent := by
  have queue : s.line.queue b.urgent = s.line.urgent := by rw [urgent]; rfl
  rw [State.offer_joins run (by rw [new]; rfl), queue, if_pos room, urgent]
  exact List.mem_append_right _ (List.mem_singleton.2 rfl)

/-- The sequencer takes a request: COACH is raised for it, and COACH offered (R75). -/
def State.requestCoach (s : State) (h : AttemptHdr) (gate : Nat) : State :=
  ((s.modStart (fun st => { st with coach := .pending, requested := some gate })).raiseHold .coach s.loader.station
    gate).offer (.coach h s.start.juryGate gate false) none

/-- A press in RUN is taken in RED or AMBER, while no request is PENDING or GRANTED, for steps below the jury gate. -/
theorem exec_coachRequestPress_taken {s : State} {sel : BitVec 4} {h : AttemptHdr} (start : s.loader.roles.start = true)
    (run : s.loader.state = .run) (current : s.start.current = some h)
    (phase : s.start.phase = .red ∨ s.start.phase = .amber) (free : s.start.coach = .none ∨ s.start.coach = .withdrawn)
    (some_ : 0 < selectorSteps sel) (below : selectorSteps sel < s.start.juryGate) :
    exec (.coachRequestPress sel) s = .next (s.requestCoach h (s.start.juryGate - selectorSteps sel)) := by
  refine congrArg Host.Outcome.next ((if_pos start).trans ?_)
  unfold State.pressCoach
  dsimp only
  rw [current]
  exact if_pos (by simp [State.startRuns, start, run, phase, free, some_, below])

/-- Any other press in RUN lights the reject lamp. -/
theorem exec_coachRequestPress_refused {s : State} {sel : BitVec 4} (start : s.loader.roles.start = true)
    (run : s.loader.state = .run)
    (other : s.start.coach = .pending ∨ s.start.coach = .granted ∨ selectorSteps sel = 0 ∨
      s.start.juryGate ≤ selectorSteps sel ∨ s.start.phase = .idle ∨ s.start.phase = .green ∨ s.start.phase = .gone) :
    exec (.coachRequestPress sel) s = .next
      (({ s with start := { s.start with rejectUntil := some (s.clock + secondsT 2) } } : State).raise
        (.coachRefused s.start.phase s.start.coach (selectorSteps sel))) := by
  have refused : s.refuseCoach (selectorSteps sel) =
      ({ s with start := { s.start with rejectUntil := some (s.clock + secondsT 2) } } : State).raise
        (.coachRefused s.start.phase s.start.coach (selectorSteps sel)) := by
    simp [State.refuseCoach, State.startRuns, start, run, rejectTime, State.modStart]
  refine congrArg Host.Outcome.next ((if_pos start).trans (Eq.trans ?_ refused))
  unfold State.pressCoach
  dsimp only
  split
  · rfl
  · refine if_neg fun taken => ?_
    simp only [Bool.and_eq_true, Bool.or_eq_true, beq_iff_eq, decide_eq_true_eq] at taken
    obtain ⟨⟨⟨⟨-, phase⟩, free⟩, some_⟩, below⟩ := taken
    rcases other with c | c | z | g | p | p | p
    · simp [c] at free
    · simp [c] at free
    · omega
    · omega
    · simp [p] at phase
    · simp [p] at phase
    · simp [p] at phase

/-- A request taken leaves RED, with COACH standing for the requested gate, and its COACH frame waiting (R64, R75). -/
theorem State.requestCoach_spec {s : State} (h : AttemptHdr) (gate : Nat) (run : s.loader.state = .run)
    (sound : s.HoldsSound) (phase : s.start.phase = .red ∨ s.start.phase = .amber) :
    (s.requestCoach h gate).start.coach = .pending ∧ (s.requestCoach h gate).start.requested = some gate ∧
    (s.requestCoach h gate).start.phase = .red ∧ (s.requestCoach h gate).start.standing .coach = true ∧
    (s.requestCoach h gate).start.rejectUntil = s.start.rejectUntil ∧
    (s.line.urgent.length < 7 → ∃ f ∈ (s.requestCoach h gate).line.urgent,
      f.body = .coach h s.start.juryGate gate false) := by
  obtain ⟨u, hu⟩ : ∃ u, u = (s.modStart (fun st => { st with coach := .pending, requested := some gate })).raiseHold .coach
    s.loader.station gate := ⟨_, rfl⟩
  have besides := State.raiseHold_besides (s.modStart (fun st => { st with coach := .pending, requested := some gate }))
    .coach s.loader.station gate
  have red : u.start.phase = .red := by
    rw [hu, State.raiseHold_phase]
    rcases phase with p | p
    · simp [p]
    · have nil := sound.2 (.inl p)
      simp [p, nil, StartState.standing]
  have stands : u.start.standing .coach = true := hu ▸ State.raiseHold_standing _ _ _ _
  have length : u.line.urgent.length ≤ s.line.urgent.length + 1 := hu ▸ State.raiseHold_urgent_le _ _ _ _
  have loader : u.loader = s.loader :=
    hu ▸ (congrArg State.loader (((Only.refl blockStart s).modStart _).raiseHold .coach s.loader.station gate).same :)
  rw [← hu] at besides
  have request : s.requestCoach h gate = u.offer (.coach h s.start.juryGate gate false) none := by rw [hu]; rfl
  rw [request, State.offer_start]
  refine ⟨(congrArg StartState.coach besides :), (congrArg StartState.requested besides :), red, stands,
    (congrArg StartState.rejectUntil besides :), fun room => ⟨_, State.offer_waits_urgent ?_ rfl rfl (by omega) none, rfl⟩⟩
  rw [loader, run]
  rfl

theorem State.requestCoach_only (s : State) (h : AttemptHdr) (gate : Nat) : OnlyStart s (s.requestCoach h gate) :=
  (((Only.refl blockStart s).modStart _).raiseHold _ _ _).offer _ _

/-! ## Lamps (R32, R77, R78) -/

/-- From a fault latch to a later one: a record stays, and so does the overflow. -/
structure FaultLatch.Grows (l m : FaultLatch) : Prop where
  record : ∀ r, l.record = some r → m.record = some r
  overflow : l.overflow = true → m.overflow = true

theorem FaultLatch.Grows.refl (l : FaultLatch) : l.Grows l := ⟨fun _ => id, id⟩

theorem FaultLatch.take_grows (l : FaultLatch) (k : FaultKind) (now : Tick) (d : Nat) : l.Grows (l.take k now d) := by
  unfold FaultLatch.take
  split
  · rename_i none
    exact ⟨fun r h => absurd (none.symm.trans h) (by simp), id⟩
  · exact ⟨fun _ => id, fun _ => rfl⟩

theorem State.offer_latch_grows (s : State) (b : Body) (e : Option Tick) : s.latch.Grows (s.offer b e).latch := by
  unfold State.offer
  dsimp only
  split
  · exact FaultLatch.take_grows _ _ _ _
  · exact .refl _

/-- A raise reports no fault but TX_OVERFLOW of its PHASE, which a record in the latch outlives. -/
theorem State.raiseHold_latch_grows (s : State) (c : HoldCause) (a b : Nat) :
    s.latch.Grows (s.raiseHold c a b).latch := by
  obtain ⟨v, x | ⟨body, x⟩, -, latch⟩ := s.raiseHold_out c a b <;> rw [x, ← latch]
  · exact .refl _
  · exact v.offer_latch_grows body none

/-- The station after a lamp has failed: it joins the failed set, is reported, and raises LAMP. -/
def State.failLamp (s : State) (x : Lamp) : State :=
  ((s.modStart (fun st => { st with failed := st.failed.insert x })).report .lampFail x.code).raiseHold .lamp
    s.loader.station x.code

theorem exec_lampFail {s : State} {x : Lamp} (start : s.loader.roles.start = true) (on : s.lampOutputs.has x = true)
    (new : s.start.failed.has x = false) : exec (.lampFail x) s = .next (s.failLamp x) :=
  congrArg Host.Outcome.next (if_pos (by simp [start, on, new]))

theorem State.failLamp_only (s : State) (x : Lamp) : OnlyStart s (s.failLamp x) :=
  (((Only.refl blockStart s).modStart _).report _ _).raiseHold _ _ _

theorem State.failLamp_closed {s : State} (sound : s.HoldsSound) (x : Lamp) :
    (s.failLamp x).start.phase ≠ .amber ∧ (s.failLamp x).start.phase ≠ .green :=
  State.raiseHold_closed ((((SafeStart.refl s).modStart rfl rfl rfl).report _ _).holds sound) _ _ _

/-- A release makes no reply. -/
theorem State.releaseHold_replies (s : State) (c : HoldCause) :
    (s.releaseHold c).console.replies = s.console.replies := by
  have offer : ∀ (u : State) b e, (u.offer b e).console.replies = u.console.replies := fun u b e => by
    unfold State.offer
    dsimp only
    split <;> simp
  have opened : ∀ u : State, u.openStart.console.replies = u.console.replies := fun u => by
    unfold State.openStart State.enterAmber State.offerPhase
    split
    · split
      · rfl
      · rw [offer]; rfl
    · rfl
  have removed : (s.removeHold c).console.replies = s.console.replies := by
    unfold State.removeHold
    split
    · rfl
    · simp [State.raise]
  unfold State.releaseHold
  split
  · rw [opened, removed]
  · rfl

/-- LAMP_CHECK that is taken, by the failed set and the three inputs. -/
theorem exec_lampCheck {s : State} (h : s.TakesRecord) (start : s.loader.roles.start = true) (x : LampSet) :
    exec (.lampCheck x) s = .next (if s.start.failed = {} then s.afterAnswer 0x10 .ok
      else if x = {} then
        ((s.clearAssembler.modStart (fun st => { st with failed := {} })).releaseHold .lamp).answer 0x10 .ok
      else s.afterAnswer 0x10 .state) := by
  refine congrArg Host.Outcome.next ((h.command 0x10 (·.start) _ start).trans ?_)
  rw [h.answer, h.answer]
  simp only [LampSet.isEmpty_iff]
  rfl

/-- Settles O33: the presses by `State.raiseHold_entry`, `State.releaseHold_holds` and `State.requestCoach_spec`, a failed
lamp by `State.failLamp`, and LAMP_CHECK by `exec_lampCheck`. -/
theorem panelsAndLamps : Obligations.PanelsAndLamps := by
  refine ⟨⟨fun s start => ⟨?_, ?_⟩, fun s sel steps start run hs => ⟨fun h current sound phase free some_ below => ?_,
    fun other => ?_⟩, fun s sel start => ⟨?_, ?_, ?_⟩⟩,
    fun s x start on new => ?_, fun s x off => ?_, fun s h start => ⟨fun x none => ?_, fun x some_ bad => ?_,
    fun some_ => ?_⟩⟩
  · exact ⟨_, exec_trackHold start, s.raiseHold_standing _ _ _, fun sound => State.raiseHold_closed sound _ _ _,
      s.raiseHold_entry _ _ _, ((Only.refl blockStart s).raiseHold _ _ _).restStart⟩
  · exact ⟨_, exec_trackRelease start, s.releaseHold_standing _, s.releaseHold_holds _,
      ((Only.refl blockStart s).releaseHold _).restStart⟩
  · obtain rfl : steps = selectorSteps sel := hs.trans (selectorSteps_eq sel).symm
    obtain ⟨coach, requested, red, stands, reject, waits⟩ :=
      State.requestCoach_spec h (s.start.juryGate - selectorSteps sel) run sound phase
    exact ⟨_, exec_coachRequestPress_taken start run current phase free some_ below, coach, requested, red, stands, reject,
      waits, (s.requestCoach_only h _).restStart⟩
  · obtain rfl : steps = selectorSteps sel := hs.trans (selectorSteps_eq sel).symm
    exact exec_coachRequestPress_refused start run other
  · exact congrArg Host.Outcome.next (if_neg (by simp [start]))
  · exact congrArg Host.Outcome.next (if_neg (by simp [start]))
  · exact congrArg Host.Outcome.next (if_neg (by simp [start]))
  · have grows := State.raiseHold_latch_grows ((s.modStart (fun st => { st with
      failed := st.failed.insert x })).report .lampFail x.code) .lamp s.loader.station x.code
    refine ⟨_, exec_lampFail start on new, ?_, State.raiseHold_standing _ _ _ _, fun sound => State.failLamp_closed sound x,
      fun none => ?_, fun r old => ⟨?_, ?_⟩, (s.failLamp_only x).restStart⟩
    · exact (congrArg StartState.failed (State.raiseHold_besides _ .lamp s.loader.station x.code) :)
    · refine grows.record _ ?_
      cases x <;> simp [FaultLatch.take, none, Lamp.code]
    · exact grows.record _ (by simp [FaultLatch.take, old])
    · exact grows.overflow (by simp [FaultLatch.take, old])
  · refine congrArg Host.Outcome.next (if_neg fun k => ?_)
    simp only [Bool.and_eq_true, Bool.not_eq_true'] at k
    obtain ⟨⟨start, on⟩, new⟩ := k
    rcases off with h | h | h <;> simp_all
  · rw [exec_lampCheck h start, if_pos none]
  · rw [exec_lampCheck h start, if_neg some_, if_neg bad]
  · rw [exec_lampCheck h start, if_neg some_, if_pos rfl]
    have replies := State.releaseHold_replies (s.clearAssembler.modStart (fun st => { st with failed := {} })) .lamp
    refine ⟨_, rfl, (congrArg StartState.failed (State.releaseHold_besides _ .lamp) :), State.releaseHold_standing _ _,
      State.releaseHold_holds _ _, ?_⟩
    unfold State.answer State.reply
    rw [ConsoleState.reply_room _ _ (by rw [replies]; exact h.room), replies]
    rfl

end Sys2Proof.Machine
end

section
/-! The sequencer as a delivered frame finds it: what the roster, the tracker and the backlog count have made of it (R28,
R55, R59, R71, R72). -/

namespace Sys2Proof.Machine

open Sys2Proof

/-! ## Causes that the roster and the backlog count give -/

/-- An evaluation of a cause neither leaves nor brings IDLE or GONE (R62, R64). -/
theorem State.holdWhile_rest (s : State) (c : HoldCause) (why : Option (Nat × Nat)) {p : Phase}
    (h : p = .idle ∨ p = .gone) : (s.holdWhile c why).start.phase = p ↔ s.start.phase = p := by
  unfold State.holdWhile
  split
  · rw [State.raiseHold_phase]
    split
    · rename_i isOpen
      rcases h with rfl | rfl <;> rcases isOpen.2 with e | e <;> simp [e]
    · rfl
  · rw [State.releaseHold_phase]
    split
    · rename_i red
      rcases h with rfl | rfl <;> simp [red.2.2.1]
    · rfl

/-- From `s` to `t` STATION, CONFIG and BACKLOG and the backlog count come to new values: no cycle begins, ends or comes to
its leave, and the other causes stay. -/
structure CausesMove (s t : State) : Prop where
  loader : t.loader = s.loader
  clock : t.clock = s.clock
  besides : t.start.besidesHolds = { s.start.besidesHolds with backlog := t.start.backlog }
  rest : ∀ p : Phase, p = .idle ∨ p = .gone → (t.start.phase = p ↔ s.start.phase = p)
  entries : ∀ d : HoldCause, d ≠ .station → d ≠ .config → d ≠ .backlog →
    t.start.holds.filter (fun x => x.cause = d) = s.start.holds.filter (fun x => x.cause = d)
  safe : SafeStart s t

namespace CausesMove

variable {s t u : State}

theorem of_start (start : t.start = s.start) (loader : t.loader = s.loader) (clock : t.clock = s.clock) :
    CausesMove s t :=
  ⟨loader, clock, by rw [start]; rfl, fun _ _ => by rw [start], fun _ _ _ _ => by rw [start], .of_start start⟩

theorem refl (s : State) : CausesMove s s := of_start rfl rfl rfl

theorem trans (h : CausesMove s t) (k : CausesMove t u) : CausesMove s u where
  loader := k.loader.trans h.loader
  clock := k.clock.trans h.clock
  besides := by rw [k.besides, h.besides]
  rest p r := (k.rest p r).trans (h.rest p r)
  entries d st c b := (k.entries d st c b).trans (h.entries d st c b)
  safe := h.safe.trans k.safe

/-- A change of the attempt table and the outbox. -/
theorem of_table (h : OnlyTable s t) : CausesMove s t :=
  of_start (congrArg State.start h.same :) (congrArg State.loader h.same :) (congrArg State.clock h.same :)

theorem holdWhile (s : State) {c : HoldCause} (h : c = .station ∨ c = .config ∨ c = .backlog)
    (why : Option (Nat × Nat)) : CausesMove s (s.holdWhile c why) := by
  have only := (Only.holdWhile (.refl blockStart s) c why).same
  have besides := s.holdWhile_besides c why
  have count : (s.holdWhile c why).start.backlog = s.start.backlog := (congrArg StartState.backlog besides :)
  refine ⟨(congrArg State.loader only :), (congrArg State.clock only :), by rw [besides, count]; rfl,
    fun p r => s.holdWhile_rest c why r, fun d st cf b => s.holdWhile_other ?_ why, (SafeStart.refl s).holdWhile c why⟩
  rcases h with rfl | rfl | rfl
  · exact st.symm
  · exact cf.symm
  · exact b.symm

theorem recountBacklog (s : State) : CausesMove s s.recountBacklog := by
  unfold State.recountBacklog
  split
  · exact trans (t := s.modStart (fun st => { st with backlog := s.countBacklog }))
      ⟨rfl, rfl, rfl, fun _ _ => Iff.rfl, fun _ _ _ _ => rfl, (SafeStart.refl s).modStart rfl rfl rfl⟩
      (holdWhile _ (by decide) _)
  · exact refl s

theorem rosterTake {s : State} (start : s.loader.roles.start = true) (l : LineHdr) (b : Body) :
    CausesMove s (s.rosterTake l b) := by
  obtain ⟨u, o, e⟩ := s.rosterTake_form l b
  have k : CausesMove s u :=
    of_start (congrArg State.start o.same :) (congrArg State.loader o.same :) (congrArg State.clock o.same :)
  rw [e]
  split
  · have only := u.rosterReaders_only.same
    have evaluated : CausesMove u u.evalRosterHolds := (holdWhile u (by decide) _).trans (holdWhile _ (by decide) _)
    refine k.trans (evaluated.trans (of_start (State.rosterReaders_start (by rw [k.loader]; exact start)) ?_ ?_))
    · exact (congrArg State.loader only :).trans evaluated.loader.symm
    · exact (congrArg State.clock only :).trans evaluated.clock.symm
  · exact k

/-- The line interface leaves the sequencer. -/
theorem tracked {s : State} (start : s.loader.roles.start = true) (l : LineHdr) (b : Body) :
    CausesMove s (s.tracked l b) := by
  refine (rosterTake start l b).trans ?_
  unfold State.tracked State.lineTake
  split
  · exact of_start rfl rfl rfl
  · split
    · exact of_start rfl rfl rfl
    · exact refl _
  · exact refl _

theorem settleAt (h : CausesMove s t) : t.start.settleAt = s.start.settleAt := (congrArg StartState.settleAt h.besides :)

theorem corridor (h : CausesMove s t) : t.start.corridor = s.start.corridor := (congrArg StartState.corridor h.besides :)

theorem current (h : CausesMove s t) : t.start.current = s.start.current := (congrArg StartState.current h.besides :)

theorem keptVoid (h : CausesMove s t) : t.start.keptVoid = s.start.keptVoid := (congrArg StartState.keptVoid h.besides :)

theorem standing (h : CausesMove s t) {d : HoldCause} (st : d ≠ .station) (c : d ≠ .config) (b : d ≠ .backlog) :
    t.start.standing d = s.start.standing d := StartState.standing_of_filter (h.entries d st c b)

theorem isOwn (h : CausesMove s t) (l : LineHdr) : t.isOwn l = s.isOwn l := by unfold State.isOwn; rw [h.loader]

theorem fromJury (h : CausesMove s t) (l : LineHdr) : t.fromJury l = s.fromJury l := by
  unfold State.fromJury; rw [h.loader]

end CausesMove

/-! ## A frame on its way to the sequencer -/

/-- The station as the blocks find it: the roster, the line interface and the tracker have taken the frame. -/
def State.atBlocks (s : State) (l : LineHdr) (b : Body) : State := ((s.tracked l b).track l b).1

/-- A frame that may create no record changes the table and raises notices (R40). -/
theorem State.track_onlyTable_of {s : State} {l : LineHdr} {b : Body} (creates : s.mayCreate (s.isOwn l) b = false) :
    OnlyTable s (s.track l b).1 := by
  have all := Only.refl blockTable s
  unfold State.track
  split
  · exact OnlyTable.withTable all []
  · split
    · exact all
    · split
      · exact OnlyTable.takeKnown s _ l _ _ _
      · rw [creates, if_neg Bool.false_ne_true]
        exact all.raise _

/-- At a START station the own PHASE, and at one with JURY the own CALL, alone create a record (R40). -/
def createsAtStart : Body → Bool
  | .call .. | .phase .. => true
  | _ => false

theorem State.mayCreate_start {s : State} (start : s.loader.roles.start = true) (own : Bool) {b : Body}
    (h : createsAtStart b = false) : s.mayCreate own b = false := by
  unfold State.mayCreate
  cases b <;> simp_all [createsAtStart]

section Delivered

variable {s : State} {l : LineHdr} {b : Body}

theorem State.atBlocks_onlyTable (start : s.loader.roles.start = true) (quiet : createsAtStart b = false) :
    OnlyTable (s.tracked l b) (s.atBlocks l b) :=
  State.track_onlyTable_of (State.mayCreate_start (by rw [(CausesMove.tracked start l b).loader]; exact start) _ quiet)

/-- Up to the sequencer a frame moves the roster's causes alone. -/
theorem State.atBlocks_moves (start : s.loader.roles.start = true) (quiet : createsAtStart b = false) :
    CausesMove s (s.atBlocks l b) :=
  (CausesMove.tracked start l b).trans (.of_table (State.atBlocks_onlyTable start quiet))

/-- Where its sender is PRESENT and the frame is no STATUS, it finds the sequencer as it was. -/
theorem State.atBlocks_start (start : s.loader.roles.start = true) (quiet : createsAtStart b = false)
    (status : b.kind ≠ 0x01) (present : (s.rosterAt l.sender).presence = .present) :
    (s.atBlocks l b).start = s.start := by
  have table : (s.atBlocks l b).start = (s.tracked l b).start :=
    (congrArg State.start (State.atBlocks_onlyTable (l := l) start quiet).same :)
  have roster : (s.rosterTake l b).start = s.start := by
    rw [State.rosterTake_quiet present]
    cases b with
    | status p => exact absurd rfl status
    | _ => rfl
  have line : (s.tracked l b).start = (s.rosterTake l b).start := by
    unfold State.tracked State.lineTake
    split
    · rfl
    · exact absurd rfl status
    · rfl
  exact table.trans (line.trans roster)

/-- The sequencer after a delivery is what its own stage leaves. -/
theorem State.deliver_start (base : s.loader.state.base = .run) (filter : s.passesFilter l b = true)
    (start : s.loader.roles.start = true) (quiet : createsAtStart b = false) :
    (s.deliver l b).start = ((s.atBlocks l b).startTake l b).start := by
  rw [State.deliver_passed base filter]
  refine (State.handFrame_start _ _ _ _).trans (congrArg State.start (if_pos ?_))
  show (s.atBlocks l b).loader.roles.start = true
  rw [(State.atBlocks_moves (l := l) start quiet).loader]
  exact start

end Delivered

/-- A delivered frame is delivered from a state that differs in the line interface alone. -/
theorem State.Delivers.delivery {s : State} {l : LineHdr} {b : Body} (h : s.Delivers l b) : ∃ line : LineState,
    Machine.exec (frameCommand l.rx b) s = .next (State.deliver { s with line := line } l b) ∧
    State.passesFilter { s with line := line } l b = true := by
  obtain ⟨line, event, run⟩ := h.exec_event
  have filter : s.passesFilter l b = true := h.elim (·.filter) (·.filter)
  refine ⟨line, run, ?_⟩
  unfold State.passesFilter at filter ⊢
  rwa [event]

/-- The sequencer takes a delivered frame at a state `u` that the roster's causes alone set apart from the first, and
that is not set apart where the sender is PRESENT and the frame no STATUS. -/
theorem State.Delivers.sequencer {s : State} {l : LineHdr} {b : Body} (h : s.Delivers l b)
    (start : s.loader.roles.start = true) (quiet : createsAtStart b = false) : ∃ line : LineState, ∃ u : State,
    Machine.exec (frameCommand l.rx b) s = .next (State.deliver { s with line := line } l b) ∧
    State.passesFilter { s with line := line } l b = true ∧
    u = State.atBlocks { s with line := line } l b ∧ CausesMove s u ∧
    (State.deliver { s with line := line } l b).start = (u.startTake l b).start ∧
    (b.kind ≠ 0x01 → (s.rosterAt l.sender).presence = .present → u.start = s.start) := by
  obtain ⟨line, run, filter⟩ := h.delivery
  have away : CausesMove s { s with line := line } := .of_start rfl rfl rfl
  exact ⟨line, _, run, filter, rfl, away.trans (State.atBlocks_moves start quiet),
    State.deliver_start (s := { s with line := line }) h.base filter start quiet,
    State.atBlocks_start (s := { s with line := line }) start quiet⟩

end Sys2Proof.Machine
end

section
/-! CORRIDOR and HOLD at the start station (R59, R70, R73, R74). -/

namespace Sys2Proof.Machine

open Sys2Proof

/-- A frame of no attempt but an EVENT leaves the headers of the table. -/
theorem State.deliver_headers {s : State} {l : LineHdr} {b : Body} (base : s.loader.state.base = .run)
    (filter : s.passesFilter l b = true) (event : isEvent b = false) (bare : b.hdr? = none) :
    (s.deliver l b).table.map (·.hdr) = s.table.map (·.hdr) := by
  have same : (s.tracked l b).track l b = (s.tracked l b, []) := by
    unfold State.track
    split
    · cases event
    · rw [bare]
  refine headers_of_bare ?_
  rw [State.deliver_bare base filter, same]
  exact (s.tracked_stays l b).table

theorem mem_putCorridor (e : CorridorEntry) (es : List CorridorEntry) : e ∈ putCorridor e es := by
  induction es with
  | nil => exact .head _
  | cons f fs ih =>
    unfold putCorridor
    split
    · exact .head _
    · exact .tail _ ih

/-- The sequencer after a frame that is no EVENT: the count is taken first (log entry 8). -/
theorem State.startTake_counted {b : Body} (event : isEvent b = false) (s : State) (l : LineHdr) :
    s.startTake l b = s.recountBacklog.startFrame l b := if_neg (by simp [event])

/-- A CORRIDOR from the station that holds its mast stands in the table, and WIND is evaluated on it; any other is
ignored (R73, R74). -/
theorem State.startCorridor_spec {s w : State} (m : CausesMove s w) (l : LineHdr) (mast : Nat) (x y : Int) (used : Nat)
    (f : CorridorFlags) {t : State} (start : t.start = (w.startCorridor l mast x y used f).start) :
    (s.loader.consts.mastStation mast = some l.sender →
      ⟨mast, l.sender, x, y, used, f, l.stamp, false⟩ ∈ t.start.corridor ∧ s.WindFollows t) ∧
    (s.loader.consts.mastStation mast ≠ some l.sender → t.start.corridor = s.start.corridor ∧
      t.start.settleAt = s.start.settleAt ∧
      t.start.holds.filter (fun x => x.cause = .wind) = s.start.holds.filter (fun x => x.cause = .wind)) := by
  unfold State.startCorridor at start
  rw [m.loader] at start
  refine ⟨fun own => ?_, fun other => ?_⟩
  · rw [if_pos own] at start
    refine ⟨?_, State.WindFollows.of_evalWind (u := w.modStart (fun st => { st with
      corridor := putCorridor ⟨mast, l.sender, x, y, used, f, l.stamp, false⟩ st.corridor })) m.loader m.clock
      (m.entries .wind (by decide) (by decide) (by decide)) m.settleAt
      (m.safe.modStart rfl rfl rfl).holds start⟩
    rw [start, State.evalWind_corridor]
    exact mem_putCorridor _ _
  · rw [if_neg other, State.raise_start] at start
    rw [start]
    exact ⟨m.corridor, m.settleAt, m.entries .wind (by decide) (by decide) (by decide)⟩

/-- A HOLD from the jury raises or releases JURY; any other leaves it (R70). -/
theorem State.startHold_spec {s w : State} (m : CausesMove s w) (l : LineHdr) (set : Bool) :
    (s.loader.consts.stationWith (·.jury) = some l.sender →
      (w.startFrame l (.hold set)).start.standing .jury = set ∧
      (set = true → s.HoldsSound → (w.startFrame l (.hold set)).start.phase ≠ .amber ∧
        (w.startFrame l (.hold set)).start.phase ≠ .green)) ∧
    (s.loader.consts.stationWith (·.jury) ≠ some l.sender →
      (w.startFrame l (.hold set)).start.standing .jury = s.start.standing .jury) := by
  have form : w.startFrame l (.hold set) = if w.fromJury l then w.startHold l set
    else w.raise (.frameIgnored (Body.hold set).kind l.sender) := rfl
  rw [form, m.fromJury]
  unfold State.fromJury
  refine ⟨fun jury => ?_, fun other => ?_⟩
  · rw [if_pos (by simp [jury])]
    cases set with
    | true => exact ⟨w.raiseHold_standing _ _ _, fun _ k => State.raiseHold_closed (m.safe.holds k) _ _ _⟩
    | false => exact ⟨w.releaseHold_standing _, fun k => absurd k (by decide)⟩
  · rw [if_neg (by simpa using other), State.raise_start]
    exact m.standing (by decide) (by decide) (by decide)

/-- Settles O18: the frames reach the sequencer with the roster's causes and BACKLOG moved alone (`State.atBlocks_moves`),
and are taken by `State.startCorridor_spec` and `State.startHold_spec`. -/
theorem corridorAndHoldFrames : Obligations.CorridorAndHoldFrames := by
  refine ⟨fun s l mast x y used f e h start he => ?_, fun s l set h start => ?_⟩
  · have delivers : s.Delivers l (.corridor mast x y used f) := .inl h
    obtain ⟨line, u, run, filter, -, moves, after, -⟩ := delivers.sequencer start rfl
    obtain ⟨own, other⟩ := State.startCorridor_spec (moves.trans (.recountBacklog u)) l mast x y used f
      (after.trans (congrArg State.start (State.startTake_counted rfl u l)))
    refine ⟨_, run, State.deliver_headers (s := { s with line := line }) delivers.base filter rfl rfl,
      fun holder => ?_, other⟩
    obtain ⟨stands, follows⟩ := own holder
    rw [← he] at stands
    refine ⟨stands, follows, fun sound counted fresh out => ?_⟩
    obtain ⟨raised, -⟩ := follows _ _ rfl rfl
    obtain ⟨wind, stopped, closed, -⟩ := raised (.inl (List.ne_nil_of_mem (List.mem_filter.2
      ⟨List.mem_filter.2 ⟨stands, by simp [counted, fresh]⟩, by simp [out]⟩)))
    exact ⟨wind, stopped, closed sound⟩
  · have delivers : s.Delivers l (.hold set) := .inl h
    obtain ⟨line, u, run, filter, -, moves, after, -⟩ := delivers.sequencer start rfl
    rw [State.startTake_counted rfl u l] at after
    obtain ⟨jury, other⟩ := State.startHold_spec (moves.trans (.recountBacklog u)) l set
    rw [← after] at jury other
    exact ⟨_, run, State.deliver_headers (s := { s with line := line }) delivers.base filter rfl rfl, jury, other⟩

end Sys2Proof.Machine
end

section
/-! A leave break by the phase that it finds (R66, R79). -/

namespace Sys2Proof.Machine

open Sys2Proof

/-- The station with the leave barrier broken 10 ticks ago. -/
def State.barrierBroken (s : State) : State :=
  { s with start := { s.start with barrier := .broken (s.clock - 10) } }

/-- A break of a CLEAR barrier goes to the phase rules with the instant 10 ticks before (log entry 15). -/
theorem exec_leaveBreak {s : State} (start : s.loader.roles.start = true) (clear : s.start.barrier = .clear) :
    exec .leaveBreak s = .next (s.barrierBroken.takeLeave (s.clock - 10)) := by
  refine congrArg Host.Outcome.next (if_pos ?_)
  simp [start, clear]

section TakeLeave

variable {s : State} {h : AttemptHdr} {e : Tick}

theorem State.startRuns_of (start : s.loader.roles.start = true) (run : s.loader.state = .run) : s.startRuns = true := by
  simp [State.startRuns, start, run]

/-- Outside RUN and in IDLE a leave break is stray (R58, R66). -/
theorem State.takeLeave_stray (h : s.start.phase = .idle ∨ s.loader.state ≠ .run) :
    s.takeLeave e = s.raise .strayLeave := by
  unfold State.takeLeave
  split
  · rfl
  · rename_i runs
    have idle : s.start.phase = .idle := h.resolve_right (by simp_all [State.startRuns])
    rw [idle]

/-- In GREEN, and in RED within the grace, it is the leave (R64, R66). -/
theorem State.takeLeave_leave (runs : s.startRuns = true) (current : s.start.current = some h)
    (leaves : s.start.phase = .green ∨ s.start.phase = .red ∧ s.start.graceAt.isSome = true) :
    s.takeLeave e = s.enterGone h (decide (s.start.phase = .red)) e := by
  unfold State.takeLeave
  rw [runs, current]
  rcases leaves with green | ⟨red, grace⟩
  · rw [green]
    rfl
  · rw [red, grace]
    rfl

/-- In AMBER, and in RED with no grace, it is a false start (R66). -/
theorem State.takeLeave_falseStart (runs : s.startRuns = true) (current : s.start.current = some h)
    (early : s.start.phase = .amber ∨ s.start.phase = .red ∧ s.start.graceAt = none) :
    s.takeLeave e = s.ownVoid .falseStart := by
  unfold State.takeLeave
  rw [runs, current]
  rcases early with amber | ⟨red, grace⟩
  · rw [amber]
    rfl
  · rw [red, grace]
    rfl

/-- In GONE it is ignored (R66). -/
theorem State.takeLeave_gone (runs : s.startRuns = true) (gone : s.start.phase = .gone) :
    s.takeLeave e = s.raise .leaveIgnored := by
  unfold State.takeLeave
  rw [runs, gone]
  rfl

/-- The leave and PHASE GONE go out, and their copies are kept (R60, R66, R69). -/
theorem State.enterGone_eq (current : s.start.current = some h) (held : Bool) : s.enterGone h held e =
    ((({ s with start := { s.start with
      phase := .gone, windowAt := none, graceAt := none
      keptLeave := some ⟨.leave h held, some e⟩
      keptPhase := some ⟨.phase h .gone s.start.gate 0 s.start.greenCount, none⟩ } } : State).offer
      (.leave h held) (some e)).offer (.phase h .gone s.start.gate 0 s.start.greenCount) none) :=
  State.offerPhase_eq (b := .phase h .gone s.start.gate 0 s.start.greenCount) current rfl

end TakeLeave

end Sys2Proof.Machine
end

section
/-! The other ends of a cycle (R68, R69, R72). -/

namespace Sys2Proof.Machine

open Sys2Proof

/-! ## The list at a backlog count (R72) -/

theorem State.holdsAtBacklog_congr {s t : State} (start : t.start = s.start) (loader : t.loader = s.loader)
    (clock : t.clock = s.clock) (n : Nat) : t.holdsAtBacklog n = s.holdsAtBacklog n := by
  unfold State.holdsAtBacklog
  rw [start, loader, clock]

/-- A count of 0 releases BACKLOG. -/
theorem State.holdsAtBacklog_zero (s : State) : s.holdsAtBacklog 0 =
    if s.start.backlog = 0 then s.start.holds else s.start.holds.filter (fun x => x.cause ≠ .backlog) := by
  unfold State.holdsAtBacklog
  rw [if_pos (Nat.eq_zero_or_pos _)]
  exact if_congr eq_comm rfl rfl

/-- A count that comes to the same number changes nothing (R55). -/
theorem State.recountBacklog_eq_self {s : State} (start : s.loader.roles.start = true)
    (same : s.recountBacklog.start.backlog = s.start.backlog) : s.recountBacklog = s := by
  rw [State.recountBacklog_backlog s start] at same
  exact if_neg (by simp [same])

/-- At rest a count changes the count and the hold list alone. -/
theorem State.recountBacklog_start_atRest {s : State} (start : s.loader.roles.start = true)
    (rest : s.start.atRest = true) : s.recountBacklog.start =
      { s.start with backlog := s.countBacklog, holds := s.holdsAtBacklog s.countBacklog } := by
  have count := s.recountBacklog_backlog start
  have list := s.recountBacklog_holds start
  have settle : s.recountBacklog.start.settleAt = s.start.settleAt := (CausesMove.recountBacklog s).settleAt
  obtain ⟨backlog, holds, settleAt, notices, overrun, e⟩ := State.recountBacklog_atRest rest
  rw [e] at count list settle ⊢
  dsimp only at count list settle ⊢
  rw [count, list, settle]

/-! ## The end of a cycle -/

theorem StartState.isCurrent_iff (st : StartState) (n : Nat) :
    st.isCurrent n = true ↔ st.current.map (·.attempt) = some n := by
  unfold StartState.isCurrent
  split <;> simp [*]

theorem dropDelivered_eq (k : Option KeptFrame) (b : Body) :
    dropDelivered k b = if k.map (·.body) = some b then none else k := by
  cases k with
  | none => rfl
  | some f => simp [dropDelivered]

/-- A cycle that ends where the roster's causes and BACKLOG alone have moved. -/
theorem CausesMove.cycleEnds {s w t : State} (m : CausesMove s w) {sender backlog : Nat} {kept : Option KeptFrame}
    {hs : List Hold} (after : t.start = { w.start.atIdle with
      keptVoid := kept, backlog := backlog, holds := hs.filter (fun x => x.cause ≠ .coach) })
    (present : (s.rosterAt sender).presence = .present → hs = s.holdsAtBacklog backlog) : s.CycleEnds t sender kept := by
  have others : w.start.atIdle = { s.start.atIdle with backlog := w.start.backlog, holds := w.start.holds } := by
    rw [show w.start.atIdle = { w.start.besidesHolds.atIdle with holds := w.start.holds } from rfl, m.besides]
    rfl
  refine ⟨by rw [after, others], ?_, fun p => ?_⟩
  · rw [StartState.not_standing_iff, after]
    simp
  · rw [after, present p]

/-- The copy of an own VOID that remains at the delivery of a VOID (R69). -/
def State.remainingVoid (s : State) (l : LineHdr) (b : Body) : Option KeptFrame :=
  if s.isOwn l then dropDelivered s.start.keptVoid b else s.start.keptVoid

theorem State.remainingVoid_eq (s : State) (l : LineHdr) (b : Body) : s.remainingVoid l b =
    if l.sender = s.loader.station ∧ s.start.keptVoid.map (·.body) = some b then none else s.start.keptVoid := by
  unfold State.remainingVoid State.isOwn
  rw [dropDelivered_eq]
  by_cases own : l.sender = s.loader.station <;> simp [own]

/-- Ends the cycle of an attempt in a phase other than IDLE. -/
theorem State.endCycleOf_start (s : State) (n : Nat) :
    (if s.start.phase ≠ .idle ∧ s.start.isCurrent n = true then s.endCycle else s).start =
      if s.start.phase ≠ .idle ∧ s.start.current.map (·.attempt) = some n then
        { s.start.atIdle with holds := s.start.holds.filter (fun x => x.cause ≠ .coach) }
      else s.start := by
  simp only [StartState.isCurrent_iff]
  split
  · exact s.endCycle_start
  · rfl

/-- A VOID of the jury's or the station's own ends the cycle of its attempt; any other leaves it (R68, R69). -/
theorem State.startVoid_start (s : State) (l : LineHdr) (h : AttemptHdr) (b : Body) : (s.startVoid l h b).start =
    if (s.fromJury l = true ∨ s.isOwn l = true) ∧ s.start.phase ≠ .idle ∧
      s.start.current.map (·.attempt) = some h.attempt then
      { s.start.atIdle with
        keptVoid := s.remainingVoid l b, holds := s.start.holds.filter (fun x => x.cause ≠ .coach) }
    else { s.start with keptVoid := s.remainingVoid l b } := by
  have dropped : (if s.isOwn l then s.modStart (fun st => { st with keptVoid := dropDelivered st.keptVoid b })
      else s).start = { s.start with keptVoid := s.remainingVoid l b } := by
    unfold State.remainingVoid
    split <;> rfl
  unfold State.startVoid
  by_cases taken : s.fromJury l = true ∨ s.isOwn l = true
  · rw [if_pos (by simpa using taken)]
    refine (State.endCycleOf_start _ _).trans ?_
    rw [dropped]
    by_cases ends : s.start.phase ≠ .idle ∧ s.start.current.map (·.attempt) = some h.attempt
    · exact (if_pos ends).trans (if_pos ⟨taken, ends⟩).symm
    · exact (if_neg ends).trans (if_neg (fun k => ends k.2)).symm
  · rw [if_neg (by simpa using taken), if_neg (fun k => taken k.1)]
    have other : s.remainingVoid l b = s.start.keptVoid := if_neg (fun own => taken (.inr own))
    rw [other]

/-- A frame that gives the attempt's landing, mean or result ends its cycle in GONE (R68). -/
theorem State.startLanded_start (s : State) (h : AttemptHdr) : (s.startLanded h).start =
    if s.start.phase = .gone ∧ s.start.current.map (·.attempt) = some h.attempt then
      { s.start.atIdle with holds := s.start.holds.filter (fun x => x.cause ≠ .coach) }
    else s.start := by
  unfold State.startLanded
  simp only [StartState.isCurrent_iff]
  split
  · exact s.endCycle_start
  · rfl

/-- The sequencer at an EVENT, before the count (R54, R68). -/
theorem State.startFrame_event_start (s : State) (l : LineHdr) (n : Nat) (m : EventMode) (rounds : Nat) :
    (s.startFrame l (.event n m rounds)).start = if s.start.phase = .idle then { s.start with keptVoid := none }
      else { s.start.atIdle with keptVoid := none, holds := s.start.holds.filter (fun x => x.cause ≠ .coach) } := by
  show { (if s.start.phase = .idle then s else s.endCycle).start with keptVoid := none } = _
  split
  · rfl
  · rw [State.endCycle_start]

/-- What the sequencer is after an EVENT has emptied the table (R54, R55, R68, R72; log entry 8). -/
theorem State.startTake_event_start {s : State} (start : s.loader.roles.start = true) (empty : s.table = []) (l : LineHdr)
    (n : Nat) (m : EventMode) (rounds : Nat) : (s.startTake l (.event n m rounds)).start =
      if s.start.phase = .idle then { s.start with keptVoid := none, backlog := 0, holds := s.holdsAtBacklog 0 }
      else { s.start.atIdle with
        keptVoid := none, backlog := 0, holds := (s.holdsAtBacklog 0).filter (fun x => x.cause ≠ .coach) } := by
  have only := ((Only.refl blockStart s).startFrame l (.event n m rounds)).same
  have loader : (s.startFrame l (.event n m rounds)).loader = s.loader := (congrArg State.loader only :)
  have table : (s.startFrame l (.event n m rounds)).table = [] := (congrArg State.table only :).trans empty
  have count : (s.startFrame l (.event n m rounds)).countBacklog = 0 := by simp [State.countBacklog, table]
  have form := s.startFrame_event_start l n m rounds
  show (s.startFrame l (.event n m rounds)).recountBacklog.start = _
  rw [State.recountBacklog_start_atRest (by rw [loader]; exact start), count, State.holdsAtBacklog_zero,
    State.holdsAtBacklog_zero, form]
  · by_cases idle : s.start.phase = .idle
    · simp only [if_pos idle]
    · simp only [if_neg idle]
      by_cases zero : s.start.backlog = 0
      · simp [StartState.atIdle, zero]
      · simp [StartState.atIdle, zero, List.filter_filter, Bool.and_comm]
  · rw [form]
    split
    · simp [StartState.atRest, *]
    · rfl

/-! ## The frames -/

/-- A delivered frame that is no EVENT and no STATUS is taken with the count made: the roster's causes and BACKLOG have
moved, and where the sender is PRESENT only BACKLOG, by the count. -/
theorem State.Delivers.taken {s : State} {l : LineHdr} {b : Body} (h : s.Delivers l b)
    (start : s.loader.roles.start = true) (quiet : createsAtStart b = false) (event : isEvent b = false)
    (status : b.kind ≠ 0x01) : ∃ t w : State, Machine.exec (frameCommand l.rx b) s = .next t ∧ CausesMove s w ∧
      t.start = (w.startFrame l b).start ∧
      ((s.rosterAt l.sender).presence = .present → w.start.holds = s.holdsAtBacklog w.start.backlog ∧
        (w.start.backlog = s.start.backlog → w.start = s.start)) := by
  obtain ⟨line, u, run, -, -, moves, after, same⟩ := h.sequencer start quiet
  have role : u.loader.roles.start = true := by rw [moves.loader]; exact start
  rw [State.startTake_counted event u l] at after
  refine ⟨_, _, run, moves.trans (.recountBacklog u), after, fun present => ?_⟩
  have before := same status present
  refine ⟨?_, fun count => ?_⟩
  · rw [u.recountBacklog_holds role, u.recountBacklog_backlog role,
      State.holdsAtBacklog_congr before moves.loader moves.clock]
  · rw [State.recountBacklog_eq_self role (by rw [count, before]), before]

/-- The kinds of R68 that end a cycle in GONE, as the sequencer takes them. -/
theorem landedFrame {b : Body} {h : AttemptHdr} (kinds : (∃ d q nt lc, b = .landing h d q nt lc) ∨
    (∃ m mean used part, b = .mastMean h m mean used part) ∨ ∃ r, b = .result r ∧ r.hdr = h) :
    createsAtStart b = false ∧ isEvent b = false ∧ b.kind ≠ 0x01 ∧
    ∀ (w : State) (l : LineHdr), w.startFrame l b = w.startLanded h := by
  rcases kinds with ⟨d, q, nt, lc, rfl⟩ | ⟨m, mean, used, part, rfl⟩ | ⟨r, rfl, rfl⟩
  · exact ⟨rfl, rfl, fun k => absurd k (by simp [Body.kind]), fun _ _ => rfl⟩
  · exact ⟨rfl, rfl, fun k => absurd k (by simp [Body.kind]), fun _ _ => rfl⟩
  · exact ⟨rfl, rfl, fun k => absurd k (by simp [Body.kind]), fun _ _ => rfl⟩

/-- Settles O31: the break by `State.takeLeave`'s equations, and the frames by what the sequencer's stage leaves
(`State.startVoid_start`, `State.startLanded_start`, `State.startTake_event_start`) and `CausesMove.cycleEnds`. -/
theorem leaveBreakByPhase : Obligations.LeaveBreakByPhase := by
  refine ⟨fun s at_ h start run clear current he => ?_, fun s start clear stray => ?_, fun s closed => ?_,
    fun s l h why kept delivers start hk => ?_, fun s l b h delivers start kinds => ?_,
    fun s l n m rounds delivers start => ?_⟩
  · subst he
    have runs := State.startRuns_of start run
    refine ⟨fun leaves => ?_, fun early => ?_, fun gone => ?_⟩
    · rw [exec_leaveBreak start clear, State.takeLeave_leave (s := s.barrierBroken) runs current leaves,
        State.enterGone_eq (s := s.barrierBroken) current]
      rfl
    · rw [exec_leaveBreak start clear, State.takeLeave_falseStart (s := s.barrierBroken) runs current early,
        State.ownVoid_eq (s := s.barrierBroken) current]
      rfl
    · rw [exec_leaveBreak start clear, State.takeLeave_gone (s := s.barrierBroken) runs gone]
      rfl
  · rw [exec_leaveBreak start clear, State.takeLeave_stray (s := s.barrierBroken) stray]
    rfl
  · refine congrArg Host.Outcome.next (if_neg ?_)
    rcases closed with off | other <;> simp [*]
  · obtain ⟨t, w, run, moves, after, present⟩ := delivers.taken start rfl rfl (by simp [Body.kind])
    rw [show w.startFrame l (.void h why) = w.startVoid l h (.void h why) from rfl, State.startVoid_start,
      State.remainingVoid_eq, moves.loader, moves.keptVoid, ← hk, moves.fromJury, moves.isOwn, moves.current] at after
    have idle := moves.rest .idle (.inl rfl)
    have sender : (s.fromJury l = true ∨ s.isOwn l = true) ↔
        s.loader.consts.stationWith (·.jury) = some l.sender ∨ l.sender = s.loader.station := by
      simp [State.fromJury, State.isOwn]
    refine ⟨t, run, fun of_sender current phase => ?_, fun other here count => ?_⟩
    · rw [if_pos ⟨sender.2 of_sender, mt idle.1 phase, current⟩] at after
      exact moves.cycleEnds after (fun here => (present here).1)
    · rw [if_neg (by tauto)] at after
      rw [after] at count ⊢
      rw [(present here).2 count]
  · obtain ⟨quiet, event, status, form⟩ := landedFrame kinds
    obtain ⟨t, w, run, moves, after, present⟩ := delivers.taken start quiet event status
    rw [form, State.startLanded_start, moves.current] at after
    have inGone := moves.rest .gone (.inr rfl)
    refine ⟨t, run, fun current gone => ?_, fun other here count => ?_⟩
    · rw [if_pos ⟨inGone.2 gone, current⟩] at after
      rw [← moves.keptVoid]
      exact moves.cycleEnds after (fun here => (present here).1)
    · rw [if_neg (by tauto)] at after
      rw [after] at count ⊢
      exact (present here).2 count
  · obtain ⟨line, u, run, -, hu, moves, after, same⟩ := delivers.sequencer start rfl
    have empty : u.table = [] := by rw [hu]; rfl
    rw [State.startTake_event_start (by rw [moves.loader]; exact start) empty] at after
    simp only [moves.rest .idle (.inl rfl)] at after
    have list : (s.rosterAt l.sender).presence = .present → u.holdsAtBacklog 0 = s.holdsAtBacklog 0 := fun here =>
      State.holdsAtBacklog_congr (same (by simp [Body.kind]) here) moves.loader moves.clock 0
    refine ⟨_, run, ?_, fun phase => ?_, fun idle here => ?_⟩
    · rw [after]
      split <;> rfl
    · rw [if_neg phase] at after
      exact moves.cycleEnds after list
    · rw [if_pos idle, list here, same (by simp [Body.kind]) here] at after
      exact after

end Sys2Proof.Machine
end

section
/-! The edge timer: the breaks of barriers A, B and T, and the speed between two of them (R83 to R88). -/

namespace Sys2Proof.Machine

open Sys2Proof

/-! ## The speed (R87) -/

/-- A whole number that a quotient reaches, its rounding reaches. -/
theorem le_roundHalfUp {m a b : Nat} (pos : 0 < b) (h : m * b ≤ a) : m ≤ roundHalfUp a b := by
  unfold roundHalfUp
  rw [Nat.le_div_iff_mul_le (by omega), Nat.mul_left_comm]
  omega

/-- A whole number that a quotient does not pass, its rounding does not pass. -/
theorem roundHalfUp_le {m a b : Nat} (pos : 0 < b) (h : a ≤ m * b) : roundHalfUp a b ≤ m := by
  unfold roundHalfUp
  rw [← Nat.lt_add_one_iff, Nat.div_lt_iff_lt_mul (by omega), Nat.mul_left_comm, Nat.add_one_mul m]
  omega

theorem speedPlausible_iff (k : EdgeConsts) (t : Nat) : speedPlausible k t = true ↔
    k.speedMin * t ≤ k.spacingMm * 36000 ∧ k.spacingMm * 36000 ≤ k.speedMax * t := by
  simp [speedPlausible]

theorem speedPlausible_eq_false_iff (k : EdgeConsts) (t : Nat) : speedPlausible k t = false ↔
    k.spacingMm * 36000 < k.speedMin * t ∨ k.speedMax * t < k.spacingMm * 36000 := by
  rw [Bool.eq_false_iff, ne_eq, speedPlausible_iff]
  omega

/-- Settles O36: the limits are whole numbers, so the rounding keeps the quotient between them (`le_roundHalfUp`,
`roundHalfUp_le`). -/
theorem speedLiesBetweenItsLimits : Obligations.SpeedLiesBetweenItsLimits := by
  refine ⟨speedPlausible_iff, fun k t pos passes => ?_, fun k spacing => by omega, ?_⟩
  · obtain ⟨low, high⟩ := (speedPlausible_iff k t).1 passes
    exact ⟨rfl, le_roundHalfUp pos low, roundHalfUp_le pos high⟩
  · rintro k rfl
    decide

/-! ## The run record to which a break is attributed (R84) -/

theorem EdgeState.runOf_eq_false_iff (e : EdgeState) (n : Nat) :
    e.runOf n = false ↔ ∀ run, e.run = some run → run.hdr.attempt ≠ n := by
  unfold EdgeState.runOf
  split <;> simp [*]

/-- The run record held for the attempt stays. -/
theorem EdgeState.runFor_held {e : EdgeState} {run : RunRecord} {h : AttemptHdr} (held : e.run = some run)
    (hdr : run.hdr = h) : e.runFor h = e := by
  have own : e.runOf h.attempt = true := by simp [EdgeState.runOf, held, hdr]
  exact if_pos own

/-- Where none is held for the attempt, a new one takes the place, and the kept frames go. -/
theorem EdgeState.runFor_new {e : EdgeState} {h : AttemptHdr}
    (other : ∀ run, e.run = some run → run.hdr.attempt ≠ h.attempt) :
    e.runFor h = { e with run := some { hdr := h }, keptSpeed := none, keptTakeoff := none } := by
  unfold EdgeState.runFor
  rw [(e.runOf_eq_false_iff _).2 other]
  rfl

/-- A barrier's state has no part in the choice of the run record. -/
theorem EdgeState.runFor_setBarrier (e : EdgeState) (x : EdgeBarrier) (v : BarrierState) (h : AttemptHdr) :
    (e.setBarrier x v).runFor h = (e.runFor h).setBarrier x v := by
  have same : (e.setBarrier x v).runOf h.attempt = e.runOf h.attempt := by simp [EdgeState.runOf]
  unfold EdgeState.runFor
  rw [same]
  split
  · rfl
  · cases x <;> rfl

/-! ## A break is taken (R83, R84; log entry 15) -/

theorem exec_barrierABreak (s : State) : exec .barrierABreak s = .next (s.edgeBreak .a State.breakA) := rfl

theorem exec_barrierBBreak (s : State) : exec .barrierBBreak s = .next (s.edgeBreak .b State.breakB) := rfl

theorem exec_barrierTBreak (s : State) :
    exec .barrierTBreak s = .next (s.edgeBreak .t (fun s run t _ => s.breakT run t)) := rfl

theorem State.onInrun_withEdge (s : State) (e : EdgeState) : State.onInrun { s with edge := e } = s.onInrun := rfl

/-- A break with nobody on the inrun is stray. -/
theorem State.attributeBreak_stray {s : State} (nobody : s.onInrun = none) (x : EdgeBarrier) (t : Tick)
    (act : State → RunRecord → State) : s.attributeBreak x t act = s.raise (.strayBreak x t) := by
  unfold State.attributeBreak
  rw [nobody]

/-- A break with an attempt on the inrun goes to that attempt's run record. -/
theorem State.attributeBreak_onInrun {s : State} {r : AttemptRecord} {run : RunRecord} (inrun : s.onInrun = some r)
    (record : (s.edge.runFor r.hdr).run = some run) (x : EdgeBarrier) (t : Tick) (act : State → RunRecord → State) :
    s.attributeBreak x t act = act { s with edge := s.edge.runFor r.hdr } run := by
  unfold State.attributeBreak
  rw [inrun]
  simp only [State.modEdge, record, Option.getD_some]

section EdgeBreak

variable {s : State} {x : EdgeBarrier} {act : State → RunRecord → Tick → Micros → State}

/-- No break is taken without the role, or of a barrier that is not CLEAR. -/
theorem State.edgeBreak_not_taken (h : s.loader.roles.edge = false ∨ s.edge.barrier x ≠ .clear) :
    s.edgeBreak x act = s := by
  refine if_neg ?_
  rcases h with off | notClear <;> simp [*]

/-- A break of a CLEAR barrier leaves it BROKEN, and is attributed. -/
theorem State.edgeBreak_taken (edge : s.loader.roles.edge = true) (clear : s.edge.barrier x = .clear) :
    s.edgeBreak x act = State.attributeBreak { s with edge := s.edge.setBarrier x (.broken (s.clock - 10)) } x
      (s.clock - 10) (fun w run => act w run (s.clock - 10) (s.edge.micros - 1000)) :=
  if_pos (by simp [edge, clear])

theorem State.edgeBreak_stray (edge : s.loader.roles.edge = true) (clear : s.edge.barrier x = .clear)
    (nobody : s.onInrun = none) : s.edgeBreak x act =
      State.raise { s with edge := s.edge.setBarrier x (.broken (s.clock - 10)) } (.strayBreak x (s.clock - 10)) :=
  (State.edgeBreak_taken edge clear).trans (State.attributeBreak_stray ((s.onInrun_withEdge _).trans nobody) _ _ _)

theorem State.edgeBreak_onInrun {r : AttemptRecord} {e : EdgeState} {run : RunRecord}
    (edge : s.loader.roles.edge = true) (clear : s.edge.barrier x = .clear) (inrun : s.onInrun = some r)
    (chosen : s.edge.runFor r.hdr = e) (record : e.run = some run) : s.edgeBreak x act =
      act { s with edge := e.setBarrier x (.broken (s.clock - 10)) } run (s.clock - 10) (s.edge.micros - 1000) := by
  subst chosen
  rw [State.edgeBreak_taken edge clear, State.attributeBreak_onInrun ((s.onInrun_withEdge _).trans inrun)
    (by rw [EdgeState.runFor_setBarrier, EdgeState.setBarrier_run, record]), EdgeState.runFor_setBarrier]

end EdgeBreak

section OnInrun

variable {s : State} {r : AttemptRecord} {e : EdgeState} {run : RunRecord}

theorem exec_barrierABreak_onInrun (edge : s.loader.roles.edge = true) (clear : s.edge.a = .clear)
    (inrun : s.onInrun = some r) (chosen : s.edge.runFor r.hdr = e) (record : e.run = some run) :
    exec .barrierABreak s = .next (State.breakA { s with edge := { e with a := .broken (s.clock - 10) } } run
      (s.clock - 10) (s.edge.micros - 1000)) :=
  congrArg Host.Outcome.next (State.edgeBreak_onInrun (x := .a) edge clear inrun chosen record)

theorem exec_barrierBBreak_onInrun (edge : s.loader.roles.edge = true) (clear : s.edge.b = .clear)
    (inrun : s.onInrun = some r) (chosen : s.edge.runFor r.hdr = e) (record : e.run = some run) :
    exec .barrierBBreak s = .next (State.breakB { s with edge := { e with b := .broken (s.clock - 10) } } run
      (s.clock - 10) (s.edge.micros - 1000)) :=
  congrArg Host.Outcome.next (State.edgeBreak_onInrun (x := .b) edge clear inrun chosen record)

theorem exec_barrierTBreak_onInrun (edge : s.loader.roles.edge = true) (clear : s.edge.t = .clear)
    (inrun : s.onInrun = some r) (chosen : s.edge.runFor r.hdr = e) (record : e.run = some run) :
    exec .barrierTBreak s = .next (State.breakT { s with edge := { e with t := .broken (s.clock - 10) } } run
      (s.clock - 10)) :=
  congrArg Host.Outcome.next (State.edgeBreak_onInrun (x := .t) edge clear inrun chosen record)

end OnInrun

/-! ## What a break does to the run record (R85, R86, R88) -/

section Break

variable {s : State} {run : RunRecord} {t : Tick} {us : Micros}

/-- The first A break, before B and T, sets the A time. -/
theorem State.breakA_sets (first : run.aTime = none) (b : run.bTaken = false) (tk : run.tTaken = false) :
    s.breakA run t us = s.modEdge (fun e => { e with run := some { run with aTime := some (t, us) } }) :=
  if_pos (by simp [first, b, tk])

theorem State.breakA_ignored (late : run.aTime ≠ none ∨ run.bTaken = true ∨ run.tTaken = true) :
    s.breakA run t us = s.raise (.breakIgnored run.hdr.attempt .a) := by
  refine if_neg ?_
  rcases late with a | b | tk
  · simp [Option.isNone_iff_eq_none, a]
  · simp [b]
  · simp [tk]

/-- The first T break offers the TAKEOFF and keeps its copy. -/
theorem State.breakT_offers (first : run.tTaken = false) : s.breakT run t =
    (s.modEdge (fun e => { e with
      run := some { run with tTaken := true }
      keptTakeoff := some ⟨.takeoff run.hdr (!run.speedOffered), some t⟩ })).offer
      (.takeoff run.hdr (!run.speedOffered)) (some t) :=
  if_neg (by simp [first])

theorem State.breakT_ignored (second : run.tTaken = true) :
    s.breakT run t = s.raise (.breakIgnored run.hdr.attempt .t) := if_pos second

theorem State.breakB_ignored (late : run.bTaken = true ∨ run.tTaken = true) :
    s.breakB run t us = s.raise (.breakIgnored run.hdr.attempt .b) := by
  refine if_neg ?_
  rcases late with b | tk <;> simp [*]

/-- The state in which a B break has been taken, before its speed. -/
def State.withBTaken (s : State) (run : RunRecord) : State :=
  s.modEdge (fun e => { e with run := some { run with bTaken := true } })

/-- A B break with no A time. -/
theorem State.breakB_missing (b : run.bTaken = false) (tk : run.tTaken = false) (a : run.aTime = none) :
    s.breakB run t us = (s.withBTaken run).raise (.speedMissing run.hdr.attempt) := by
  cases run
  cases b
  cases tk
  cases a
  rfl

variable {ta : Tick} {ua : Micros}

/-- A B break after an A break: the 2 s and then the interval are tested. -/
theorem State.breakB_tested (b : run.bTaken = false) (tk : run.tTaken = false) (a : run.aTime = some (ta, ua)) :
    s.breakB run t us =
      if 20000 < since t ta then (s.withBTaken run).raise (.speedImplausible run.hdr.attempt none)
      else if speedPlausible s.loader.consts.edge (us - ua).toNat then
        ((s.withBTaken run).modEdge (fun e => { e with
          run := some { run with bTaken := true, speedOffered := true }
          keptSpeed := some ⟨.speed run.hdr (speedOf s.loader.consts.edge (us - ua).toNat), some t⟩ })).offer
          (.speed run.hdr (speedOf s.loader.consts.edge (us - ua).toNat)) (some t)
      else (s.withBTaken run).raise (.speedImplausible run.hdr.attempt (some (us - ua))) := by
  cases run
  cases b
  cases tk
  cases a
  rfl

end Break

/-! ## The statements -/

/-- Settles O34: `State.edgeBreak_onInrun` names the run record that takes the break, the one held or a new one, and
the equations of `State.breakA`, `State.breakB` and `State.breakT` say what it does there. -/
theorem barrierBreaks : Obligations.BarrierBreaks := by
  refine ⟨fun s x c edge clear hc nobody => ?_, fun s r run edge inrun held hdr => ⟨fun clear => ⟨?_, ?_⟩,
    fun clear => ⟨?_, ?_⟩⟩, fun s r edge inrun other => ⟨fun clear => ?_, fun clear => ?_, fun clear => ?_⟩,
    fun s => ⟨fun h => ?_, fun h => ?_, fun h => ?_⟩⟩
  · have empty : s.onInrun = none := List.find?_eq_none.2 fun r m => by simpa using nobody r m
    subst hc
    cases x with
    | a => rw [exec_barrierABreak, State.edgeBreak_stray edge clear empty]
    | b => rw [exec_barrierBBreak, State.edgeBreak_stray edge clear empty]
    | t => rw [exec_barrierTBreak, State.edgeBreak_stray edge clear empty]
  · rintro ⟨a, b, tk⟩
    rw [exec_barrierABreak_onInrun edge clear inrun (EdgeState.runFor_held held hdr) held,
      State.breakA_sets a b tk]
    rfl
  · intro late
    rw [exec_barrierABreak_onInrun edge clear inrun (EdgeState.runFor_held held hdr) held,
      State.breakA_ignored late, hdr]
  · intro first
    rw [exec_barrierTBreak_onInrun edge clear inrun (EdgeState.runFor_held held hdr) held,
      State.breakT_offers first, ← hdr]
    rfl
  · intro second
    rw [exec_barrierTBreak_onInrun edge clear inrun (EdgeState.runFor_held held hdr) held,
      State.breakT_ignored second, hdr]
  · rw [exec_barrierABreak_onInrun edge clear inrun (EdgeState.runFor_new other) rfl,
      State.breakA_sets rfl rfl rfl]
    rfl
  · rw [exec_barrierBBreak_onInrun edge clear inrun (EdgeState.runFor_new other) rfl,
      State.breakB_missing rfl rfl rfl]
    rfl
  · rw [exec_barrierTBreak_onInrun edge clear inrun (EdgeState.runFor_new other) rfl,
      State.breakT_offers rfl]
    rfl
  · exact congrArg Host.Outcome.next (State.edgeBreak_not_taken h)
  · exact congrArg Host.Outcome.next (State.edgeBreak_not_taken h)
  · exact congrArg Host.Outcome.next (State.edgeBreak_not_taken h)

/-- Settles O35: the break goes to the run record held (`State.edgeBreak_onInrun`), and there the A time, the 2 s and
the plausibility test decide, each once. -/
theorem speedFromTwoBreaks : Obligations.SpeedFromTwoBreaks := by
  rintro s r run taken edge clear inrun held hdr rfl
  rw [exec_barrierBBreak_onInrun edge clear inrun (EdgeState.runFor_held held hdr) held, ← hdr]
  refine ⟨fun b tk => ⟨fun a => ?_, fun ta ua a => ⟨fun apart => ?_, ?_⟩⟩, fun late => ?_⟩
  · rw [State.breakB_missing b tk a]
    rfl
  · rw [State.breakB_tested b tk a, if_pos apart]
    rfl
  · rintro k us rfl rfl near
    rw [State.breakB_tested b tk a, if_neg near.not_gt]
    refine ⟨fun low high => ?_, fun outside => ?_⟩
    · rw [if_pos ((speedPlausible_iff _ _).2 ⟨low, high⟩)]
      rfl
    · rw [if_neg (Bool.eq_false_iff.1 ((speedPlausible_eq_false_iff _ _).2 outside))]
      rfl
  · rw [State.breakB_ignored late]

end Sys2Proof.Machine
end

section
/-! The wind unit's bus, its polls and its console service, said once: the wind unit, the fault latch and the replies
that each operation leaves, and a waiting command that none of them looks at (R92 to R99). -/

namespace Sys2Proof.Machine

open Sys2Proof

/-! ## What an operation makes of the wind unit -/

/-- From `s` to `t` the wind unit becomes `w` and the fault latch `l`, notices are raised, and nothing else changes. -/
structure State.Becomes (s : State) (w : WindState) (l : FaultLatch) (t : State) : Prop where
  wind : t.wind = w
  latch : t.latch = l
  replies : t.console.replies = s.console.replies
  frame : { t with wind := s.wind, latch := s.latch, console := s.console } = s

namespace State.Becomes

variable {s t u : State} {w v : WindState} {l k : FaultLatch}

theorem clock (h : s.Becomes w l t) : t.clock = s.clock := (congrArg State.clock h.frame :)

theorem loader (h : s.Becomes w l t) : t.loader = s.loader := (congrArg State.loader h.frame :)

theorem refl (s : State) : s.Becomes s.wind s.latch s := ⟨rfl, rfl, rfl, rfl⟩

theorem trans (h : s.Becomes w l t) (q : t.Becomes v k u) : s.Becomes v k u := by
  refine ⟨q.wind, q.latch, q.replies.trans h.replies, ?_⟩
  calc ({ u with wind := s.wind, latch := s.latch, console := s.console } : State)
      = { ({ u with wind := t.wind, latch := t.latch, console := t.console } : State) with
          wind := s.wind, latch := s.latch, console := s.console } := rfl
    _ = s := by rw [q.frame, h.frame]

theorem modWind (s : State) (f : WindState → WindState) : s.Becomes (f s.wind) s.latch (s.modWind f) :=
  ⟨rfl, rfl, rfl, rfl⟩

theorem setBus (s : State) (b : BusState) : s.Becomes { s.wind with bus := b } s.latch (s.setBus b) := by
  obtain ⟨con, e, r⟩ := s.setBus_form b
  exact ⟨by rw [e], by rw [e], by rw [e, r], by rw [e]⟩

theorem setStable (s : State) (v : Bool) : s.Becomes { s.wind with stable := v } s.latch (s.setStable v) := by
  obtain ⟨con, e, r⟩ := s.setStable_form v
  exact ⟨by rw [e], by rw [e], by rw [e, r], by rw [e]⟩

theorem report (s : State) (f : FaultKind) (d : Nat) :
    s.Becomes s.wind (s.latch.take f s.clock d) (s.report f d) :=
  ⟨rfl, rfl, ConsoleState.raise_replies .., rfl⟩

theorem endTransaction (s : State) (o : TransferOutcome) (items : List BusItem) :
    s.Becomes { s.wind with sends := cutShort o items, bus := .free } s.latch (s.endTransaction o items) :=
  (modWind s (fun w => { w with sends := cutShort o items })).trans (setBus _ _)

theorem beginTransaction (s : State) (b : BusState) (items : List BusItem) :
    s.Becomes { s.wind with sends := items, bus := b } s.latch (s.beginTransaction b items) :=
  (modWind s (fun w => { w with sends := items })).trans (setBus _ _)

theorem beginBurst (s : State) (ordered fromHung : Bool) :
    s.Becomes { s.wind with sends := burstSends, bus := .releasing ordered fromHung } s.latch
      (s.beginBurst ordered fromHung) :=
  (modWind s (fun w => { w with sends := burstSends })).trans (setBus _ _)

theorem setMaster (s : State) (m : MasterSelect) : s.Becomes (if s.wind.master = m then s.wind else
    { s.wind with
      master := m, goodCount := 0, heldCount := 0, noAnswer := 0, lastGood := none, lastSequence := none
      stable := false }) s.latch (s.setMaster m) := by
  obtain ⟨con, e, r⟩ := s.setMaster_form m
  exact ⟨by rw [e], by rw [e], by rw [e, r], by rw [e]⟩

/-- A hang starts the automatic burst, and SENSOR_HUNG is reported with the address in use (R95). -/
theorem detectHang (s : State) (address : Nat) :
    s.Becomes { s.wind with sends := burstSends, bus := .releasing false false }
      (s.latch.take .sensorHung s.clock address) (s.detectHang address) := by
  have burst := beginBurst s false false
  have hang := report (s.beginBurst false false) .sensorHung address
  rw [burst.wind, burst.latch, burst.clock] at hang
  exact burst.trans hang

end State.Becomes

/-! ## Polls that fail, that are not answered, and good ones (R93, R94, R103) -/

/-- The wind unit after a failed poll (R94). -/
def WindState.failed (w : WindState) (now : Tick) : WindState :=
  match w.lastGood with
  | none => { w with goodCount := 0 }
  | some (x, y) =>
    if w.heldCount < 10 then
      { w with goodCount := 0, ring := pushSample w.ring ⟨now, x, y, true⟩, heldCount := w.heldCount + 1 }
    else { w with goodCount := 0, lastGood := none, stable := false }

/-- The newest sample of the ring is the one entered last. -/
theorem pushSample_getLast? (ring : List Sample) (x : Sample) : (pushSample ring x).getLast? = some x := by
  unfold pushSample
  split <;> simp

namespace WindState

variable (w : WindState) (now : Tick)

/-- A failed poll sets the good-poll count to 0, and touches the ring, what is held and the stability alone (R94). -/
theorem failed_form : ∃ ring held last stable, w.failed now =
    { w with goodCount := 0, ring := ring, heldCount := held, lastGood := last, stable := stable } := by
  unfold failed
  split
  · exact ⟨_, _, _, _, rfl⟩
  · split <;> exact ⟨_, _, _, _, rfl⟩

variable {w now}

/-- Without a last good sample there is nothing to hold (R94). -/
theorem failed_none (h : w.lastGood = none) : w.failed now = { w with goodCount := 0 } := by
  unfold failed; rw [h]

/-- A failed poll holds the last good sample, up to ten times (R94). -/
theorem failed_held {x y : Int} (h : w.lastGood = some (x, y)) (k : w.heldCount < 10) : w.failed now =
    { w with goodCount := 0, ring := pushSample w.ring ⟨now, x, y, true⟩, heldCount := w.heldCount + 1 } := by
  unfold failed; rw [h]; exact if_pos k

/-- The eleventh failure in a row drops it, and the mast is UNSTABLE (R94, R103). -/
theorem failed_dropped {x y : Int} (h : w.lastGood = some (x, y)) (k : ¬w.heldCount < 10) : w.failed now =
    { w with goodCount := 0, lastGood := none, stable := false } := by
  unfold failed; rw [h]; exact if_neg k

end WindState

theorem State.Becomes.failedPoll (s : State) : s.Becomes (s.wind.failed s.clock) s.latch s.failedPoll := by
  have first := Becomes.modWind s (fun w => { w with goodCount := 0 })
  unfold State.failedPoll
  extract_lets s1
  split
  · rename_i e
    rw [WindState.failed_none (w := s.wind) e]
    exact first
  · rename_i x y e
    split
    · rename_i k
      rw [WindState.failed_held (w := s.wind) e k]
      exact first.trans (.modWind s1 (fun w => { w with
        ring := pushSample w.ring ⟨s1.clock, x, y, true⟩, heldCount := w.heldCount + 1 }))
    · rename_i k
      rw [WindState.failed_dropped (w := s.wind) e k]
      exact (first.trans (.modWind s1 (fun w => { w with lastGood := none }))).trans (.setStable _ false)

/-- A component is clamped to −4000 to 4000 cm/s (R100). -/
theorem clampWind_eq (v : Int) : clampWind v = max (-4000) (min 4000 v) := by
  unfold clampWind
  omega

/-- The wind unit after a good poll (R93, R100, R103). -/
def WindState.good (w : WindState) (x : Sample) (sequence : Byte) : WindState :=
  { w with
    lastSequence := some sequence, noAnswer := 0, missingReported := false, ring := pushSample w.ring x
    lastGood := some (x.x, x.y), heldCount := 0, goodCount := min 10 (w.goodCount + 1)
    stable := w.stable || decide (9 ≤ w.goodCount) }

theorem State.Becomes.goodPoll {s : State} (h : s.wind.goodCount ≤ 10) (x y : Int) (q : Byte) :
    s.Becomes (s.wind.good ⟨s.clock, clampWind x, clampWind y, false⟩ q) s.latch (s.goodPoll x y q) := by
  have count : (if s.wind.goodCount < countLimit then s.wind.goodCount + 1 else countLimit) =
      min 10 (s.wind.goodCount + 1) := by
    unfold countLimit
    split <;> omega
  unfold State.goodPoll WindState.good
  extract_lets x' y' s1
  have first : s.Becomes { s.wind with
      lastSequence := some q, noAnswer := 0, missingReported := false
      ring := pushSample s.wind.ring ⟨s.clock, x', y', false⟩, lastGood := some (x', y'), heldCount := 0,
      goodCount := min 10 (s.wind.goodCount + 1) } s.latch s1 :=
    ⟨by rw [← count]; rfl, rfl, rfl, rfl⟩
  have reached : s1.wind.goodCount = countLimit ↔ 9 ≤ s.wind.goodCount := by
    rw [first.wind]
    show min 10 (s.wind.goodCount + 1) = 10 ↔ _
    omega
  by_cases tenth : 9 ≤ s.wind.goodCount
  · have second := Becomes.setStable s1 true
    rw [first.wind, first.latch] at second
    rw [if_pos (reached.2 tenth), decide_eq_true tenth, Bool.or_true]
    exact first.trans second
  · rw [if_neg (reached.not.2 tenth), decide_eq_false tenth, Bool.or_false]
    exact first

/-- The wind unit after a poll that was not answered (R93). -/
def WindState.unanswered (w : WindState) : WindState :=
  { w with noAnswer := min 10 (w.noAnswer + 1), missingReported := w.missingReported || w.noAnswer == 9 }

/-- The tenth poll in a row that is not answered reports SENSOR_MISSING, unless it stands reported (R93). -/
theorem State.Becomes.noAnswer {s : State} (h : s.wind.noAnswer ≤ 10) : s.Becomes s.wind.unanswered
    (if s.wind.noAnswer = 9 ∧ s.wind.missingReported = false then
      s.latch.take .sensorMissing s.clock s.loader.consts.sensorAddress else s.latch) s.noAnswer := by
  unfold State.noAnswer WindState.unanswered
  by_cases below : s.wind.noAnswer < countLimit
  · rw [if_pos below]
    extract_lets s1
    have more : min 10 (s.wind.noAnswer + 1) = s.wind.noAnswer + 1 := by unfold countLimit at below; omega
    have tenth : s1.wind.noAnswer = countLimit ↔ s.wind.noAnswer = 9 := by
      show s.wind.noAnswer + 1 = 10 ↔ _
      omega
    rw [more]
    by_cases missing : s.wind.noAnswer = 9 ∧ s.wind.missingReported = false
    · rw [if_pos missing, if_pos ⟨tenth.2 missing.1, missing.2⟩]
      exact ⟨by simp [State.report, State.modWind, missing, s1], rfl, by simp [s1], rfl⟩
    · rw [if_neg missing, if_neg fun k => missing ⟨tenth.1 k.1, k.2⟩]
      have stays : (s.wind.missingReported || s.wind.noAnswer == 9) = s.wind.missingReported := by
        cases m : s.wind.missingReported <;> simp_all
      rw [stays]
      exact ⟨rfl, rfl, rfl, rfl⟩
  · have ten : s.wind.noAnswer = 10 := by unfold countLimit at below; omega
    have kept : min 10 (s.wind.noAnswer + 1) = s.wind.noAnswer := by omega
    have no : (s.wind.noAnswer == 9) = false := by simp [ten]
    rw [if_neg below, if_neg (by omega), kept, no, Bool.or_false]
    exact .refl s

/-- The wind unit as a poll that failed leaves its count of polls not answered (R93). -/
def WindState.missed (w : WindState) : PollResult → WindState
  | .noAck _ => w.unanswered
  | .arbLost _ => w
  | .data .. => { w with noAnswer := 0, missingReported := false }

/-- A poll fails: no answer, an invalid status, a repeated sequence, or a lost arbitration (R93). -/
def WindState.pollFails (w : WindState) : PollResult → Prop
  | .data _ _ status q => status.getLsbD 0 = false ∨ w.lastSequence = some q
  | _ => True

theorem State.Becomes.pollOutcome {s : State} (h : s.WindSound) {r : PollResult} (bad : s.wind.pollFails r) :
    ∃ latch, s.Becomes ((s.wind.missed r).failed s.clock) latch (s.pollOutcome r) ∧
      ((∃ k, r = .noAck k) → s.wind.noAnswer = 9 →
        (s.wind.missingReported = false →
          latch = s.latch.take .sensorMissing s.clock s.loader.consts.sensorAddress) ∧
        (s.wind.missingReported = true → latch = s.latch)) := by
  obtain ⟨-, -, -, few⟩ := h
  cases r with
  | data x y status q =>
    refine ⟨s.latch, ?_, fun k => by simp at k⟩
    have e : s.pollOutcome (.data x y status q) = s.answered.failedPoll := by
      rcases bad with invalid | repeated
      · exact if_neg (by rw [measurementValid, invalid]; decide)
      · unfold State.pollOutcome
        dsimp only
        rw [if_pos repeated, ite_self]
    rw [e]
    exact (modWind s (fun w => { w with noAnswer := 0, missingReported := false })).trans (failedPoll s.answered)
  | noAck k =>
    have first := noAnswer few
    have second := failedPoll s.noAnswer
    rw [first.wind, first.latch, first.clock] at second
    exact ⟨_, first.trans second, fun _ nine => ⟨fun m => if_pos ⟨nine, m⟩, fun m => if_neg (by simp [m])⟩⟩
  | arbLost k => exact ⟨s.latch, failedPoll s, fun k => by simp at k⟩

/-! ## A sensor command that waits (R97) -/

/-- A sensor command waits, or none does. -/
def State.withOp (s : State) (op : Option SensorOp) : State := s.modWind (fun w => { w with pendingOp := op })

namespace State

variable (s : State) (op : Option SensorOp)

theorem setBus_withOp (b : BusState) : (s.withOp op).setBus b = (s.setBus b).withOp op := by
  unfold State.setBus
  show (if (s.wind.bus == .hung) != (b == .hung) then _ else _) = _
  split <;> rfl

theorem setStable_withOp (v : Bool) : (s.withOp op).setStable v = (s.setStable v).withOp op := by
  unfold State.setStable
  show (if s.wind.stable = v then _ else _) = _
  split <;> rfl

theorem endTransaction_withOp (o : TransferOutcome) (items : List BusItem) :
    (s.withOp op).endTransaction o items = (s.endTransaction o items).withOp op :=
  setBus_withOp (s.sendOnBus (cutShort o items)) op .free

theorem failedPoll_withOp : (s.withOp op).failedPoll = s.failedPoll.withOp op := by
  cases g : s.wind.lastGood with
  | none => simp [State.failedPoll, withOp, State.modWind, g]
  | some p =>
    by_cases k : s.wind.heldCount < countLimit
    · simp [State.failedPoll, withOp, State.modWind, g, k]
    · simp only [State.failedPoll, withOp, State.modWind, g, k]
      exact setStable_withOp ({ s with wind := { s.wind with goodCount := 0, lastGood := none } }) op false

theorem noAnswer_withOp : (s.withOp op).noAnswer = s.noAnswer.withOp op := by
  by_cases k : s.wind.noAnswer < countLimit
  · by_cases m : s.wind.noAnswer + 1 = countLimit ∧ s.wind.missingReported = false
    · simp [State.noAnswer, withOp, State.modWind, State.report, k, m]
    · simp [State.noAnswer, withOp, State.modWind, k, m]
  · simp [State.noAnswer, withOp, State.modWind, k]

theorem goodPoll_withOp (x y : Int) (q : Byte) : (s.withOp op).goodPoll x y q = (s.goodPoll x y q).withOp op := by
  unfold State.goodPoll
  extract_lets x' y' t1 t2
  have same : t1 = t2.withOp op := rfl
  have count : t1.wind.goodCount = t2.wind.goodCount := rfl
  rw [same, ← same, count]
  split
  · rw [same, setStable_withOp]
  · exact same

theorem pollOutcome_withOp (r : PollResult) : (s.withOp op).pollOutcome r = (s.pollOutcome r).withOp op := by
  cases r with
  | data x y status q =>
    unfold State.pollOutcome
    show (if measurementValid status then (if s.wind.lastSequence = some q then _ else _) else _) = _
    dsimp only
    split
    · split
      · exact failedPoll_withOp s.answered op
      · exact goodPoll_withOp s op _ _ q
    · exact failedPoll_withOp s.answered op
  | noAck k =>
    show (s.withOp op).noAnswer.failedPoll = _
    rw [noAnswer_withOp, failedPoll_withOp]
    rfl
  | arbLost k => exact failedPoll_withOp s op

end State

/-- Nothing is carried out where no command waits. -/
theorem State.carryOut_none {s : State} (h : s.wind.pendingOp = none) : s.carryOut = s := by
  unfold State.carryOut
  rw [h]
  simp

/-- A command waits on where the bus is neither FREE nor HUNG (R97). -/
theorem State.carryOut_busy {s : State} (free : s.wind.bus ≠ .free) (hung : s.wind.bus ≠ .hung) : s.carryOut = s :=
  if_neg (by simp [free, hung])

end Sys2Proof.Machine
end

section
/-! The end of a poll (R93, R94, R97, R100, R103). -/

namespace Sys2Proof.Machine

open Sys2Proof

/-- An operation that reports no fault leaves the latch. -/
theorem State.Becomes.frame_latch {s t : State} {w : WindState} (h : s.Becomes w s.latch t) :
    { t with wind := s.wind, console := s.console } = s := by
  calc ({ t with wind := s.wind, console := s.console } : State)
      = { ({ t with wind := s.wind, latch := s.latch, console := s.console } : State) with latch := t.latch } := rfl
    _ = s := by rw [h.frame, h.latch]

/-- A new measurement with the valid bit set is a good poll (R93). -/
theorem State.Becomes.pollOutcome_good {s : State} (h : s.WindSound) {x y : Word16} {status q : Byte}
    (valid : status.getLsbD 0 = true) (new : s.wind.lastSequence ≠ some q) :
    s.Becomes (s.wind.good ⟨s.clock, clampWind x.toInt, clampWind y.toInt, false⟩ q) s.latch
      (s.pollOutcome (.data x y status q)) := by
  obtain ⟨-, -, few, -⟩ := h
  have e : s.pollOutcome (.data x y status q) = s.goodPoll x.toInt y.toInt q := by
    unfold State.pollOutcome
    dsimp only
    rw [if_pos (by exact valid), if_neg new]
  rw [e]
  exact goodPoll few _ _ q

/-- What a failed poll makes of the count of polls not answered touches nothing else. -/
theorem WindState.missed_form (w : WindState) (r : PollResult) : ∃ n m,
    w.missed r = { w with noAnswer := n, missingReported := m } := by
  cases r <;> exact ⟨_, _, rfl⟩

/-- It leaves what a failed poll holds (R94). -/
theorem WindState.missed_held (w : WindState) (r : PollResult) : (w.missed r).lastGood = w.lastGood ∧
    (w.missed r).heldCount = w.heldCount ∧ (w.missed r).ring = w.ring ∧ (w.missed r).stable = w.stable := by
  cases r <;> exact ⟨rfl, rfl, rfl, rfl⟩

/-- A failed poll touches the ring, the counts, what is held and the stability alone (R93, R94). -/
theorem WindState.missed_failed_form (w : WindState) (r : PollResult) (now : Tick) : ∃ m ring held last stable,
    (w.missed r).failed now = { w with
      goodCount := 0, noAnswer := (w.missed r).noAnswer, missingReported := m, ring := ring, heldCount := held
      lastGood := last, stable := stable } := by
  obtain ⟨n, m, e⟩ := w.missed_form r
  obtain ⟨ring, held, last, stable, f⟩ := (w.missed r).failed_form now
  exact ⟨m, ring, held, last, stable, by rw [f, e]⟩

/-- The outcome of a poll leaves the bus, the command that waits, and the replies. -/
theorem State.pollOutcome_bus {s : State} (h : s.WindSound) (r : PollResult) :
    (s.pollOutcome r).wind.bus = s.wind.bus ∧ (s.pollOutcome r).wind.pendingOp = s.wind.pendingOp ∧
      (s.pollOutcome r).console.replies = s.console.replies := by
  by_cases bad : s.wind.pollFails r
  · obtain ⟨l, k, -⟩ := State.Becomes.pollOutcome h bad
    obtain ⟨m, ring, held, last, stable, e⟩ := s.wind.missed_failed_form r s.clock
    rw [k.wind, e]
    exact ⟨rfl, rfl, k.replies⟩
  · cases r with
    | data x y status q =>
      obtain ⟨valid, new⟩ := not_or.1 bad
      have k := State.Becomes.pollOutcome_good (x := x) (y := y) h (by simpa using valid) new
      rw [k.wind]
      exact ⟨rfl, rfl, k.replies⟩
    | noAck k => exact absurd trivial bad
    | arbLost k => exact absurd trivial bad

/-- The transaction of a poll has ended: the bus is FREE, and its outcome has yet to be taken. -/
def State.polled (s : State) (r : PollResult) : State :=
  s.endTransaction r.outcome (pollSends s.loader.consts.sensorAddress)

/-- The wind unit once the transaction of a poll has ended. -/
def WindState.polled (w : WindState) (address : Nat) (r : PollResult) : WindState :=
  { w with sends := cutShort r.outcome (pollSends address), bus := .free }

theorem State.polled_becomes (s : State) (r : PollResult) :
    s.Becomes (s.wind.polled s.loader.consts.sensorAddress r) s.latch (s.polled r) := .endTransaction s _ _

theorem State.WindSound.polled {s : State} (h : s.WindSound) (r : PollResult) : (s.polled r).WindSound := by
  unfold State.WindSound
  rw [(s.polled_becomes r).wind]
  exact h

theorem exec_pollComplete {s : State} (busy : s.wind.bus = .busyPoll) (r : PollResult) :
    exec (.pollComplete r) s = .next ((s.polled r).pollOutcome r).carryOut :=
  congrArg Host.Outcome.next (if_pos busy)

/-- Where no command waits, the end of a poll is its outcome alone. -/
theorem exec_pollComplete_alone {s : State} (busy : s.wind.bus = .busyPoll) (none : s.wind.pendingOp = none)
    (sound : s.WindSound) (r : PollResult) : exec (.pollComplete r) s = .next ((s.polled r).pollOutcome r) := by
  rw [exec_pollComplete busy, State.carryOut_none]
  obtain ⟨-, rest, -⟩ := State.pollOutcome_bus (sound.polled r) r
  rw [rest, (s.polled_becomes r).wind]
  exact none

/-- Settles O38: the transaction's end frees the bus (`State.polled_becomes`); what the outcome makes of the wind unit
is `State.Becomes.pollOutcome_good` and `State.Becomes.pollOutcome`; and a waiting command, at which no outcome looks
(`State.pollOutcome_withOp`), is carried out after it. -/
theorem pollResults : Obligations.PollResults := by
  intro s now whole busy none sound hwhole
  have items : pollSends s.loader.consts.sensorAddress = whole := hwhole.symm
  refine ⟨fun x y status q valid new hnow => ?_, fun result bad => ?_, fun result op u room run => ?_⟩
  · have ended := s.polled_becomes (.data x y status q)
    have good := State.Becomes.pollOutcome_good (x := x) (y := y) (sound.polled (.data x y status q)) valid
      (by rw [ended.wind]; exact new)
    rw [ended.latch, ended.clock, clampWind_eq, clampWind_eq, ← hnow] at good
    have all := ended.trans good
    have w := all.wind
    rw [ended.wind] at w
    refine ⟨_, exec_pollComplete_alone busy none sound _, ?_⟩
    rw [w]
    exact ⟨rfl, items, rfl, rfl, rfl, rfl, pushSample_getLast? _ _, rfl, rfl, all.frame_latch⟩
  · have ended := s.polled_becomes result
    have fails : (s.polled result).wind.pollFails result := by
      rw [ended.wind]
      rcases bad with ⟨k, rfl⟩ | ⟨k, rfl⟩ | ⟨x, y, status, q, rfl, b⟩
      · trivial
      · trivial
      · exact b
    obtain ⟨latch, after, missing⟩ := State.Becomes.pollOutcome (sound.polled result) fails
    rw [ended.wind, ended.latch, ended.clock, ended.loader] at missing
    have all := ended.trans after
    have w := all.wind
    rw [ended.wind, ended.clock] at w
    refine ⟨_, exec_pollComplete_alone busy none sound _, ?_⟩
    rw [w, all.latch]
    obtain ⟨m, ring, held, last', stable, form⟩ :=
      (s.wind.polled s.loader.consts.sensorAddress result).missed_failed_form result s.clock
    obtain ⟨good, count, samples, steady⟩ := (s.wind.polled s.loader.consts.sensorAddress result).missed_held result
    refine ⟨?_, ?_, ?_, ?_, ?_, fun empty => ?_, fun x y last => ⟨fun few => ?_, fun ten => ?_⟩, missing, all.frame⟩
    · rw [form]
      rfl
    · rw [form]
    · rw [form]
      rfl
    · rw [form]
      cases result <;> rfl
    · rw [form, WindState.polled, items]
      cases result <;> rfl
    · rw [WindState.failed_none (good.trans empty)]
      exact ⟨samples, steady⟩
    · rw [WindState.failed_held (good.trans last) (by rw [count]; exact few)]
      exact ⟨congrArg (· + 1) count, pushSample_getLast? _ _, steady⟩
    · rw [WindState.failed_dropped (good.trans last) (by rw [count]; exact Nat.not_lt.2 (Nat.le_of_eq ten.symm))]
      exact ⟨rfl, rfl, samples⟩
  · rw [exec_pollComplete_alone busy none sound] at run
    obtain rfl := Host.Outcome.next.inj run
    obtain ⟨bus, rest, replies⟩ := State.pollOutcome_bus (sound.polled result) result
    rw [(s.polled_becomes result).wind] at bus rest
    rw [(s.polled_becomes result).replies] at replies
    have waits : (s.withOp (some op)).polled result = (s.polled result).withOp (some op) :=
      State.endTransaction_withOp s _ _ _
    refine ⟨_, exec_pollComplete (s := s.withOp (some op)) busy result, ?_⟩
    rw [waits, State.pollOutcome_withOp]
    exact State.carryOut_carriesOut _ op (.inl bus) (rest.trans none) (by rwa [replies])

end Sys2Proof.Machine
end

section
/-! Poll times, a hung sensor bus, and the end of a release burst (R92, R95 to R97, R99). -/

namespace Sys2Proof.Machine

open Sys2Proof

/-! ## Poll times (R92, R95) -/

/-- A poll time that has come: the next one is 1,000 ticks on, and the data line has been read (R92). -/
def State.pollDue (s : State) (e : Tick) (low : Bool) : State :=
  s.modWind (fun w => { w with nextPoll := some (e + 1000), dataLow := low })

theorem exec_pollTime {s : State} {e : Tick} (next : s.wind.nextPoll = some e) (due : reached s.clock e = true)
    (low : Bool) : exec (.pollTime low) s = .next (
      if s.wind.master = .console then s.pollDue e low
      else if s.wind.bus = .free then
        if low then ((s.pollDue e low).detectHang s.loader.consts.sensorAddress).failedPoll
        else (s.pollDue e low).beginTransaction .busyPoll (pollSends s.loader.consts.sensorAddress)
      else (s.pollDue e low).failedPoll) := by
  show Host.Outcome.next (if expired s.clock s.wind.nextPoll then _ else _) = _
  rw [next, if_pos (by exact due)]
  have on : s.modWind (fun w => { w with nextPoll := w.nextPoll.map (· + pollPeriod), dataLow := low }) =
      s.pollDue e low := by
    simp [State.pollDue, State.modWind, next, pollPeriod, ticks]
  rw [on]
  rfl

/-- The wind unit at a poll time that has come. -/
def WindState.pollDue (w : WindState) (e : Tick) (low : Bool) : WindState :=
  { w with nextPoll := some (e + 1000), dataLow := low }

theorem State.Becomes.pollDue (s : State) (e : Tick) (low : Bool) :
    s.Becomes (s.wind.pollDue e low) s.latch (s.pollDue e low) := .modWind s (·.pollDue e low)

theorem State.Becomes.failedPoll_after {s t : State} {w : WindState} {l : FaultLatch} (h : s.Becomes w l t) :
    s.Becomes (w.failed s.clock) l t.failedPoll := by
  have k := failedPoll t
  rw [h.wind, h.latch, h.clock] at k
  exact h.trans k

theorem State.Becomes.detectHang_after {s t : State} {w : WindState} (h : s.Becomes w s.latch t) (address : Nat) :
    s.Becomes { w with sends := burstSends, bus := .releasing false false }
      (s.latch.take .sensorHung s.clock address) (t.detectHang address) := by
  have k := detectHang t address
  rw [h.wind, h.latch, h.clock] at k
  exact h.trans k

theorem State.Becomes.beginTransaction_after {s t : State} {w : WindState} {l : FaultLatch} (h : s.Becomes w l t)
    (b : BusState) (items : List BusItem) :
    s.Becomes { w with sends := items, bus := b } l (t.beginTransaction b items) := by
  have k := beginTransaction t b items
  rw [h.wind, h.latch] at k
  exact h.trans k

section due

variable {s : State} {e : Tick} (next : s.wind.nextPoll = some e) (due : reached s.clock e = true) (low : Bool)

include next due

theorem exec_pollTime_console (m : s.wind.master = .console) : ∃ t, exec (.pollTime low) s = .next t ∧
    s.Becomes (s.wind.pollDue e low) s.latch t :=
  ⟨_, by rw [exec_pollTime next due, if_pos m], .pollDue s e low⟩

theorem exec_pollTime_begins (m : s.wind.master = .auto) (free : s.wind.bus = .free) (high : low = false) :
    ∃ t, exec (.pollTime low) s = .next t ∧ s.Becomes { s.wind.pollDue e low with
      sends := pollSends s.loader.consts.sensorAddress, bus := .busyPoll } s.latch t :=
  ⟨_, by rw [exec_pollTime next due, if_neg (by simp [m]), if_pos free, if_neg (by simp [high])],
    (State.Becomes.pollDue s e low).beginTransaction_after _ _⟩

theorem exec_pollTime_hangs (m : s.wind.master = .auto) (free : s.wind.bus = .free) (held : low = true) :
    ∃ t, exec (.pollTime low) s = .next t ∧ s.Becomes
      (({ s.wind.pollDue e low with sends := burstSends, bus := .releasing false false } : WindState).failed s.clock)
      (s.latch.take .sensorHung s.clock s.loader.consts.sensorAddress) t :=
  ⟨_, by rw [exec_pollTime next due, if_neg (by simp [m]), if_pos free, if_pos held],
    ((State.Becomes.pollDue s e low).detectHang_after _).failedPoll_after⟩

theorem exec_pollTime_skipped (m : s.wind.master = .auto) (taken : s.wind.bus ≠ .free) :
    ∃ t, exec (.pollTime low) s = .next t ∧
      s.Becomes ((s.wind.pollDue e low).failed s.clock) s.latch t :=
  ⟨_, by rw [exec_pollTime next due, if_neg (by simp [m]), if_neg taken],
    (State.Becomes.pollDue s e low).failedPoll_after⟩

end due

/-! ## Hangs, and the release burst (R95 to R97, R99) -/

theorem exec_clockStretchTimeout_poll {s : State} (busy : s.wind.bus = .busyPoll) (read : List Byte) :
    exec (.clockStretchTimeout read) s =
      .next (s.detectHang s.loader.consts.sensorAddress).failedPoll := by
  show Host.Outcome.next (match s.wind.bus, s.wind.pendingOp with
    | .busyPoll, _ => _
    | .busyTransfer, some (.transfer address n _) => _
    | _, _ => s) = _
  rw [busy]

theorem exec_clockStretchTimeout_transfer {s : State} {read write : List Byte} {address n : Nat}
    (busy : s.wind.bus = .busyTransfer) (op : s.wind.pendingOp = some (.transfer address n write)) :
    exec (.clockStretchTimeout read) s = .next
      (((s.modWind (fun w => { w with fifo := read.take n })).detectHang address).answerTransfer 3) := by
  show Host.Outcome.next (match s.wind.bus, s.wind.pendingOp with
    | .busyPoll, _ => _
    | .busyTransfer, some (.transfer address n _) => _
    | _, _ => s) = _
  rw [busy, op]

/-- The burst's end samples the data line: high frees the bus, low leaves it HUNG (R95, R96). -/
def State.burstDone (s : State) (high : Bool) : State :=
  (s.modWind (fun w => { w with dataLow := !high })).setBus (if high then .free else .hung)

theorem State.Becomes.burstDone (s : State) (high : Bool) : s.Becomes
    { s.wind with dataLow := !high, bus := if high then .free else .hung } s.latch (s.burstDone high) :=
  (modWind s (fun w => { w with dataLow := !high })).trans (setBus _ _)

theorem exec_releaseBurstEnd {s : State} {ordered fromHung : Bool}
    (releasing : s.wind.bus = .releasing ordered fromHung) (high : Bool) : exec (.releaseBurstEnd high) s = .next (
      if ordered then
        ((s.burstDone high).withOp none).reply
          { command := 0x22, code := .ok, extra := [byte (if high then 0 else 3)] }
      else (s.burstDone high).carryOut) := by
  show Host.Outcome.next (match s.wind.bus with
    | .releasing ordered _ => _
    | _ => s) = _
  rw [releasing]
  rfl

theorem State.burstDone_withOp (s : State) (op : Option SensorOp) (high : Bool) :
    (s.withOp op).burstDone high = (s.burstDone high).withOp op :=
  setBus_withOp (s.modWind (fun w => { w with dataLow := !high })) op _

/-- From `s` to `t` nothing changes but the wind unit, the fault latch and the console port, and the level of the data
line stays as it was read. -/
structure State.WindAlone (s t : State) : Prop where
  frame : { t with wind := s.wind, latch := s.latch, console := s.console } = s
  dataLow : t.wind.dataLow = s.wind.dataLow

namespace State.WindAlone

variable {s t u : State}

theorem refl (s : State) : s.WindAlone s := ⟨rfl, rfl⟩

theorem trans (h : s.WindAlone t) (k : t.WindAlone u) : s.WindAlone u := by
  refine ⟨?_, k.dataLow.trans h.dataLow⟩
  calc ({ u with wind := s.wind, latch := s.latch, console := s.console } : State)
      = { ({ u with wind := t.wind, latch := t.latch, console := t.console } : State) with
          wind := s.wind, latch := s.latch, console := s.console } := rfl
    _ = s := by rw [k.frame, h.frame]

theorem of_becomes {w : WindState} {l : FaultLatch} (h : s.Becomes w l t) (k : w.dataLow = s.wind.dataLow) :
    s.WindAlone t := ⟨h.frame, (congrArg WindState.dataLow h.wind).trans k⟩

theorem answerOp (s : State) (kind : Nat) (c : ReplyCode) : s.WindAlone (s.answerOp kind c) := ⟨rfl, rfl⟩

theorem answerTransfer (s : State) (n : Nat) : s.WindAlone (s.answerTransfer n) := ⟨rfl, rfl⟩

theorem setMaster (s : State) (m : MasterSelect) : s.WindAlone (s.setMaster m) := by
  refine of_becomes (.setMaster s m) ?_
  split <;> rfl

theorem beginBurst (s : State) (ordered fromHung : Bool) : s.WindAlone (s.beginBurst ordered fromHung) :=
  of_becomes (.beginBurst s ordered fromHung) rfl

/-- Whatever waits, carrying it out touches no other unit (R97 to R99). -/
theorem carryOut (s : State) : s.WindAlone s.carryOut := by
  unfold State.carryOut
  split
  · split
    · exact .refl s
    · exact (setMaster s _).trans (answerOp _ _ _)
    · split
      · exact answerOp s _ _
      · extract_lets s1
        have emptied : s.WindAlone s1 := ⟨rfl, rfl⟩
        split
        · exact (emptied.trans (of_becomes (.detectHang s1 _) rfl)).trans (answerTransfer _ _)
        · exact emptied.trans (of_becomes (.beginTransaction s1 _ _) rfl)
    · exact beginBurst s _ _
  · exact .refl s

end State.WindAlone

/-- Settles O37: the poll times are `exec_pollTime` and its four cases; a hang is `State.Becomes.detectHang`, at a poll
with `State.Becomes.failedPoll` and at a transfer with its answer; and the burst's end is `State.Becomes.burstDone`,
after which `State.carryOut_carriesOut` carries out what waits. -/
theorem pollTimesAndHangs : Obligations.PollTimesAndHangs := by
  refine ⟨fun s e low next => ⟨fun due => ?_, fun early => ?_⟩, fun s read busy => ?_,
    fun s read write a n busy op room => ?_, fun s high ordered fromHung releasing => ?_⟩
  · cases m : s.wind.master with
    | console =>
      obtain ⟨t, run, h⟩ := exec_pollTime_console next due low m
      refine ⟨t, run, ?_⟩
      rw [h.wind]
      exact ⟨rfl, rfl, m, rfl, fun _ => rfl, fun k => (nomatch k), fun k => (nomatch k), fun k => (nomatch k), h.frame⟩
    | auto =>
      by_cases free : s.wind.bus = .free
      · cases low with
        | false =>
          obtain ⟨t, run, h⟩ := exec_pollTime_begins next due false m free rfl
          refine ⟨t, run, ?_⟩
          rw [h.wind]
          exact ⟨rfl, rfl, m, rfl, fun k => (nomatch k), fun _ _ _ => rfl, fun _ _ k => (nomatch k),
            fun _ k => absurd free k, h.frame⟩
        | true =>
          obtain ⟨t, run, h⟩ := exec_pollTime_hangs next due true m free rfl
          obtain ⟨ring, held, last, stable, form⟩ := WindState.failed_form
            ({ s.wind.pollDue e true with sends := burstSends, bus := .releasing false false }) s.clock
          refine ⟨t, run, ?_⟩
          rw [h.wind, form]
          exact ⟨rfl, rfl, m, rfl, fun k => (nomatch k), fun _ _ k => (nomatch k),
            fun _ _ _ => ⟨rfl, rfl, rfl, h.latch⟩, fun _ k => absurd free k, h.frame⟩
      · obtain ⟨t, run, h⟩ := exec_pollTime_skipped next due low m free
        obtain ⟨ring, held, last, stable, form⟩ := (s.wind.pollDue e low).failed_form s.clock
        refine ⟨t, run, ?_⟩
        rw [h.wind]
        refine ⟨by rw [form]; rfl, by rw [form]; rfl, by rw [form]; exact m, by rw [form]; rfl,
          fun k => (nomatch k), fun _ k => absurd k free, fun _ k => absurd k free, fun _ _ => ⟨by rw [form]; rfl,
            by rw [form], fun x y last few => ?_⟩, h.frame⟩
        rw [WindState.failed_held (w := s.wind.pollDue e low) last few]
        exact ⟨rfl, pushSample_getLast? _ _⟩
  · show Host.Outcome.next (if expired s.clock s.wind.nextPoll then _ else s) = _
    rw [next, if_neg (by simp [expired, early])]
  · have h := ((State.Becomes.refl s).detectHang_after s.loader.consts.sensorAddress).failedPoll_after
    obtain ⟨ring, held, last, stable, form⟩ := WindState.failed_form
      ({ s.wind with sends := burstSends, bus := .releasing false false }) s.clock
    refine ⟨_, exec_clockStretchTimeout_poll busy read, ?_⟩
    rw [h.wind, form]
    exact ⟨rfl, rfl, h.latch, rfl, h.frame⟩
  · have h := (State.Becomes.modWind s (fun w => { w with fifo := read.take n })).detectHang_after a
    refine ⟨_, exec_clockStretchTimeout_transfer busy op, ?_⟩
    rw [State.answerTransfer_room (by rw [h.replies]; exact room)]
    refine ⟨?_, h.latch, ?_, h.frame⟩
    · dsimp only
      rw [h.wind]
      rfl
    · dsimp only
      rw [h.wind, h.replies]
      rfl
  · have h := State.Becomes.burstDone s high
    refine ⟨_, exec_releaseBurstEnd releasing high, ?_⟩
    cases ordered with
    | true =>
      rw [if_pos rfl]
      refine ⟨?_, fun _ space => ⟨?_, rfl, ?_⟩, fun k => (nomatch k), fun k => (nomatch k), h.frame⟩
      · exact congrArg WindState.dataLow h.wind
      · exact congrArg WindState.bus h.wind
      · show (ConsoleState.reply (s.burstDone high).console _).replies = _
        rw [ConsoleState.reply_room _ _ (by rw [h.replies]; exact space), h.replies]
        cases high <;> rfl
    | false =>
      rw [if_neg (by decide)]
      have ended : (s.modWind (fun w => { w with dataLow := !high })).WindAlone (s.burstDone high) :=
        .of_becomes (.setBus _ _) rfl
      have done := ended.trans (State.WindAlone.carryOut (s.burstDone high))
      refine ⟨done.dataLow, fun k => (nomatch k), fun _ none => ?_, fun _ op waits space => ?_,
        congrArg (fun x : State => { x with wind := s.wind }) done.frame⟩
      · rw [State.carryOut_none (by rw [h.wind]; exact none), h.wind]
      · have all : s = (s.withOp none).withOp (some op) := by
          rw [← waits]
          rfl
        have waiting : s.burstDone high = ((s.withOp none).burstDone high).withOp (some op) :=
          (congrArg (·.burstDone high) all).trans (State.burstDone_withOp _ _ _)
        have k := State.Becomes.burstDone (s.withOp none) high
        refine ⟨(s.withOp none).burstDone high, ?_, k.wind, ?_⟩
        · show exec (.releaseBurstEnd high) (s.withOp none) = _
          rw [exec_releaseBurstEnd (s := s.withOp none) releasing, if_neg (by decide),
            State.carryOut_none (by rw [k.wind]; rfl)]
        · rw [waiting]
          refine State.carryOut_carriesOut _ op ?_ (by rw [k.wind]; rfl) (by rw [k.replies]; exact space)
          rw [k.wind]
          cases high
          · exact .inr rfl
          · exact .inl rfl

end Sys2Proof.Machine
end

section
/-! The console service of the sensor bus: SENSOR_MODE, SENSOR_TRANSFER, SENSOR_RELEASE, and the end of a transfer
(R97 to R99). -/

namespace Sys2Proof.Machine

open Sys2Proof

/-! ## A sensor command is taken (R97) -/

/-- The assembler's part of a record that is taken. -/
theorem State.TakesRecord.clearAssembler_eq {s : State} (h : s.TakesRecord) :
    s.clearAssembler = { s with console := { s.console with gathered := [], rxQuietUs := 0 } } := by
  unfold State.clearAssembler
  rw [← h.taking]

/-- The level of the data line, as a SENSOR_TRANSFER reads it. -/
def State.readLine (s : State) (low : Bool) : State := s.modWind (fun w => { w with dataLow := low })

theorem State.TakesRecord.readLine {s : State} (h : s.TakesRecord) (low : Bool) : (s.readLine low).TakesRecord :=
  ⟨h.released, h.loaded, h.taking, h.room⟩

/-- A command that waits no more. -/
theorem State.withOp_withOp_none {s : State} (none : s.wind.pendingOp = none) (op : Option SensorOp) :
    (s.withOp op).withOp .none = s := by
  show s.withOp .none = s
  rw [State.withOp, State.modWind, ← none]

section takeOp

variable {s : State} (kind : Nat)

/-- A sensor command whose operands are in range becomes the operation, and is carried out where the bus lets it. -/
theorem State.takeOp_some (none : s.wind.pendingOp = none) (op : SensorOp) :
    s.clearAssembler.takeOp kind (some op) = (s.clearAssembler.withOp (some op)).carryOut :=
  if_neg (by simp [none])

/-- A sensor command whose operands are out of range is answered RANGE. -/
theorem State.TakesRecord.takeOp_none (takes : s.TakesRecord) (none : s.wind.pendingOp = none) :
    s.clearAssembler.takeOp kind .none = s.afterAnswer kind .range := by
  rw [← takes.answer]
  exact if_neg (by simp [none])

/-- A second sensor command is answered STATE. -/
theorem State.TakesRecord.takeOp_second (takes : s.TakesRecord) {held : SensorOp}
    (holds : s.wind.pendingOp = some held) (op : Option SensorOp) :
    s.clearAssembler.takeOp kind op = s.afterAnswer kind .state := by
  rw [← takes.answer]
  exact if_pos (by simp [holds])

/-- An operation that is answered with a code alone leaves nothing else. -/
theorem State.TakesRecord.answerOp (takes : s.TakesRecord) (none : s.wind.pendingOp = none) (op : Option SensorOp)
    (c : ReplyCode) : (s.clearAssembler.withOp op).answerOp kind c = s.afterAnswer kind c := by
  show ((s.clearAssembler.withOp op).withOp .none).answer kind c = _
  rw [State.withOp_withOp_none (s := s.clearAssembler) none, takes.answer]

end takeOp

/-! ## What is carried out (R97 to R99) -/

/-- A change of the bus state that does not touch HUNG raises nothing (R111). -/
theorem State.setBus_quiet {s : State} {b : BusState} (h : s.wind.bus ≠ .hung) (k : b ≠ .hung) :
    s.setBus b = s.modWind (fun w => { w with bus := b }) := by
  rcases s.setBus_eq b with ⟨e, -⟩ | ⟨-, e⟩
  · exact e
  · exact absurd (iff_of_false h k) e

section carryOut

variable {s : State}

theorem State.carryOut_mode (bus : s.wind.bus = .free ∨ s.wind.bus = .hung) (m : MasterSelect) :
    (s.withOp (some (.mode m))).carryOut = ((s.withOp (some (.mode m))).setMaster m).answerOp 0x20 .ok :=
  if_pos bus

theorem State.carryOut_release (bus : s.wind.bus = .free ∨ s.wind.bus = .hung) :
    (s.withOp (some .release)).carryOut = (s.withOp (some .release)).beginBurst true (s.wind.bus == .hung) :=
  if_pos bus

/-- A transfer is refused in AUTO and on a HUNG bus (R99). -/
theorem State.carryOut_refused (bus : s.wind.bus = .free ∨ s.wind.bus = .hung)
    (h : s.wind.master = .auto ∨ s.wind.bus = .hung) (address n : Nat) (write : List Byte) :
    (s.withOp (some (.transfer address n write))).carryOut =
      (s.withOp (some (.transfer address n write))).answerOp 0x21 .state :=
  (if_pos bus).trans (if_pos h)

/-- In CONSOLE, on a FREE bus whose data line is high, a transfer begins (R99). -/
theorem State.carryOut_transfer (free : s.wind.bus = .free) (console : s.wind.master = .console)
    (high : s.wind.dataLow = false) (address n : Nat) (write : List Byte) :
    (s.withOp (some (.transfer address n write))).carryOut = { s with wind := { s.wind with
      fifo := [], pendingOp := some (.transfer address n write), bus := .busyTransfer
      sends := transactionSends address n write } } := by
  have accepted : ¬(s.wind.master = .auto ∨ s.wind.bus = .hung) := by simp [free, console]
  have begins : (s.withOp (some (.transfer address n write))).carryOut =
      ((s.withOp (some (.transfer address n write))).modWind (fun w => { w with fifo := [] })).beginTransaction
        .busyTransfer (transactionSends address n write) :=
    ((if_pos (.inl free)).trans (if_neg accepted)).trans (if_neg (by exact Bool.eq_false_iff.1 high))
  rw [begins, State.beginTransaction, State.setBus_quiet (by
    show s.wind.bus ≠ .hung
    simp [free]) (by decide)]
  rfl

end carryOut

/-! ## The commands -/

section taken

variable {s : State} (takes : s.TakesRecord) (mast : s.loader.roles.mast = true)

include takes mast

theorem exec_sensorMode (m : Nat) : exec (.sensorMode m) s =
    .next (s.clearAssembler.takeOp 0x20 ((masterOf m).map .mode)) :=
  congrArg Host.Outcome.next (takes.command 0x20 (·.mast) _ mast)

theorem exec_sensorRelease : exec .sensorRelease s = .next (s.clearAssembler.takeOp 0x22 (some .release)) :=
  congrArg Host.Outcome.next (takes.command 0x22 (·.mast) _ mast)

theorem exec_sensorTransfer (address n : Nat) {write : List Byte} (len : write.length ≤ 8) (low : Bool) :
    exec (.sensorTransfer address n write low) s = .next
      ((s.readLine low).clearAssembler.takeOp 0x21
        (if transferInRange address n write then some (.transfer address n write) else none)) := by
  show Host.Outcome.next (s.command 0x21 (decide (write.length ≤ 8)) _ _) = _
  rw [decide_eq_true len, takes.command 0x21 (·.mast) _ mast]
  rfl

end taken

theorem transferInRange_of {address n : Nat} {write : List Byte} (a : 0x08 ≤ address) (b : address ≤ 0x77)
    (len : write.length ≤ 8) (c : n ≤ 32) : transferInRange address n write = true := by
  simp [transferInRange, a, b, len, c]

theorem transferInRange_eq_false {address n : Nat} {write : List Byte} (h : address < 0x08 ∨ 0x77 < address ∨ 32 < n) :
    transferInRange address n write = false := by
  unfold transferInRange
  rcases h with h | h | h <;> simp <;> omega

theorem masterOf_masterCode (m : MasterSelect) : masterOf (masterCode m) = some m := by cases m <;> rfl

/-- The conditions and bytes of a transfer, as R99 gives them. -/
theorem transactionSends_eq (address n : Nat) (write : List Byte) : transactionSends address n write =
    match write, n with
    | [], 0 => [.start, .address address false, .stop]
    | [], k + 1 => [.start, .address address true] ++ List.replicate (k + 1) .receive ++ [.stop]
    | b :: bs, 0 => [.start, .address address false, .send b] ++ bs.map .send ++ [.stop]
    | b :: bs, k + 1 =>
      [.start, .address address false, .send b] ++ bs.map .send ++
        [.repeatedStart, .address address true] ++ List.replicate (k + 1) .receive ++ [.stop] := by
  cases write <;> cases n <;> simp [transactionSends, writePhase, readPhase]

theorem exec_sensorTransferEnd {s : State} {address n : Nat} {write : List Byte} (busy : s.wind.bus = .busyTransfer)
    (op : s.wind.pendingOp = some (.transfer address n write)) (o : TransferOutcome) (read : List Byte) :
    exec (.sensorTransferEnd o read) s = .next (
      if read.length = bytesRead (cutShort o (transactionSends address n write)) then
        ((s.modWind (fun w => { w with fifo := read })).endTransaction o
          (transactionSends address n write)).answerTransfer (transferCode o)
      else s) := by
  show Host.Outcome.next (match s.wind.bus, s.wind.pendingOp with
    | .busyTransfer, some (.transfer address n write) => _
    | _, _ => s) = _
  rw [busy, op]

/-- The end of a transfer frees the bus, and is answered with the outcome and the bytes read (R99). -/
theorem State.transferEnds {s : State} (busy : s.wind.bus = .busyTransfer) (room : s.console.replies.length < 8)
    (read : List Byte) (o : TransferOutcome) (items : List BusItem) :
    ((s.modWind (fun w => { w with fifo := read })).endTransaction o items).answerTransfer (transferCode o) = { s with
      wind := { s.wind with bus := .free, fifo := read, pendingOp := none, sends := cutShort o items }
      console := { s.console with replies := s.console.replies ++ [⟨0x21, .ok,
        byte (transferCode o) :: byte read.length :: read, []⟩] } } := by
  rw [State.endTransaction, State.setBus_quiet (by
    show s.wind.bus ≠ .hung
    simp [busy]) (by decide), State.answerTransfer_room (by exact room)]
  rfl

/-- Settles O39: a record taken goes to `State.takeOp`, which answers it, lets it wait, or carries it out as the lemmas
of `State.carryOut` say; a transfer on a line that is low is `State.carryOut_carriesOut`; and the end of a transfer is
`State.transferEnds`. -/
theorem sensorCommands : Obligations.SensorCommands := by
  refine ⟨fun s takes mast none => ⟨fun bus => ⟨fun m same => ?_, fun m other => ?_, ?_⟩, fun m high => ?_,
    fun address n write a b len c free => ⟨fun console => ?_, fun console => ?_, fun auto low => ?_⟩,
    fun address n write low a b len c hung => ?_, ?_,
    fun address n write low len out => ?_⟩, ?_,
    fun s op m takes mast holds => ⟨?_, fun address n write low len => ?_, ?_⟩⟩
  · rw [exec_sensorMode takes mast, masterOf_masterCode, Option.map_some, State.takeOp_some _ none,
      State.carryOut_mode (s := s.clearAssembler) bus, State.setMaster, if_pos (by exact same), takes.answerOp _ none]
  · rw [exec_sensorMode takes mast, masterOf_masterCode, Option.map_some, State.takeOp_some _ none,
      State.carryOut_mode (s := s.clearAssembler) bus]
    have h := State.Becomes.setMaster (s.clearAssembler.withOp (some (.mode m))) m
    refine ⟨_, rfl, ?_⟩
    rw [State.answerOp_room (by rw [h.replies]; exact takes.room)]
    refine ⟨?_, ?_, ?_⟩
    · dsimp only
      rw [h.wind, if_neg (by exact other), ← none]
      rfl
    · dsimp only
      rw [h.replies]
      rfl
    · exact congrArg (fun t : State => { t with wind := s.wind, console := s.console }) h.frame_latch
  · rw [exec_sensorRelease takes mast, State.takeOp_some _ none, State.carryOut_release (s := s.clearAssembler) bus]
    have h := State.Becomes.beginBurst (s.clearAssembler.withOp (some .release)) true
      (s.clearAssembler.wind.bus == .hung)
    refine ⟨_, rfl, ?_⟩
    rw [h.wind]
    refine ⟨?_, rfl, h.replies, rfl,
      congrArg (fun t : State => { t with wind := s.wind, console := s.console }) h.frame_latch⟩
    exact congrArg (BusState.releasing true) (beq_eq_decide _ _)
  · have unnamed : masterOf m = .none := by
      unfold masterOf
      rw [if_neg (by omega), if_neg (by omega)]
    rw [exec_sensorMode takes mast, unnamed, Option.map_none, takes.takeOp_none _ none]
  · rw [exec_sensorTransfer takes mast _ _ len, if_pos (transferInRange_of a b len c),
      State.takeOp_some (s := s.readLine false) _ none,
      State.carryOut_transfer (s := (s.readLine false).clearAssembler) free console rfl,
      (takes.readLine false).clearAssembler_eq, transactionSends_eq]
    rfl
  · have k := State.carryOut_carriesOut (s.readLine true).clearAssembler (.transfer address n write) (.inl free) none
      takes.room
    obtain ⟨-, -, hangs⟩ := k
    obtain ⟨wind, latch, replies⟩ := (hangs console free).2 rfl
    rw [exec_sensorTransfer takes mast _ _ len, if_pos (transferInRange_of a b len c),
      State.takeOp_some (s := s.readLine true) _ none]
    refine ⟨_, rfl, ?_⟩
    rw [State.withOp, State.modWind, wind]
    exact ⟨rfl, none, rfl, rfl, latch, replies⟩
  · rw [exec_sensorTransfer takes mast _ _ len, if_pos (transferInRange_of a b len c),
      State.takeOp_some (s := s.readLine low) _ none,
      State.carryOut_refused (s := (s.readLine low).clearAssembler) (.inl free) (.inl auto),
      (takes.readLine low).answerOp _ none]
    rfl
  · rw [exec_sensorTransfer takes mast _ _ len, if_pos (transferInRange_of a b len c),
      State.takeOp_some (s := s.readLine low) _ none,
      State.carryOut_refused (s := (s.readLine low).clearAssembler) (.inr hung) (.inr hung),
      (takes.readLine low).answerOp _ none]
    rfl
  · rintro free hung waits rfl
    refine ⟨fun m => ?_, fun address n write low a b len c => ?_, ?_⟩
    · rw [exec_sensorMode takes mast, masterOf_masterCode, Option.map_some, State.takeOp_some _ none,
        State.carryOut_busy (by exact free) (by exact hung), takes.clearAssembler_eq]
      rfl
    · rw [exec_sensorTransfer takes mast _ _ len, if_pos (transferInRange_of a b len c),
        State.takeOp_some (s := s.readLine low) _ none, State.carryOut_busy (by exact free) (by exact hung),
        (takes.readLine low).clearAssembler_eq]
      rfl
    · rw [exec_sensorRelease takes mast, State.takeOp_some _ none, State.carryOut_busy (by exact free) (by exact hung),
        takes.clearAssembler_eq]
      rfl
  · rw [exec_sensorTransfer takes mast _ _ len, transferInRange_eq_false out, if_neg (by decide),
      (takes.readLine low).takeOp_none _ none]
    rfl
  · rintro s address n write read o sent busy op room rfl
    rw [exec_sensorTransferEnd busy op]
    cases o with
    | ok =>
      have count : bytesRead (cutShort .ok (transactionSends address n write)) = n := bytesRead_transactionSends _ _ _
      rw [count]
      refine ⟨fun all => ?_, fun few => by rw [if_neg (by exact few)]⟩
      rw [if_pos (by exact all), State.transferEnds busy room]
      rfl
    | noAck k | arbLost k =>
      refine ⟨fun all => ?_, fun few => by rw [if_neg (by exact few)]⟩
      rw [if_pos (by exact all), State.transferEnds busy room]
      rfl
  · rw [exec_sensorMode takes mast, takes.takeOp_second _ holds]
  · rw [exec_sensorTransfer takes mast _ _ len, (takes.readLine low).takeOp_second _ holds]
    rfl
  · rw [exec_sensorRelease takes mast, takes.takeOp_second _ holds]

end Sys2Proof.Machine
end

section
/-! The scoring unit's rules, said once: the scoring test (R138), the gather (R133 to R135), and what a LANDING and a
MASTMEAN do to the scoring part of their attempt. -/

namespace Sys2Proof.Machine

open Sys2Proof

/-! ## The scoring part of an attempt -/

/-- The attempt's record is `r`, and its scoring part `p`. -/
structure State.Scores (s : State) (n : Nat) (r : AttemptRecord) (p : ScoringPart) : Prop where
  record : s.attempt? n = some r
  part : r.scoring = some p

namespace State.Scores

variable {s t : State} {n : Nat} {r : AttemptRecord} {p : ScoringPart}

theorem of_table (h : s.Scores n r p) (e : t.table = s.table) : t.Scores n r p := by
  refine ⟨?_, h.part⟩
  have := h.record
  unfold State.attempt? at this ⊢
  rwa [e]

theorem part? (h : s.Scores n r p) : s.part? n = some p := by
  rw [State.part?, h.record, Option.bind_some, h.part]

theorem raise (h : s.Scores n r p) (b : NoticeBody) : (s.raise b).Scores n r p := h.of_table (by simp)

/-- The record with another scoring part. -/
theorem modPart (h : s.Scores n r p) (f : ScoringPart → ScoringPart) :
    (s.modPart n f).Scores n { r with scoring := some (f p) } (f p) := by
  refine ⟨?_, rfl⟩
  have a := State.setRecord_attempt (s := s) (n := n)
    (f := fun r : AttemptRecord => { r with scoring := r.scoring.map f }) (fun _ e => e) n
  rw [if_pos rfl, h.record, Option.map_some, h.part, Option.map_some] at a
  exact a

end State.Scores

/-! ## What the scoring unit reads besides (R133, R138 to R145) -/

/-- From `s` to `t` what the scoring unit reads besides the attempt table stays: its own state, the constants, the round
record, and which masts are expected. -/
structure State.ScoringReads (s t : State) : Prop where
  consts : t.loader.consts = s.loader.consts
  scoring : t.scoring = s.scoring
  round : t.standings.round = s.standings.round
  masts : t.expectedMasts = s.expectedMasts

namespace State.ScoringReads

variable {s t u : State}

theorem refl (s : State) : s.ScoringReads s := ⟨rfl, rfl, rfl, rfl⟩

theorem trans (h : s.ScoringReads t) (k : t.ScoringReads u) : s.ScoringReads u :=
  ⟨k.consts.trans h.consts, k.scoring.trans h.scoring, k.round.trans h.round, k.masts.trans h.masts⟩

theorem of_eq (loader : t.loader = s.loader) (scoring : t.scoring = s.scoring) (standings : t.standings = s.standings)
    (roster : t.roster = s.roster) : s.ScoringReads t := by
  refine ⟨by rw [loader], scoring, by rw [standings], ?_⟩
  unfold State.expectedMasts State.rosterAt
  rw [loader, roster]

/-- What a unit other than the roster's, the loader's and the standings' does leaves them. -/
theorem of_scoring (only : OnlyScoring s t) (scoring : t.scoring = s.scoring) : s.ScoringReads t :=
  of_eq (congrArg State.loader only.same :) scoring (congrArg State.standings only.same :)
    (congrArg State.roster only.same :)

theorem scoringTest (s : State) (n : Nat) : s.ScoringReads (s.scoringTest n) :=
  of_scoring ((OnlyScoring.refl s).scoringTest n) (s.scoringTest_scoring n)

theorem gatherTest (s : State) (n : Nat) : s.ScoringReads (s.gatherTest n) :=
  of_scoring ((OnlyScoring.refl s).gatherTest n) (s.gatherTest_scoring n)

theorem modPart (h : s.ScoringReads t) (n : Nat) (f : ScoringPart → ScoringPart) : s.ScoringReads (t.modPart n f) :=
  h.trans ⟨rfl, rfl, rfl, rfl⟩

theorem raise (h : s.ScoringReads t) (b : NoticeBody) : s.ScoringReads (t.raise b) :=
  h.trans (of_eq (by simp) (by simp) (by simp) (by simp))

theorem judged (h : s.ScoringReads t) (bib : Nat) : t.judged bib = s.judged bib := by
  unfold State.judged
  rw [h.scoring]

theorem referenceGate (h : s.ScoringReads t) (r : AttemptRecord) : t.referenceGate r = s.referenceGate r := by
  unfold State.referenceGate
  rw [h.round]

theorem computeResult (h : s.ScoringReads t) (r : AttemptRecord) (p : ScoringPart) (g v : Nat) :
    t.computeResult r p g v = s.computeResult r p g v := by
  unfold State.computeResult
  rw [h.consts, h.judged]

theorem scoringReady (h : s.ScoringReads t) (r : AttemptRecord) (p : ScoringPart) :
    t.scoringReady r p = s.scoringReady r p := by
  unfold State.scoringReady State.voidKept State.marksReady
  rw [h.scoring, h.judged]

end State.ScoringReads

/-! ## The scoring test (R138) -/

/-- The test passes a live part in WAITING whose gather is DONE exactly where R138 says. -/
theorem State.scoringReady_iff (s : State) (r : AttemptRecord) (p : ScoringPart) : s.scoringReady r p = true ↔
    r.state.live = true ∧ p.stage = .waiting ∧ p.gather = .done ∧ s.Publishes r p := by
  have marks : s.marksReady r.hdr.bib p = true ↔ (r.hdr.bib = 0 ∨ s.scoring.mode = some .training ∨
      p.marks.held.length = 5 ∨ p.force = true ∧ 3 ≤ p.marks.held.length) := by
    simp [State.marksReady, State.judged, or_assoc]
  have kept : s.voidKept r.hdr.attempt = false ↔ ∀ v ∈ s.scoring.voidCopies, v.hdr.attempt ≠ r.hdr.attempt := by
    simp [State.voidKept]
  have distance : p.distance.isSome = true ↔ p.distance ≠ none := by simp [Option.isSome_iff_ne_none]
  unfold State.scoringReady State.Publishes
  simp only [Bool.and_eq_true, Bool.not_eq_true', marks, kept, distance, beq_iff_eq]
  tauto

/-- The part that has sent a RESULT (R146). -/
def ScoringPart.sends (p : ScoringPart) (g : Nat) (res : ResultPayload) : ScoringPart :=
  { p with
    refGateUsed := some g, computed := some res, revision := some res.revision, copy := some res, stage := .sent }

/-- The first RESULT of an attempt (R146). -/
def State.firstResult (s : State) (r : AttemptRecord) (p : ScoringPart) : ResultPayload :=
  s.computeResult r p (s.referenceGate r) 0

section test

variable {s : State} {n : Nat} {r : AttemptRecord} {p : ScoringPart}

/-- A part that does not pass the test stays as it is. -/
theorem State.scoringTest_fails (h : s.Scores n r p) (fails : s.scoringReady r p = false) : s.scoringTest n = s := by
  unfold State.scoringTest
  rw [h.record]
  dsimp only
  rw [h.part]
  dsimp only
  rw [fails, if_neg Bool.false_ne_true]

theorem State.scoringTest_passes (h : s.Scores n r p) (ready : s.scoringReady r p = true) :
    s.scoringTest n = s.offerResult n (s.referenceGate r) (s.firstResult r p) := by
  unfold State.scoringTest
  rw [h.record]
  dsimp only
  rw [h.part]
  dsimp only
  rw [if_pos ready]
  rfl

/-- A part that passes is SENT, with its RESULT kept. -/
theorem State.Scores.offerResult (h : s.Scores n r p) (g : Nat) (res : ResultPayload) :
    (s.offerResult n g res).Scores n { r with scoring := some (p.sends g res) } (p.sends g res) :=
  (h.modPart fun p => p.sends g res).of_table (by
    unfold State.offerResult State.sendResult
    rw [State.raise_table, State.offer_table]
    rfl)

/-- What the scoring test makes of a part: it stays, or it has sent the first RESULT. -/
def State.tested (s : State) (r : AttemptRecord) (p : ScoringPart) : ScoringPart :=
  if s.scoringReady r p then p.sends (s.referenceGate r) (s.firstResult r p) else p

theorem State.Scores.scoringTest (h : s.Scores n r p) :
    (s.scoringTest n).Scores n { r with scoring := some (s.tested r p) } (s.tested r p) := by
  unfold State.tested
  cases ready : s.scoringReady r p with
  | true =>
    rw [State.scoringTest_passes h ready, if_pos rfl]
    exact h.offerResult _ _
  | false =>
    rw [State.scoringTest_fails h ready, if_neg Bool.false_ne_true]
    refine ⟨?_, rfl⟩
    rw [h.record, ← h.part]

/-- A second test finds nothing more to send. -/
theorem State.scoringTest_again (h : s.Scores n r p) : (s.scoringTest n).scoringTest n = s.scoringTest n := by
  refine State.scoringTest_fails h.scoringTest ?_
  rw [(State.ScoringReads.scoringTest s n).scoringReady]
  show s.scoringReady r (s.tested r p) = false
  unfold State.tested
  cases ready : s.scoringReady r p with
  | true => simp [State.scoringReady, ScoringPart.sends]
  | false => simpa using ready

/-- The test changes neither what is gathered nor what is measured. -/
theorem State.tested_keeps (s : State) (r : AttemptRecord) (p : ScoringPart) :
    (s.tested r p).gather = p.gather ∧ (s.tested r p).deadline = p.deadline ∧ (s.tested r p).distance = p.distance ∧
      (s.tested r p).means = p.means ∧ (s.tested r p).marks = p.marks := by
  unfold State.tested
  split <;> exact ⟨rfl, rfl, rfl, rfl, rfl⟩

/-- A part in WAITING whose gather is DONE sends its first RESULT where its record is live and R138 allows it. -/
theorem State.tested_sent (s : State) {r : AttemptRecord} {p : ScoringPart} (waits : p.stage = .waiting)
    (done : p.gather = .done) :
    ((s.tested r p).stage = .sent ↔ r.state.live = true ∧ s.Publishes r (s.tested r p)) ∧
      ((s.tested r p).stage = .sent → (s.tested r p).revision = some 0 ∧
        (s.tested r p).copy = some (s.computeResult r (s.tested r p) (s.referenceGate r) 0)) := by
  have ready := s.scoringReady_iff r p
  unfold State.tested
  split
  · rename_i passes
    obtain ⟨live, -, -, publishes⟩ := ready.1 passes
    exact ⟨⟨fun _ => ⟨live, publishes⟩, fun _ => rfl⟩, fun _ => ⟨rfl, rfl⟩⟩
  · rename_i fails
    refine ⟨⟨fun sent => ?_, fun ⟨live, publishes⟩ => ?_⟩, fun sent => ?_⟩
    · rw [waits] at sent; cases sent
    · exact absurd (ready.2 ⟨live, waits, done, publishes⟩) fails
    · rw [waits] at sent; cases sent

end test

/-! ## The gather (R133 to R135) -/

/-- Every expected mast has an entry in the means list (R135). -/
def State.complete (s : State) (p : ScoringPart) : Bool := s.expectedMasts.all (fun m => p.means.any (·.mast == m))

/-- The part whose gather is DONE (R135). -/
def ScoringPart.done (p : ScoringPart) : ScoringPart := { p with gather := .done, deadline := none }

/-- What the test of the gather makes of a part. -/
def State.gathered (s : State) (r : AttemptRecord) (p : ScoringPart) : ScoringPart :=
  if p.gather = .opened ∧ s.complete p = true then s.tested r p.done else p

section gather

variable {s : State} {n : Nat} {r : AttemptRecord} {p : ScoringPart}

/-- The record with the part it has. -/
theorem State.Scores.with_part (h : s.Scores n r p) : s.Scores n { r with scoring := some p } p :=
  ⟨by rw [h.record, ← h.part], rfl⟩

theorem State.gatherTest_eq (h : s.Scores n r p) : s.gatherTest n =
    if p.gather = .opened ∧ s.complete p = true then s.gatherDone n p.means.length false else s := by
  unfold State.gatherTest
  rw [h.part?]
  rfl

/-- The state in which a completed gather is tested for scoring. -/
theorem State.Scores.completed (h : s.Scores n r p) : ∃ u : State, s.ScoringReads u ∧
    u.Scores n { r with scoring := some p.done } p.done ∧ s.gatherDone n p.means.length false = u.scoringTest n :=
  ⟨_, ((State.ScoringReads.refl s).modPart n _).raise _, (h.modPart ScoringPart.done).raise _, rfl⟩

theorem State.ScoringReads.tested {t : State} (h : s.ScoringReads t) (r : AttemptRecord) (p : ScoringPart) :
    t.tested r p = s.tested r p := by
  unfold State.tested State.firstResult
  rw [h.scoringReady, h.referenceGate, h.computeResult]

theorem State.ScoringReads.gathered {t : State} (h : s.ScoringReads t) (r : AttemptRecord) (p : ScoringPart) :
    t.gathered r p = s.gathered r p := by
  unfold State.gathered State.complete
  rw [h.masts, h.tested]

theorem State.Scores.gatherTest (h : s.Scores n r p) :
    (s.gatherTest n).Scores n { r with scoring := some (s.gathered r p) } (s.gathered r p) := by
  rw [State.gatherTest_eq h]
  unfold State.gathered
  split
  · obtain ⟨u, reads, scores, e⟩ := h.completed
    rw [e, ← reads.tested]
    exact scores.scoringTest
  · exact h.with_part

/-- The test of an OPEN gather leaves nothing for a test of the score to do. -/
theorem State.gatherTest_scoringTest (h : s.Scores n r p) (opened : p.gather = .opened) :
    (s.gatherTest n).scoringTest n = s.gatherTest n := by
  rw [State.gatherTest_eq h]
  split
  · obtain ⟨u, -, scores, e⟩ := h.completed
    rw [e]
    exact State.scoringTest_again scores
  · refine State.scoringTest_fails h ?_
    simp [State.scoringReady, opened]

/-- A MASTMEAN enters the means of a part whose gather is not DONE, where its station holds that scoring mast; any other
leaves the part (R134). -/
def State.meanTaken (s : State) (l : LineHdr) (r : AttemptRecord) (p : ScoringPart) (e : MeanEntry) : ScoringPart :=
  if s.loader.consts.mastStation e.mast = some l.sender ∧ s.loader.consts.isScoring e.mast = true ∧
      p.gather ≠ .done then
    s.gathered r { p with means := putMean e p.means }
  else p

theorem State.Scores.scoringMean (h : s.Scores n r p) (l : LineHdr) (mast : Nat) (mean : Option Int) (used : Nat)
    (part : Bool) : (s.scoringMean l n mast mean used part).Scores n
      { r with scoring := some (s.meanTaken l r p ⟨mast, mean, used, part⟩) }
      (s.meanTaken l r p ⟨mast, mean, used, part⟩) := by
  unfold State.scoringMean State.meanTaken
  by_cases sender : s.loader.consts.mastStation mast = some l.sender
  · by_cases scoring : s.loader.consts.isScoring mast = true
    · by_cases done : p.gather = .done
      · rw [if_neg (not_not.2 sender), if_neg (by simp [scoring]), h.part?, if_neg (by simp [done])]
        dsimp only
        rw [if_pos done]
        exact (h.raise _).with_part
      · rw [if_neg (not_not.2 sender), if_neg (by simp [scoring]), h.part?, if_pos ⟨sender, scoring, done⟩]
        dsimp only
        rw [if_neg done]
        exact (h.modPart fun p => { p with means := putMean ⟨mast, mean, used, part⟩ p.means }).gatherTest
    · rw [if_neg (not_not.2 sender), if_pos (by simpa using scoring), if_neg (fun k => scoring k.2.1)]
      exact (h.raise _).with_part
  · rw [if_pos sender, if_neg (fun k => sender k.1)]
    exact (h.raise _).with_part

/-- What a LANDING makes of a part whose gather it opens: its distance, or the manual distance that is handed over to a
part in WAITING (R128, R133). -/
def State.landingTaken (s : State) (l : LineHdr) (r : AttemptRecord) (p : ScoringPart) (manual : Option Nat) :
    ScoringPart :=
  { p with
    gather := .opened, deadline := some (s.gatherEnd l.stamp)
    distance := match manual with
      | some m => if p.stage = .waiting then some (m, .manual) else recordDistance r
      | none => recordDistance r }

/-- The gather of a part that has none is opened, and the distance of its record taken. -/
theorem State.Scores.openGather (h : s.Scores n r p) (l : LineHdr) (fresh : p.gather = .notOpen)
    (unknown : p.distance = none) : ((s.openGather n l.stamp).modPart n (fun q =>
      if q.manualKnown then q else { q with distance := recordDistance r })).Scores n
      { r with scoring := some (s.landingTaken l r p none) } (s.landingTaken l r p none) := by
  have k := (h.modPart fun p => if p.gather = .notOpen then
    { p with gather := .opened, deadline := some (s.gatherEnd l.stamp) } else p).modPart fun q =>
      if q.manualKnown then q else { q with distance := recordDistance r }
  simp only [fresh, if_true, ScoringPart.manualKnown, unknown] at k
  exact k

theorem State.Scores.scoringLanding (h : s.Scores n r p) (l : LineHdr) (manual : Option Nat)
    (fresh : p.gather = .notOpen) (unknown : p.distance = none) : (s.scoringLanding l n manual).Scores n
      { r with scoring := some (s.gathered r (s.landingTaken l r p manual)) }
      (s.gathered r (s.landingTaken l r p manual)) := by
  have opened := h.openGather l fresh unknown
  unfold State.scoringLanding
  rw [h.record]
  dsimp only
  rw [h.part]
  dsimp only
  rw [if_pos fresh, if_pos (.inl fresh)]
  have reads : s.ScoringReads ((s.openGather n l.stamp).modPart n (fun q =>
      if q.manualKnown then q else { q with distance := recordDistance r })) :=
    ((State.ScoringReads.refl s).modPart n _).modPart n _
  generalize State.modPart _ _ _ = u at opened reads ⊢
  rw [← reads.gathered]
  split
  · rename_i handed
    obtain ⟨some, waits⟩ := handed
    obtain ⟨m, rfl⟩ := Option.isSome_iff_exists.1 some
    have given : ({ s.landingTaken l r p none with
        distance := Option.map (fun m => (m, Quality.manual)) (Option.some m) } : ScoringPart) =
        s.landingTaken l r p (Option.some m) := by simp [State.landingTaken, waits]
    have k := opened.modPart fun p => { p with distance := Option.map (fun m => (m, Quality.manual)) (Option.some m) }
    rw [given] at k
    rw [State.gatherTest_scoringTest k rfl]
    exact k.gatherTest
  · rename_i kept
    have same : s.landingTaken l r p manual = s.landingTaken l r p none := by
      cases manual with
      | none => rfl
      | some m => simp [State.landingTaken, show p.stage ≠ .waiting from fun w => kept ⟨rfl, w⟩]
    rw [same, State.gatherTest_scoringTest opened rfl]
    exact opened.gatherTest

end gather

end Sys2Proof.Machine
end

section
/-! A frame that implies LANDED, on its way through the blocks of a station (R36, R106, R133, R134). -/

namespace Sys2Proof.Machine

open Sys2Proof

/-! ## Up to the blocks -/

/-- A delivered frame is delivered from a state that differs in the line interface alone, with the same urgent queue. -/
theorem State.Delivers.delivery_urgent {s : State} {l : LineHdr} {b : Body} (d : s.Delivers l b) : ∃ line : LineState,
    line.urgent = s.line.urgent ∧ line.eventNumber = s.line.eventNumber ∧
      Machine.exec (frameCommand l.rx b) s = .next (State.deliver { s with line := line } l b) := by
  rw [exec_frameCommand]
  rcases d with heard | echoed
  · exact ⟨{ s.line.heard b with yieldMark := false }, rfl, rfl, by rw [heard.toHears.receive]⟩
  · have loaded : s.loader.state ≠ .loading := by rcases echoed.active with e | e <;> simp [e]
    exact ⟨{ s.line.endTx b with busyUs := some b.lineUs }, rfl, rfl,
      by rw [State.receive_echo echoed.released loaded echoed.sending echoed.line echoed.body]⟩

/-- The record enters LANDED, and none is forced there. -/
def Change.lands (c : Change) : Prop := ∃ r before, c = .entered r before false ∧ r.state = .landed

/-- Before a frame reaches the blocks: what they keep, the urgent queue, the event number and who is PRESENT are as they
were. -/
structure State.BeforeBlocks (s u : State) : Prop where
  loader : u.loader = s.loader
  contexts : u.contexts = s.contexts
  scoring : u.scoring = s.scoring
  standings : u.standings = s.standings
  wind : u.wind = s.wind
  urgent : u.line.urgent = s.line.urgent
  event : u.line.eventNumber = s.line.eventNumber
  presence : ∀ n, (u.rosterAt n).presence = (s.rosterAt n).presence

/-- A PRESENT station that is heard stays so, and every other as it was (R28). -/
theorem presence_set {es : List RosterEntry} {m : Nat} (present : (es.getD m {}).presence = .present) {e : RosterEntry}
    (heard : e.presence = .present) (n : Nat) : ((es.set m e).getD n {}).presence = (es.getD n {}).presence := by
  by_cases same : m = n
  · subst same
    by_cases bound : m < es.length
    · rw [present]; simp [List.getD, bound, heard]
    · rw [List.set_eq_of_length_le (by omega)]
  · simp [List.getD, same]

/-- A frame that implies LANDED moves a record that is not VOID to LANDED, or leaves its state (R36, R39). -/
theorem AttemptRecord.take_lands {b : Body} (landed : impliedState b = .landed) {r : AttemptRecord}
    (nv : r.state ≠ .void) (bound : Bool) (l : LineHdr) : (r.take bound l b).state = r.state ∨
      r.state.rank < AttemptState.landed.rank ∧ (r.take bound l b).state = .landed := by
  have notPhase : ∀ h p g sec n, b ≠ .phase h p g sec n := by rintro h p g sec n rfl; cases p <;> cases landed
  have rises := nextState_rises (r := r) bound notPhase
  rw [AttemptRecord.take_state, if_neg nv]
  cases b with
  | void h why => cases landed
  | _ =>
    dsimp only
    rw [rises, landed]
    split
    · rename_i below
      exact .inr ⟨below.1, rfl⟩
    · exact .inl rfl

/-- A record that is not VOID is live after such a frame unless it is PUBLISHED. -/
theorem AttemptRecord.take_lands_live {b : Body} (landed : impliedState b = .landed) {r : AttemptRecord}
    (nv : r.state ≠ .void) (bound : Bool) (l : LineHdr) :
    (r.take bound l b).state.live = true ↔ r.state ≠ .published := by
  rcases r.take_lands landed nv bound l with stays | ⟨below, moves⟩
  · rw [stays]
    cases state : r.state with
    | void => exact absurd state nv
    | _ => simp [AttemptState.live]
  · rw [moves]
    refine ⟨fun _ published => ?_, fun _ => rfl⟩
    rw [published] at below
    exact absurd below (by decide)

/-- The tracker hands a move to LANDED to the blocks, and forces no other record (R43). -/
theorem State.takeKnown_lands (s : State) (own : Bool) (l : LineHdr) {b : Body} (landed : impliedState b = .landed)
    (h : AttemptHdr) {r : AttemptRecord} (nv : r.state ≠ .void) : ∀ c ∈ (s.takeKnown own l b h r).2, c.lands := by
  have state := r.take_lands landed nv (s.loader.roles.start && !own) l
  by_cases stays : (r.take (s.loader.roles.start && !own) l b).state = r.state
  · have none : (s.takeKnown own l b h r).2 = [] := by
      unfold State.takeKnown
      extract_lets s1 r' s2
      have loader : s1.loader = s.loader := by unfold s1; split <;> simp
      rw [if_pos (by unfold r'; rw [loader]; exact stays)]
    simp [none]
  · obtain ⟨-, landed⟩ := state.resolve_left stays
    rcases State.takeKnown_changes (s := s) (own := own) (l := l) (b := b) (h := h) (r := r) (by rw [landed]; rfl) with
      e | ⟨e, -⟩
    · simp [e]
    · rw [e]
      intro c mem
      obtain rfl := List.mem_singleton.1 mem
      exact ⟨_, _, rfl, landed⟩

/-- A delivered frame that implies LANDED, from a PRESENT station and of a known attempt that is not VOID, comes to the
blocks with its record written. -/
theorem State.Delivers.toBlocks {s : State} {l : LineHdr} {b : Body} (d : s.Delivers l b)
    (present : (s.rosterAt l.sender).presence = .present) (landed : impliedState b = .landed) {h : AttemptHdr}
    (hd : b.hdr? = some h) {r : AttemptRecord} (k : s.attempt? h.attempt = some r) (nv : r.state ≠ .void) :
    ∃ u cs, Machine.exec (frameCommand l.rx b) s = .next (u.handFrame l b cs) ∧ s.BeforeBlocks u ∧
      (∀ c ∈ cs, c.lands) ∧ u.attempt? h.attempt = some (r.take (s.loader.roles.start && !s.isOwn l) l b) := by
  obtain ⟨line, urgent, event, run⟩ := d.delivery_urgent
  have tracked : State.tracked { s with line := line } l b =
      { s with line := line, roster := s.roster.set l.sender ((s.rosterAt l.sender).hear l b) } := by
    unfold State.tracked
    rw [State.rosterTake_quiet (s := { s with line := line }) present (by
      cases b with
      | status p => cases hd
      | _ => rfl)]
    cases b with
    | status p => cases hd
    | event n m rounds => cases hd
    | _ => rfl
  rw [State.deliver_passed (s := { s with line := line }) d.base (d.filter_of_event event)] at run
  refine ⟨_, _, run, ?_⟩
  show s.BeforeBlocks ((State.tracked { s with line := line } l b).track l b).1 ∧
    (∀ c ∈ ((State.tracked { s with line := line } l b).track l b).2, c.lands) ∧
    ((State.tracked { s with line := line } l b).track l b).1.attempt? h.attempt = _
  rw [tracked]
  clear run tracked
  generalize heard : ({ s with line := line, roster := s.roster.set l.sender ((s.rosterAt l.sender).hear l b) } :
    State) = v
  have kv : v.attempt? h.attempt = some r := by rw [← heard]; exact k
  have own : v.isOwn l = s.isOwn l := by rw [← heard]; rfl
  have loader : v.loader = s.loader := by rw [← heard]
  rw [State.track_known hd kv]
  refine ⟨?_, State.takeKnown_lands v _ l landed h nv, ?_⟩
  · have only := (OnlyTable.takeKnown v (v.isOwn l) l b h r).same
    have still := (OffersNone.refl v).takeKnown (v.isOwn l) l b h r
    have before : s.BeforeBlocks v := by
      rw [← heard]
      exact ⟨rfl, rfl, rfl, rfl, rfl, urgent, event, presence_set present rfl⟩
    refine ⟨still.loader.trans before.loader, (congrArg State.contexts only : _).trans before.contexts,
      (congrArg State.scoring only : _).trans before.scoring,
      (congrArg State.standings only : _).trans before.standings, (congrArg State.wind only : _).trans before.wind,
      by rw [still.line]; exact before.urgent, by rw [still.line]; exact before.event, fun n => ?_⟩
    rw [← before.presence n]
    exact (congrArg (fun u => (u.rosterAt n).presence) only :)
  · rw [State.takeKnown_attempt kv, loader, own]

/-! ## The changes at the blocks -/

theorem State.windChange_lands (s : State) {c : Change} (lands : c.lands) : s.windChange c = s := by
  obtain ⟨r, before, rfl, landed⟩ := lands
  simp [State.windChange, landed, AttemptState.ended]

theorem State.landingChange_lands (s : State) (l : LineHdr) {c : Change} (lands : c.lands) :
    s.landingChange l c = s := by
  obtain ⟨r, before, rfl, landed⟩ := lands
  simp [State.landingChange, landed, AttemptState.landingDone]

theorem Change.lands.grounded {c : Change} (lands : c.lands) : c.grounded := by
  obtain ⟨r, before, rfl, landed⟩ := lands
  simp [Change.grounded, landed]

/-- A change that an act takes as nothing, again and again, is nothing. -/
theorem State.foldl_same {f : State → Change → State} {cs : List Change} (lands : ∀ c ∈ cs, c.lands)
    (same : ∀ s c, c.lands → f s c = s) (s : State) : cs.foldl f s = s := by
  induction cs with
  | nil => rfl
  | cons c cs ih =>
    rw [List.foldl_cons, same s c (lands c (by simp))]
    exact ih fun c m => lands c (by simp [m])

/-- The part that a record has stays at its entry into LANDED (R132). -/
theorem State.Scores.scoringChanges {s : State} {n : Nat} {r : AttemptRecord} {p : ScoringPart} (h : s.Scores n r p)
    {cs : List Change} (lands : ∀ c ∈ cs, c.lands) :
    (cs.foldl State.scoringChange s).Scores n r p ∧ s.ScoringReads (cs.foldl State.scoringChange s) := by
  induction cs generalizing s with
  | nil => exact ⟨h, .refl s⟩
  | cons c cs ih =>
    obtain ⟨x, before, rfl, landed⟩ := lands c (by simp)
    have change : s.scoringChange (.entered x before false) =
        s.setRecord x.hdr.attempt (fun r => if r.scoring.isSome then r else { r with scoring := some {} }) := by
      simp [State.scoringChange, landed, AttemptState.scored]
    have scores : (s.scoringChange (.entered x before false)).Scores n r p := by
      refine ⟨?_, h.part⟩
      rw [change, State.setRecord_attempt fun r k => by split <;> exact k, h.record]
      split
      · simp [h.part]
      · rfl
    have reads : s.ScoringReads (s.scoringChange (.entered x before false)) := by
      rw [change]
      exact .of_eq rfl rfl rfl rfl
    obtain ⟨kept, later⟩ := ih scores fun c m => lands c (by simp [m])
    exact ⟨kept, reads.trans later⟩

theorem State.BeforeBlocks.reads {s u : State} (h : s.BeforeBlocks u) : s.ScoringReads u := by
  refine ⟨by rw [h.loader], h.scoring, by rw [h.standings], ?_⟩
  unfold State.expectedMasts
  simp only [h.loader, h.presence]

theorem State.BeforeBlocks.handedManual {s u : State} (h : s.BeforeBlocks u) (l : LineHdr) (b : Body) :
    u.handedManual l b = s.handedManual l b := by
  unfold State.handedManual State.contextSent State.context? State.isOwn
  rw [h.loader, h.contexts]

/-- What a block of another kind leaves of what the scoring unit reads. -/
theorem Only.reads {R : State → State → State} {s t : State} (only : Only R s t)
    (k : ∀ s t, (R s t).loader = t.loader ∧ (R s t).scoring = t.scoring ∧ (R s t).standings = t.standings ∧
      (R s t).roster = t.roster ∧ (R s t).table = t.table) :
    s.ScoringReads t ∧ t.loader = s.loader ∧ t.table = s.table := by
  obtain ⟨loader, scoring, standings, roster, table⟩ := k s t
  rw [only.same] at loader scoring standings roster table
  exact ⟨.of_eq loader.symm scoring.symm standings.symm roster.symm, loader.symm, table.symm⟩

/-- At JURY the scoring unit takes the frame with the part as it was, and no block after it changes the table. -/
theorem State.handFrame_scores {u : State} {n : Nat} {r : AttemptRecord} {p : ScoringPart} (h : u.Scores n r p)
    (jury : u.loader.roles.jury = true) (l : LineHdr) (b : Body) {cs : List Change} (lands : ∀ c ∈ cs, c.lands) :
    ∃ y, u.ScoringReads y ∧ y.Scores n r p ∧
      (u.handFrame l b cs).table = (y.scoringFrame l b (u.handedManual l b)).table := by
  obtain ⟨s1, s2, s3, s4, s5, s6, s7, ⟨-, o1⟩, ⟨-, o2⟩, ⟨-, o3⟩, ⟨-, o4⟩, ⟨-, o5⟩, ⟨e6, -⟩, ⟨-, o7⟩, -, o8⟩ :=
    u.handFrame_stages l b cs
  obtain ⟨r1, l1, t1⟩ := o1.reads fun _ _ => ⟨rfl, rfl, rfl, rfl, rfl⟩
  obtain ⟨r2, l2, t2⟩ := o2.reads fun _ _ => ⟨rfl, rfl, rfl, rfl, rfl⟩
  obtain ⟨r3, l3, t3⟩ := o3.reads fun _ _ => ⟨rfl, rfl, rfl, rfl, rfl⟩
  obtain ⟨r4, l4, t4⟩ := o4.reads fun _ _ => ⟨rfl, rfl, rfl, rfl, rfl⟩
  obtain ⟨r5, l5, t5⟩ := o5.reads fun _ _ => ⟨rfl, rfl, rfl, rfl, rfl⟩
  have loader : s5.loader = u.loader := by rw [l5, l4, l3, l2, l1]
  have reads : u.ScoringReads s5 := (((r1.trans r2).trans r3).trans r4).trans r5
  have scores : s5.Scores n r p := h.of_table (by rw [t5, t4, t3, t2, t1])
  obtain ⟨k, changed⟩ := scores.scoringChanges lands
  refine ⟨_, reads.trans changed, k, ?_⟩
  rw [State.ifRole, if_pos (by rw [loader]; exact jury)] at e6
  rw [← e6]
  exact (congrArg State.table o8.same : _).trans (congrArg State.table o7.same :)

end Sys2Proof.Machine
end

section
/-! A LANDING at a MAST station: the flight window's mean, and its MASTMEAN in the urgent queue (R106 to R109). -/

namespace Sys2Proof.Machine

open Sys2Proof

/-! ## The urgent queue grows -/

/-- From `s` to `t` the urgent queue grows at its tail alone. -/
def State.UrgentGrows (s t : State) : Prop := s.line.urgent <+: t.line.urgent

namespace State.UrgentGrows

variable {s t u : State}

theorem of_line (e : t.line = s.line) : s.UrgentGrows t := by
  unfold State.UrgentGrows
  rw [e]

theorem refl (s : State) : s.UrgentGrows s := of_line rfl

theorem trans (h : s.UrgentGrows t) (k : t.UrgentGrows u) : s.UrgentGrows u := List.IsPrefix.trans h k

/-- A frame that is offered joins the tail, or is of the routine class, or is dropped (R9, R10). -/
theorem offer (h : s.UrgentGrows t) (b : Body) (e : Option Tick) : s.UrgentGrows (t.offer b e) := by
  refine h.trans ?_
  unfold State.UrgentGrows
  rcases t.offer_cases b e with ⟨-, x⟩ | ⟨-, r, -, x⟩ | ⟨-, -, x⟩ | ⟨-, -, -, x⟩ <;> rw [x]
  · rw [Body.routine_of_replaces ((Body.replaces_iff b).1 r)]
    exact List.prefix_refl _
  · simp
  · cases urgent : b.urgent
    · exact List.prefix_refl _
    · exact List.prefix_append _ _

theorem raise (h : s.UrgentGrows t) (n : NoticeBody) : s.UrgentGrows (t.raise n) := h.trans (of_line (by simp))

theorem modPart (h : s.UrgentGrows t) (n : Nat) (f : ScoringPart → ScoringPart) : s.UrgentGrows (t.modPart n f) :=
  h.trans (of_line rfl)

theorem modStandings (h : s.UrgentGrows t) (f : StandingsState → StandingsState) : s.UrgentGrows (t.modStandings f) :=
  h.trans (of_line rfl)

theorem ite {c : Prop} [Decidable c] (h : s.UrgentGrows t) (k : s.UrgentGrows u) :
    s.UrgentGrows (if c then t else u) := by
  split <;> assumption

theorem ifRole (h : s.UrgentGrows t) (role : RoleSet → Bool) {act : State → State} (k : t.UrgentGrows (act t)) :
    s.UrgentGrows (t.ifRole role act) := .ite (h.trans k) h

theorem foldl {α : Type} {f : State → α → State} (as : List α) (step : ∀ u : State, ∀ a ∈ as, u.UrgentGrows (f u a)) :
    ∀ s : State, s.UrgentGrows (as.foldl f s) := by
  induction as with
  | nil => exact refl
  | cons a as ih => exact fun s => (step s a (by simp)).trans (ih (fun u b m => step u b (by simp [m])) _)

/-! ### The scoring unit, the standings and the board -/

theorem scoringTest (h : s.UrgentGrows t) (n : Nat) : s.UrgentGrows (t.scoringTest n) := by
  unfold State.scoringTest
  split
  · exact h
  · split
    · exact h
    · exact .ite (((h.modPart _ _).offer _ _).raise _) h

theorem gatherTest (h : s.UrgentGrows t) (n : Nat) : s.UrgentGrows (t.gatherTest n) := by
  unfold State.gatherTest
  split
  · exact h
  · exact .ite (((h.modPart _ _).raise _).scoringTest n) h

theorem scoringLanding (h : s.UrgentGrows t) (l : LineHdr) (n : Nat) (manual : Option Nat) :
    s.UrgentGrows (t.scoringLanding l n manual) := by
  unfold State.scoringLanding
  split
  · exact h
  · split
    · exact h
    · extract_lets fresh handed s1 s2
      have k1 : s.UrgentGrows s1 := .ite ((h.modPart _ _).modPart _ _) h
      have k2 : s.UrgentGrows s2 := .ite (k1.modPart _ _) k1
      exact .ite ((k2.gatherTest n).scoringTest n) k2

theorem scoringChange (s : State) (c : Change) : s.UrgentGrows (s.scoringChange c) := by
  cases c with
  | removed r => exact of_line rfl
  | entered r before forced => exact .ite (of_line rfl) (.ite (of_line rfl) (refl s))

theorem offerRound (h : s.UrgentGrows t) (n : Nat) (m : RoundMsg) (g : Nat) : s.UrgentGrows (t.offerRound n m g) :=
  (h.modStandings _).offer _ _

theorem closeNow (h : s.UrgentGrows t) : s.UrgentGrows t.closeNow := by
  have closed : s.UrgentGrows t.roundEnd := (((h.modStandings _).offerRound _ _ _).modStandings _).raise _
  rw [t.closeNow_eq]
  exact .ite (((closed.modStandings _).offerRound _ _ _).raise _) closed

theorem testClosing (h : s.UrgentGrows t) : s.UrgentGrows t.testClosing := .ite h.closeNow h

theorem board (h : BoardActs s t) : s.UrgentGrows t := of_line (congrArg State.line h.same :)

end State.UrgentGrows

/-! ## The flight window (R107) -/

/-- The mean is that of the record's two times over the ring. -/
theorem State.flightMean_congr {s t : State} {r x : AttemptRecord} (loader : t.loader = s.loader)
    (wind : t.wind = s.wind) (takeoff : x.takeoffTime = r.takeoffTime) (landing : x.landingTime = r.landingTime) :
    t.flightMean x = s.flightMean r := by
  unfold State.flightMean
  rw [loader, wind, takeoff, landing]

/-! ## The stages from the wind unit on -/

/-- A LANDING that comes to the blocks of a MAST station finds the wind unit with the record and the queue as they were;
what it leaves of its own state stays, and the urgent queue only grows after it. -/
theorem State.handFrame_mast {u : State} (mast : u.loader.roles.mast = true) (l : LineHdr) (h : AttemptHdr) (d : Nat)
    (q : Quality) (nt lc : Bool) {cs : List Change} (lands : ∀ c ∈ cs, c.lands) :
    ∃ y : State, y.loader = u.loader ∧ y.wind = u.wind ∧ y.table = u.table ∧
      (u.loader.roles.start = false → y.line = u.line) ∧
      (u.handFrame l (.landing h d q nt lc) cs).wind = (y.windLanding h.attempt).wind ∧
      (y.windLanding h.attempt).UrgentGrows (u.handFrame l (.landing h d q nt lc) cs) := by
  obtain ⟨s1, s2, s3, s4, s5, s6, s7, ⟨e1, o1⟩, ⟨e2, o2⟩, ⟨e3, o3⟩, ⟨e4, o4⟩, ⟨e5, o5⟩, ⟨e6, o6⟩, ⟨e7, o7⟩, e8, o8⟩ :=
    u.handFrame_stages l (.landing h d q nt lc) cs
  have loader : s2.loader = u.loader := (congrArg State.loader o2.same : _).trans (congrArg State.loader o1.same :)
  have taken : s3 = s2.windLanding h.attempt := by
    rw [e3, State.ifRole, if_pos (by rw [loader]; exact mast), State.foldl_same lands fun s c => s.windChange_lands]
    rfl
  refine ⟨s2, loader, (congrArg State.wind o2.same : _).trans (congrArg State.wind o1.same :),
    (congrArg State.table o2.same : _).trans (congrArg State.table o1.same :), fun start => ?_, ?_, ?_⟩
  · have first : s1 = u := by rw [e1, State.ifRole, if_neg (by rw [start]; exact Bool.false_ne_true)]
    have edge : OffersNone s1 s2 := by
      rw [e2]
      refine (OffersNone.refl s1).ifRole _ fun _ => ?_
      have kept : ∀ x : State, x.edgeFrame l (.landing h d q nt lc) = x := fun x => by
        unfold State.edgeFrame
        split <;> rfl
      rw [kept]
      exact .foldl cs (fun u c _ => .edgeChange u c) s1
    rw [edge.line, first]
  · rw [← taken]
    calc (u.handFrame l (.landing h d q nt lc) cs).wind = s7.wind := (congrArg State.wind o8.same :)
      _ = s6.wind := (congrArg State.wind o7.same :)
      _ = s5.wind := (congrArg State.wind o6.same :)
      _ = s4.wind := (congrArg State.wind o5.same :)
      _ = s3.wind := (congrArg State.wind o4.same :)
  · rw [← taken, e8]
    have k4 : s3.UrgentGrows s4 := by
      rw [e4]
      refine .of_line (OffersNone.ifRole (.refl s3) _ fun _ => ?_).line
      have kept : ∀ x : State, x.spanFrame l (.landing h d q nt lc) = x := fun x => by
        unfold State.spanFrame
        split <;> rfl
      rw [kept]
      exact .foldl cs (fun u c m => .spanChange u (lands c m).grounded) s3
    have k5 : s4.UrgentGrows s5 := by
      rw [e5]
      refine .ifRole (.refl s4) _ ?_
      rw [State.foldl_same lands fun s c => s.landingChange_lands l]
      exact .ite (.of_line rfl) (.refl s4)
    have k6 : s5.UrgentGrows s6 := by
      rw [e6]
      exact .ifRole (.refl s5) _
        ((State.UrgentGrows.foldl cs (fun u c _ => .scoringChange u c) s5).scoringLanding l _ _)
    have k7 : s6.UrgentGrows s7 := by
      rw [e7]
      exact .ifRole (.refl s6) _ (.ite (.refl s6) (State.UrgentGrows.refl s6).testClosing)
    exact (((k4.trans k5).trans k6).trans k7).trans (.ifRole (.refl s7) _ (.board (BoardActs.refl.boardTake _ l _ cs)))

/-- The wind unit at a LANDING of an attempt in LANDED without a mean: its mean record, and a MASTMEAN (R108). -/
theorem State.windLanding_offers {y : State} {n : Nat} {x : AttemptRecord} (known : y.attempt? n = some x)
    (landed : x.state = .landed) (new : y.wind.hasMean n = false) {mean : Option Int} {used : Nat} {part : Bool}
    (window : y.flightMean x = (mean, used, part)) {body : Body}
    (content : body = .mastMean x.hdr y.loader.mast mean used part) :
    (y.windLanding n).wind = { y.wind with means := y.wind.means ++ [⟨n, some body, false⟩] } ∧
      (y.loader.state = .run → y.line.urgent.length < 8 →
        (y.windLanding n).line.urgent = y.line.urgent ++ [⟨body, y.line.eventNumber, none⟩]) := by
  have act : y.windLanding n = ((y.modWind fun w => { w with means := w.means ++ [⟨n, some body, false⟩] }).offer body
      none).raise (.meanSent n mean used part) := by
    unfold State.windLanding
    rw [known]
    dsimp only
    rw [if_neg (by simp [landed]), if_pos ⟨landed, by simp [new]⟩, window, content]
  rw [act]
  refine ⟨by simp [State.modWind], fun run room => ?_⟩
  have sends : y.loader.state.isMuted = false := by rw [run]; rfl
  rw [State.raise_line, State.offer_joins (by exact sends) (by rw [content]; rfl)]
  subst content
  exact congrArg (fun v : State => v.line.urgent) (if_pos room)

end Sys2Proof.Machine
end

section
/-! The statement about LANDING and MASTMEAN (O26). -/

namespace Sys2Proof.Machine

open Sys2Proof

/-! ## The frames at the jury (R133 to R135, R138) -/

section jury

variable {s u : State} {l : LineHdr} {h : AttemptHdr} {cs : List Change} {x : AttemptRecord} {p : ScoringPart}

/-- A LANDING at JURY opens the gather of a part that has none, and tests it. -/
theorem State.BeforeBlocks.landing_scored (before : s.BeforeBlocks u) (lands : ∀ c ∈ cs, c.lands)
    (scores : u.Scores h.attempt x p) (jury : s.loader.roles.jury = true) (fresh : p.gather = .notOpen)
    (unknown : p.distance = none) (d : Nat) (q : Quality) (nt lc : Bool) {p' : ScoringPart}
    (taken : p' = s.gathered x (s.landingTaken l x p (s.handedManual l (.landing h d q nt lc)))) :
    (u.handFrame l (.landing h d q nt lc) cs).Scores h.attempt { x with scoring := some p' } p' := by
  obtain ⟨y, reads, k, table⟩ := State.handFrame_scores scores (by rw [before.loader]; exact jury) l
    (.landing h d q nt lc) lands
  have all := before.reads.trans reads
  have done := k.scoringLanding l (u.handedManual l (.landing h d q nt lc)) fresh unknown
  have deadline : y.landingTaken l x p (s.handedManual l (.landing h d q nt lc)) =
      s.landingTaken l x p (s.handedManual l (.landing h d q nt lc)) := by
    unfold State.landingTaken State.gatherEnd
    rw [all.consts]
  rw [before.handedManual, all.gathered, deadline, ← taken, ← before.handedManual] at done
  exact done.of_table table

/-- A MASTMEAN at JURY enters the means, or leaves the part. -/
theorem State.BeforeBlocks.mean_scored (before : s.BeforeBlocks u) (lands : ∀ c ∈ cs, c.lands)
    (scores : u.Scores h.attempt x p) (jury : s.loader.roles.jury = true) (mast : Nat) (mean : Option Int) (used : Nat)
    (part : Bool) {p' : ScoringPart} (taken : p' = s.meanTaken l x p ⟨mast, mean, used, part⟩) :
    (u.handFrame l (.mastMean h mast mean used part) cs).Scores h.attempt { x with scoring := some p' } p' := by
  obtain ⟨y, reads, k, table⟩ := State.handFrame_scores scores (by rw [before.loader]; exact jury) l
    (.mastMean h mast mean used part) lands
  have all := before.reads.trans reads
  have done := k.scoringMean l mast mean used part
  have same : y.meanTaken l x p ⟨mast, mean, used, part⟩ = p' := by
    unfold State.meanTaken at taken ⊢
    rw [all.consts, all.gathered, taken]
  rw [same] at done
  exact done.of_table table

end jury

/-! ## The LANDING at a mast (R108) -/

/-- A LANDING at MAST, for a record in LANDED without a mean: its mean record, and a MASTMEAN behind what waits. -/
theorem State.BeforeBlocks.landing_meaned {s u : State} {l : LineHdr} {h : AttemptHdr} {cs : List Change}
    {x : AttemptRecord} (before : s.BeforeBlocks u) (lands : ∀ c ∈ cs, c.lands) (isMast : s.loader.roles.mast = true)
    (record : u.attempt? h.attempt = some x) (landed : x.state = .landed) (new : s.wind.hasMean h.attempt = false)
    (d : Nat) (q : Quality) (nt lc : Bool) {mean : Option Int} {used : Nat} {part : Bool}
    (window : s.flightMean x = (mean, used, part)) {body : Body}
    (content : body = .mastMean x.hdr s.loader.mast mean used part) :
    (u.handFrame l (.landing h d q nt lc) cs).wind =
        { s.wind with means := s.wind.means ++ [⟨h.attempt, some body, false⟩] } ∧
      (s.loader.roles.start = false → s.loader.state = .run → s.line.urgent.length < 8 →
        s.line.urgent ++ [⟨body, s.line.eventNumber, none⟩] <+:
          (u.handFrame l (.landing h d q nt lc) cs).line.urgent) := by
  obtain ⟨y, loader, wind, table, line, kept, grows⟩ :=
    State.handFrame_mast (by rw [before.loader]; exact isMast) l h d q nt lc lands
  have found : y.attempt? h.attempt = some x := by
    rw [← record]
    unfold State.attempt?
    rw [table]
  have same : y.wind = s.wind := wind.trans before.wind
  have at_mast : y.loader = s.loader := loader.trans before.loader
  obtain ⟨means, offered⟩ := State.windLanding_offers (body := body) found landed (by rw [same]; exact new)
    ((State.flightMean_congr at_mast same rfl rfl).trans window) (by rw [at_mast]; exact content)
  refine ⟨kept.trans (by rw [means, same]), fun start running room => ?_⟩
  have queue := line (by rw [before.loader]; exact start)
  have joins := offered (by rw [at_mast]; exact running) (by rw [queue, before.urgent]; exact room)
  rw [queue, before.urgent, before.event] at joins
  exact joins ▸ grows

/-! ## The record of a LANDING (R50) -/

/-- The first LANDING of a record in AIRBORNE or LANDED. -/
theorem AttemptRecord.take_first_landing {r : AttemptRecord} (flew : r.state = .airborne ∨ r.state = .landed)
    (first : r.quality = none) (bound : Bool) (l : LineHdr) (h : AttemptHdr) (d : Nat) (q : Quality) (nt lc : Bool) :
    ∃ x, x = r.take bound l (.landing h d q nt lc) ∧ x.state = .landed ∧ x.hdr = r.hdr ∧
      x.scoring = r.scoring ∧ x.takeoffTime = r.takeoffTime ∧ x.landingTime = some l.eventTime ∧
      recordDistance x = if q = .none then none else some (d, q) := by
  have nv : r.state ≠ .void := by rcases flew with e | e <;> simp [e]
  refine ⟨_, rfl, ?_, (r.take_keeps _ _ _).1, (r.take_keeps _ _ _).2, ?_⟩
  all_goals rw [AttemptRecord.take_landing_fields nv, if_pos first]
  · rcases flew with e | e <;> simp [e, AttemptState.rank, AttemptRecord.held]
  · refine ⟨rfl, rfl, ?_⟩
    cases q <;> rfl

/-- The manual distance that is handed over, or the frame's own (R128, R133). -/
def givenDistance (manual : Option Nat) (d : Nat) (q : Quality) : Option (Nat × Quality) :=
  manual.elim (if q = .none then none else some (d, q)) fun m => some (m, .manual)

/-- What a LANDING gives the part, as the statement says it: the distance handed over, or the frame's (R128, R133). -/
theorem State.landingTaken_eq (s : State) (l : LineHdr) (h : AttemptHdr) (d : Nat) (q : Quality) (nt lc : Bool)
    {x : AttemptRecord} (p : ScoringPart) (measured : recordDistance x = if q = .none then none else some (d, q)) :
    s.landingTaken l x p (s.handedManual l (.landing h d q nt lc)) = { p with
      gather := .opened, deadline := some (l.stamp + secondsT s.loader.consts.flight.gatherS)
      distance := givenDistance (s.manualGiven l h.attempt p) d q } := by
  unfold State.landingTaken State.gatherEnd givenDistance
  rw [measured]
  by_cases waits : p.stage = .waiting
  · rw [State.handedManual_eq_manualGiven s l waits]
    cases s.manualGiven l h.attempt p <;> simp [waits]
  · have none : s.manualGiven l h.attempt p = none := by
      unfold State.manualGiven
      rw [if_neg fun k => waits k.2]
    rw [none]
    cases s.handedManual l (.landing h d q nt lc) <;> simp [waits]

/-- A part whose gather the test completes or leaves OPEN. -/
theorem State.gathered_eq (s : State) (r : AttemptRecord) {p : ScoringPart} (opened : p.gather = .opened) :
    s.gathered r p = if s.complete p = true then s.tested r p.done else p := by
  simp [State.gathered, opened]

/-! ## The parts of the statement -/

/-- A LANDING at JURY: the gather stays open, or is DONE with the scoring test made (R133, R135, R138). -/
theorem State.gathered_landing (s : State) (r : AttemptRecord) {p q : ScoringPart} (live : r.state.live = true)
    (opened : q.gather = .opened) (stage : q.stage = p.stage) (means : q.means = p.means) :
    (s.complete p = false → s.gathered r q = q) ∧
      (s.complete p = true → ∀ p', p' = s.gathered r q → p'.gather = .done ∧ p'.deadline = none ∧
        p'.distance = q.distance ∧ p'.means = p.means ∧ p'.marks = q.marks ∧
        (p.stage = .waiting → (p'.stage = .sent ↔ s.Publishes r p') ∧
          (p'.stage = .sent → p'.revision = some 0 ∧
            p'.copy = some (s.computeResult r p' (s.referenceGate r) 0)))) := by
  have same : s.complete q = s.complete p := by unfold State.complete; rw [means]
  rw [s.gathered_eq r opened, same]
  refine ⟨fun short => by rw [short, if_neg Bool.false_ne_true], fun full p' e => ?_⟩
  rw [full, if_pos rfl] at e
  subst e
  obtain ⟨gather, deadline, distance, entries, marks⟩ := s.tested_keeps r q.done
  refine ⟨gather, deadline, distance, entries.trans means, marks, fun waits => ?_⟩
  have sent := s.tested_sent (r := r) (p := q.done) (stage.trans waits) rfl
  exact ⟨by rw [sent.1, live]; simp, sent.2⟩

/-- A MASTMEAN at JURY (R134, R135, R138). -/
theorem State.meanTaken_spec (s : State) (l : LineHdr) (r : AttemptRecord) (p : ScoringPart) (e : MeanEntry)
    {p' : ScoringPart} (taken : p' = s.meanTaken l r p e) :
    p'.marks = p.marks ∧ p'.distance = p.distance ∧
    (s.loader.consts.mastStation e.mast = some l.sender → s.loader.consts.isScoring e.mast = true →
      p.gather ≠ .done → p'.means = putMean e p.means ∧
      (p.gather = .opened → (p'.gather = .done ↔ s.complete p' = true) ∧
        (p.stage = .waiting →
          (p'.stage = .sent ↔ p'.gather = .done ∧ r.state.live = true ∧ s.Publishes r p') ∧
          (p'.stage = .sent → p'.revision = some 0 ∧
            p'.copy = some (s.computeResult r p' (s.referenceGate r) 0))))) ∧
    (s.loader.consts.mastStation e.mast ≠ some l.sender ∨ s.loader.consts.isScoring e.mast = false ∨
      p.gather = .done → p' = p) := by
  subst taken
  unfold State.meanTaken
  split
  · rename_i enters
    obtain ⟨sender, scoring, going⟩ := enters
    have ignored : ¬(s.loader.consts.mastStation e.mast ≠ some l.sender ∨ s.loader.consts.isScoring e.mast = false ∨
        p.gather = .done) := by simp [sender, scoring, going]
    unfold State.gathered
    split
    · rename_i complete
      obtain ⟨gather, deadline, distance, entries, marks⟩ :=
        s.tested_keeps r ({ p with means := putMean e p.means } : ScoringPart).done
      have full : s.complete (s.tested r ({ p with means := putMean e p.means } : ScoringPart).done) = true := by
        unfold State.complete
        rw [entries]
        exact complete.2
      refine ⟨marks, distance, fun _ _ _ => ⟨entries, fun _ => ⟨by rw [gather, full]; simp [ScoringPart.done],
        fun waits => ?_⟩⟩, fun k => absurd k ignored⟩
      have sent := s.tested_sent (r := r) (p := ({ p with means := putMean e p.means } : ScoringPart).done) waits rfl
      exact ⟨by rw [sent.1, gather]; simp [ScoringPart.done], sent.2⟩
    · rename_i short
      refine ⟨rfl, rfl, fun _ _ _ => ⟨rfl, fun opened => ?_⟩, fun k => absurd k ignored⟩
      refine ⟨⟨fun done => absurd done going, fun full => absurd ⟨opened, full⟩ short⟩, fun waits => ?_⟩
      have still : p.stage ≠ .sent := by simp [waits]
      exact ⟨⟨fun sent => absurd sent still, fun k => absurd k.1 going⟩, fun sent => absurd sent still⟩
  · rename_i ignored
    exact ⟨rfl, rfl, fun sender scoring going => absurd ⟨sender, scoring, going⟩ ignored, fun _ => rfl⟩

/-- The mean of a record over its window (R107). -/
theorem State.flightMean_spec (s : State) (r : AttemptRecord) :
    (r.takeoffTime = none ∨ r.landingTime = none → s.flightMean r = (none, 0, false)) ∧
    (∀ (takeoff stop start : Tick) (xs : List Sample), r.takeoffTime = some takeoff →
      r.landingTime = some stop → start = takeoff - ticks (s.loader.consts.wind.preWindowMs * 10) →
      xs = (if 0 < since start stop then []
        else s.wind.ring.filter (fun x => 0 ≤ since x.time start && 0 ≤ since stop x.time)) →
      (xs = [] → s.flightMean r = (none, 0, false)) ∧
      (xs ≠ [] → ∃ part, s.flightMean r = (some (roundHalfAway (xs.map Sample.x).sum xs.length), xs.length, part) ∧
        (part = true ↔ ∃ o, s.wind.ring.head? = some o ∧ 0 < since o.time start))) := by
  refine ⟨fun missing => ?_, fun takeoff stop start xs off on e window => ?_⟩
  · unfold State.flightMean
    rcases missing with e | e <;> rw [e]
    cases r.takeoffTime <;> rfl
  · have mean : s.flightMean r = if before stop start then (none, 0, false)
        else if (flightSamples start stop s.wind.ring).isEmpty then (none, 0, false)
        else (some (roundHalfAway ((flightSamples start stop s.wind.ring).map (·.x)).sum
            (flightSamples start stop s.wind.ring).length), (flightSamples start stop s.wind.ring).length,
          match s.wind.ring with
          | [] => false
          | o :: _ => before start o.time) := by
      unfold State.flightMean
      rw [off, on, e]
      rfl
    rw [mean]
    by_cases late : 0 < since start stop
    · rw [if_pos late] at window
      rw [if_pos (by simpa [before] using late), window]
      exact ⟨fun _ => rfl, fun ne => absurd rfl ne⟩
    · rw [if_neg late] at window
      rw [if_neg (by simpa [before] using late)]
      have samples : flightSamples start stop s.wind.ring = xs := window.symm
      rw [samples]
      refine ⟨fun none => by rw [none]; rfl, fun ne => ?_⟩
      rw [if_neg (by simpa using ne)]
      refine ⟨_, rfl, ?_⟩
      cases s.wind.ring with
      | nil => simp
      | cons o os => simp [before]

/-- The masts that are expected (R133). -/
theorem State.mem_expectedMasts (s : State) (m : Nat) :
    m ∈ s.expectedMasts ↔ ∃ e st, s.loader.consts.masts.find? (·.mast == m) = some e ∧
      e.scoring = true ∧ s.loader.consts.mastStation m = some st ∧ (s.rosterAt st).presence = .present := by
  have listed : ∀ e, s.loader.consts.masts.find? (·.mast == m) = some e →
      m ∈ s.loader.consts.masts.map (·.mast) := fun e found =>
    List.mem_map.2 ⟨e, List.mem_of_find?_eq_some found, by simpa using List.find?_some found⟩
  unfold State.expectedMasts Constants.isScoring Constants.mastEntry
  simp only [List.mem_filter]
  cases found : s.loader.consts.masts.find? (·.mast == m) with
  | none => simp
  | some e =>
    have mem := listed e found
    cases holds : s.loader.consts.mastStation m with
    | none => simp
    | some st => simp [mem]

/-- The reference gate of an attempt (R142). -/
theorem State.referenceGate_spec (s : State) (r : AttemptRecord) :
    (∀ g, s.standings.round.refGate = some g → s.standings.round.number = r.hdr.round → s.referenceGate r = g) ∧
    (∀ g, s.standings.round.refGate = none ∨ s.standings.round.number ≠ r.hdr.round → r.juryGate = some g →
      s.referenceGate r = g) := by
  unfold State.referenceGate
  refine ⟨fun g gate number => by rw [gate]; exact if_pos number, fun g none jury => ?_⟩
  rw [jury]
  cases gate : s.standings.round.refGate with
  | none => rfl
  | some k => exact if_neg (none.resolve_left (by simp [gate]))

/-- Settles O26: the record reaches the blocks (`State.Delivers.toBlocks`), the scoring unit takes the frame
(`State.BeforeBlocks.landing_scored`, `State.BeforeBlocks.mean_scored`) and makes of the part what
`State.gathered_landing` and `State.meanTaken_spec` say, and the wind unit offers its MASTMEAN
(`State.windLanding_offers`), behind which the urgent queue only grows (`State.handFrame_mast`). -/
theorem landingAndMeansAtTheJury : Obligations.LandingAndMeansAtTheJury := by
  refine ⟨fun s l h d q nt lc r del present known flew => ?_,
    fun s l h mast mean used part r p del present jury known nv scored => ?_,
    State.flightMean_spec, State.mem_expectedMasts, State.referenceGate_spec⟩
  · have nv : r.state ≠ .void := by rcases flew with e | e <;> simp [e]
    obtain ⟨u, cs, run, before, lands, record⟩ := del.toBlocks present rfl rfl known nv
    refine ⟨_, run, fun jury p dist scored fresh unknown first given => ?_,
      fun isMast new first mean used part body window content => ?_⟩
    · obtain ⟨x, written, landed, -, kept, -, -, measured⟩ :=
        AttemptRecord.take_first_landing flew first (s.loader.roles.start && !s.isOwn l) l h d q nt lc
      have scores : u.Scores h.attempt x p := ⟨record.trans (by rw [written]), kept.trans scored⟩
      have done := before.landing_scored (l := l) lands scores jury fresh unknown d q nt lc rfl
      have taken := s.landingTaken_eq l h d q nt lc p measured
      have distance : dist = givenDistance (s.manualGiven l h.attempt p) d q := by
        rw [given]
        cases s.manualGiven l h.attempt p <;> rfl
      rw [← distance] at taken
      have spec := s.gathered_landing x (p := p)
        (q := s.landingTaken l x p (s.handedManual l (.landing h d q nt lc))) (by rw [landed]; rfl) rfl rfl rfl
      refine ⟨fun short => ⟨_, done.part?, (spec.1 short).trans taken⟩, fun full => ?_⟩
      obtain ⟨gather, deadline, measure, means, marks, sent⟩ := spec.2 full _ rfl
      exact ⟨_, _, done.record, rfl, gather, deadline, measure.trans (by rw [taken]), means, marks, sent⟩
    · obtain ⟨x, written, landed, hdr, -, takeoff, landing, -⟩ :=
        AttemptRecord.take_first_landing flew first (s.loader.roles.start && !s.isOwn l) l h d q nt lc
      have same : s.flightMean x = (mean, used, part) :=
        (State.flightMean_congr (r := { r with landingTime := some l.eventTime }) rfl rfl takeoff landing).trans
          window.symm
      exact before.landing_meaned lands isMast (record.trans (by rw [written])) landed new d q nt lc same
        (by rw [hdr]; exact content)
  · obtain ⟨u, cs, run, before, lands, record⟩ := del.toBlocks present rfl rfl known nv
    have scores : u.Scores h.attempt _ p := ⟨record, (r.take_keeps _ _ _).2.trans scored⟩
    have done := before.mean_scored (l := l) lands scores jury mast mean used part rfl
    have live := AttemptRecord.take_lands_live (b := .mastMean h mast mean used part) rfl nv
      (s.loader.roles.start && !s.isOwn l) l
    generalize r.take _ l _ = x at *
    obtain ⟨marks, distance, enters, ignored⟩ := s.meanTaken_spec l x p ⟨mast, mean, used, part⟩ rfl
    refine ⟨_, _, run, done.part?, marks, distance, fun sender scoring going => ?_, ignored⟩
    obtain ⟨means, tested⟩ := enters sender scoring going
    refine ⟨means, fun opened r' found => ?_⟩
    obtain rfl := Option.some.inj (found.symm.trans done.record)
    obtain ⟨complete, sent⟩ := tested opened
    exact ⟨complete, fun waits => ⟨(sent waits).1.trans (by rw [live]; rfl), (sent waits).2⟩⟩

end Sys2Proof.Machine
end
